-- ==== Sys2Proof/Word.lean ====
section
/-!
DEFINITION. The plain words of the module and its sparse tables.

Registers, addresses while they are computed and fields of packets are bit vectors (00 R17: little-endian,
naturally aligned). Unit numbers, counts and table keys are natural numbers.
-/
namespace Sys2Proof

/-- A byte. -/
abbrev Byte := BitVec 8
/-- A 32-bit register or signal word (10 R356). -/
abbrev Word := BitVec 32
/-- A 64-bit register, a GTS value or a Nelol instruction word. -/
abbrev DWord := BitVec 64

/-- A sparse table: pairs of a key and a value, keys strictly rising. The operations that keep this form stand in
Sys2Proof.Machine.Tab; a table used with a default never lists an entry equal to it. -/
abbrev Tab (α : Type) := List (Nat × α)

/-- One Nelol instruction as a wheel issues it: who issues it, and the fields of the word of 03 R122 other than
CLASS and OP, which choose the command. -/
structure Issue where
  /-- The wheel, 0 to 191. -/
  wheel : Nat
  /-- The crew slot, 0 to 63. -/
  slot : Nat
  /-- The path of the crew, 0 to 31. -/
  path : Nat
  /-- Guard predicate, bits [51:49]. -/
  pg : BitVec 3 := 7
  /-- Bit [48]: 1 inverts the guard. -/
  pn : Bool := false
  /-- Bits [47:40]. -/
  da : BitVec 8 := 0
  /-- Bits [39:32]. -/
  sa : BitVec 8 := 0
  /-- Bits [31:24]. -/
  sb : BitVec 8 := 0
  /-- Bits [23:0]. -/
  x : BitVec 24 := 0
  deriving DecidableEq, Repr

end Sys2Proof
end

