-- ==== Sys2Proof/Messages.lean ====
section
/-!
DEFINITION. What the world outside hands to the module in one command: PTP messages (02 R61), flits and datagrams (13),
sensor readings (14), results of the loader's checks (15).
-/
namespace Sys2Proof

/-- A PTP Sync or Follow_Up from a master (02 R61). Times are in units of 2^-41 ns. -/
structure SyncMsg where
  clock : DWord
  domain : Byte
  seq : Nat
  twoStep : Bool := false
  /-- Origin time of the message, as the master gives it. -/
  origin : Nat := 0
  logInterval : Int := 0
  /-- The change of rho the servo chooses (02 R62, R63). -/
  rateStep : Int := 0
  tlv : List Byte := []
  deriving DecidableEq, Repr

/-- A PTP Delay_Resp (02 R61). -/
structure DelayResp where
  clock : DWord
  domain : Byte
  seq : Nat
  /-- Time at which the master received the Delay_Req. -/
  receive : Nat
  deriving DecidableEq, Repr

/-- A PTP Announce (02 R61). -/
structure Announce where
  clock : DWord
  domain : Byte
  prio1 : Byte
  cls : Byte
  accuracy : Byte
  variance : BitVec 16
  prio2 : Byte
  steps : BitVec 16
  deriving DecidableEq, Repr

/-- A Spanor packet (13 R460); `data` holds its data bytes. -/
structure Packet where
  dest : Nat
  src : Nat
  /-- 0 write, 1 bare signal, 2 attached signal, 3 acknowledgement, 4 collective data, 5 collective control, 6 securing. -/
  kind : Nat
  hop : Nat := 0
  tclass : Nat := 0
  saggar : Nat := 0
  length : Nat := 0
  addr : DWord := 0
  tag : Nat := 0
  guild : Nat := 0
  rank : Nat := 0
  v : Word := 0
  op : Nat := 0
  count : Nat := 0
  data : List Byte := []
  deriving DecidableEq, Repr

/-- A flit as the receiver's FEC leaves it (13 R455, R457): whether its CRC holds, how many bytes were corrected, and the
packets whose last byte it carries. -/
structure Flit where
  type : Nat := 1
  seq : Nat := 0
  ackSeq : Nat := 0
  nak : Bool := false
  creditClass : Nat := 0
  credits : Nat := 0
  crcOk : Bool := true
  corrected : Nat := 0
  pkts : List Packet := []
  /-- A control flit's time mark: the sender's GTS (13 R492). -/
  mark : Option DWord := none
  deriving DecidableEq, Repr

/-- A guild datagram on Ethernet (13 R473). -/
structure Datagram where
  /-- Source module. -/
  module : Nat
  seq : Nat := 0
  ack : Nat := 0
  sack : Word := 0
  notice : Bool := false
  /-- The datagram arrived marked CE; its frame's FCS held. -/
  ce : Bool := false
  fcsOk : Bool := true
  pkt : Option Packet := none
  deriving DecidableEq, Repr

/-- An error as its detecting unit reports it (16 R545): unit kind and index of R548, error type of R559, the physical address met,
the saggar and stream whose operation met it, the crew slot for an error in a wheel's data, and whether a stream context was dirty. -/
structure ErrReport where
  kind : Nat
  index : Nat
  etype : Nat
  addr : Nat := 0
  saggar : Nat := 0xFFF
  stream : Nat := 0xFFFFF
  slot : Nat := 0
  dirty : Bool := false
  deriving DecidableEq, Repr

/-- What the module reads from a cartridge over its management bus (13 R475, R476). -/
structure CtgPages where
  answers : Bool := true
  serial : BitVec 128 := 0
  /-- The cone record of page 03h. -/
  cone : List Byte := []
  /-- It offers an application with host interface 800GAUI-8 C2M. -/
  app : Bool := true
  deriving DecidableEq, Repr

/-- What the loader's hardware finds of one slot (15 R524, R525, R538): every read answered; the key matches the fused hash of its
slot; the signature holds; SHA-384 of the signed part and of the HUB_CODE section. -/
structure SlotFacts where
  readOk : Bool := true
  keyOk : Bool := true
  sigOk : Bool := true
  digest : BitVec 384 := 0
  hubDigest : BitVec 384 := 0
  deriving DecidableEq, Repr

/-- What LOADING finds (15 R520): the flash answered, the manufacturing data passed its check; the two slots. -/
structure LoadFacts where
  flashOk : Bool := true
  a : SlotFacts := {}
  b : SlotFacts := {}
  deriving DecidableEq, Repr

/-- The end of a vector chain: the chain, and the element at which it met an uncorrectable error, if any (R235, R236). -/
structure ChainEnd where
  id : Nat
  bad : Option Nat := none
  deriving DecidableEq, Repr

end Sys2Proof
end

