-- ==== Sys2Proof/Syntax.lean ====
section
/-!
DEFINITION. The commands of the block: one constructor per row of spec/opcode_table.json (see LAWS.json for the map).

An instruction of the wheels carries one `Issue`; a stream command its stream, whose packet lies in the stream's ring
(11 R408); a mailbox command its function and request number (19 R632); every other command names its unit and what
the world outside supplies.
-/
namespace Sys2Proof

/-- A command. -/
inductive Instr where
  /-- R124: Integer add of two registers into DA, 32-bit. -/
  | add (i : Issue)
  /-- R124: Integer subtract of SB from SA into DA, 32-bit. -/
  | sub (i : Issue)
  /-- R124: Low 32 bits of the integer product. -/
  | mulLo (i : Issue)
  /-- R124: High 32 bits of the signed integer product. -/
  | mulHi (i : Issue)
  /-- R124: High 32 bits of the unsigned integer product. -/
  | mulHiu (i : Issue)
  /-- R671: Signed 32-bit division truncated toward zero; division by zero gives 0xFFFF_FFFF. -/
  | div (i : Issue)
  /-- R124: Bitwise AND of two registers. -/
  | and (i : Issue)
  /-- R124: Bitwise OR of two registers. -/
  | or (i : Issue)
  /-- R124: Bitwise XOR of two registers. -/
  | xor (i : Issue)
  /-- R124: Shift left by SB[4:0]. -/
  | shl (i : Issue)
  /-- R124: Logical shift right by SB[4:0]. -/
  | shr (i : Issue)
  /-- R124: Arithmetic shift right by SB[4:0]. -/
  | sar (i : Issue)
  /-- R124: Signed minimum of two registers. -/
  | min (i : Issue)
  /-- R124: Signed maximum of two registers. -/
  | max (i : Issue)
  /-- R124: Unsigned minimum of two registers. -/
  | minu (i : Issue)
  /-- R124: Unsigned maximum of two registers. -/
  | maxu (i : Issue)
  /-- R124: Population count of SA into DA. -/
  | popc (i : Issue)
  /-- R124: Count of leading zeros of SA into DA. -/
  | clz (i : Issue)
  /-- R124: Copy SA into DA. -/
  | mov (i : Issue)
  /-- R124: Select SA or SB into DA by a predicate. -/
  | sel (i : Issue)
  /-- R124: Add a sign-extended 24-bit immediate. -/
  | addi (i : Issue)
  /-- R124: AND with a 24-bit immediate. -/
  | andi (i : Issue)
  /-- R124: OR with a 24-bit immediate. -/
  | ori (i : Issue)
  /-- R124: XOR with a 24-bit immediate. -/
  | xori (i : Issue)
  /-- R124: Shift left by Imm[4:0]. -/
  | shli (i : Issue)
  /-- R124: Logical shift right by Imm[4:0]. -/
  | shri (i : Issue)
  /-- R124: Load a sign-extended immediate into DA. -/
  | movi (i : Issue)
  /-- R124: Write Imm[15:0] into DA[31:16], keeping DA[15:0]. -/
  | movhi (i : Issue)
  /-- R173: FP32 add, RNE, subnormals kept. -/
  | fadd (i : Issue)
  /-- R173: FP32 subtract, RNE. -/
  | fsub (i : Issue)
  /-- R173: FP32 multiply, RNE. -/
  | fmul (i : Issue)
  /-- R668: FP32 minimum with canonical NaN and -0 below +0. -/
  | fmin (i : Issue)
  /-- R668: FP32 maximum with canonical NaN and -0 below +0. -/
  | fmax (i : Issue)
  /-- R173: FP32 fused multiply-add with one rounding. -/
  | ffma (i : Issue)
  /-- R173: FP32 reciprocal within 1 ulp, quarter rate. -/
  | frcp (i : Issue)
  /-- R173: FP32 reciprocal square root within 1 ulp. -/
  | frsq (i : Issue)
  /-- R173: FP32 square root, correctly rounded. -/
  | fsqrt (i : Issue)
  /-- R173: FP32 base-2 exponential within 1 ulp. -/
  | fexp2 (i : Issue)
  /-- R124: FP64 add on register pairs. -/
  | dadd (i : Issue)
  /-- R124: FP64 multiply on register pairs. -/
  | dmul (i : Issue)
  /-- R124: FP64 fused multiply-add on register pairs. -/
  | dfma (i : Issue)
  /-- R124: FP64 register pair move. -/
  | dmov (i : Issue)
  /-- R669: Integer compare writing a predicate. -/
  | isetp (i : Issue)
  /-- R669: FP32 compare writing a predicate, with ordered and unordered conditions. -/
  | fsetp (i : Issue)
  /-- R124: Logical operation on two predicates. -/
  | plop (i : Issue)
  /-- R84: Relative branch; may split a diverging path. -/
  | bra (i : Issue)
  /-- R124: Branch to the address held in a register pair. -/
  | brx (i : Issue)
  /-- R124: Call with the return address written to the DA pair. -/
  | call (i : Issue)
  /-- R124: Return to the address in the SA pair. -/
  | ret (i : Issue)
  /-- R86: Record a reconvergence address for the next splitting branch. -/
  | jpush (i : Issue)
  /-- R86: Wait at the reconvergence address until every thread of the split arrives. -/
  | join (i : Issue)
  /-- R87: End the path's turn so the partition chooses again. -/
  | yield (i : Issue)
  /-- R88: End the executing threads; release crew resources when all exit. -/
  | exit (i : Issue)
  /-- R124: Instruction with no effect. -/
  | nop (i : Issue)
  /-- R124: Load from device memory or local store with width and ordering. -/
  | ld (i : Issue)
  /-- R124: Store to device memory or local store with width and ordering. -/
  | st (i : Issue)
  /-- R302: Atomic integer add at the home slice returning the old value. -/
  | atomAdd (i : Issue)
  /-- R355: Atomic FP32 add at the home slice, RNE. -/
  | atomFadd (i : Issue)
  /-- R671: Atomic signed minimum. -/
  | atomMin (i : Issue)
  /-- R671: Atomic signed maximum. -/
  | atomMax (i : Issue)
  /-- R302: Atomic AND. -/
  | atomAnd (i : Issue)
  /-- R302: Atomic OR. -/
  | atomOr (i : Issue)
  /-- R302: Atomic exchange. -/
  | atomExch (i : Issue)
  /-- R671: Atomic compare-and-swap with register-pair operands. -/
  | atomCas (i : Issue)
  /-- R171: Format conversion with rounding mode and saturation. -/
  | cvt (i : Issue)
  /-- R125: Read GTS into a register pair. -/
  | tmrd (i : Issue)
  /-- R126: Read a special register. -/
  | sreg (i : Issue)
  /-- R340: Acquire, release or both for the crew. -/
  | fence (i : Issue)
  /-- R90: Arrive at a crew bell with a member mask and wait. -/
  | bellC (i : Issue)
  /-- R103: Start a one-dimensional asynchronous copy on an arrival counter. -/
  | acopy1d (i : Issue)
  /-- R103: Start a two-dimensional asynchronous copy on an arrival counter. -/
  | acopy2d (i : Issue)
  /-- R100: Wait on an arrival counter for a target value. -/
  | acwait (i : Issue)
  /-- R103: Read an arrival counter value. -/
  | acread (i : Issue)
  /-- R279: Copy a byte range of a gather slot buffer into local store. -/
  | grecv (i : Issue)
  /-- R287: Write a cosine and sine positional table by the copy engine. -/
  | ptab (i : Issue)
  /-- R137: Crew matrix instruction entering the array queue once every live thread converges. -/
  | mx (i : Issue)
  /-- R147: Half-width crew matrix instruction, pairable side by side. -/
  | mxh (i : Issue)
  /-- R159: Matrix-vector product into 16 accumulator words. -/
  | mv (i : Issue)
  /-- R161: Fill a tile register from memory. -/
  | tld (i : Issue)
  /-- R161: Store a tile register to memory. -/
  | tst (i : Issue)
  /-- R163: Clear a tile register. -/
  | tzero (i : Issue)
  /-- R152: Bind an accumulator window with base, size, type, LONG_SUM and weight ID. -/
  | accWin (i : Issue)
  /-- R164: Clear one accumulator block. -/
  | accZero (i : Issue)
  /-- R157: Drain an accumulator block to memory with conversion via the copy engine. -/
  | accRd (i : Issue)
  /-- R157: Load or add memory rows into an accumulator block via the copy engine. -/
  | accWr (i : Issue)
  /-- R156: Pairwise-tree reduction of consecutive accumulator blocks. -/
  | accRed (i : Issue)
  /-- R194: Optimizer update of master weights from a descriptor via the copy engine. -/
  | opt (i : Issue)
  /-- R193: Stochastically rounded scaled accumulation of a block into a BF16 gradient buffer. -/
  | gacc (i : Issue)
  /-- R196: Read a layer's numerics state. -/
  | lstat (i : Issue)
  /-- R196: Set a pending update scale for a layer. -/
  | uscaleSet (i : Issue)
  /-- R220: Set the vector length register. -/
  | vsetvl (i : Issue)
  /-- R220: Read the vector length register. -/
  | vgetvl (i : Issue)
  /-- R222: Start a fused vector chain from a descriptor. -/
  | vchain (i : Issue)
  /-- R241: Reduce one tile register by rows or columns. -/
  | vred (i : Issue)
  /-- R242: Launch BVH traversal queries for the path's threads. -/
  | trav (i : Issue)
  /-- R357: Per-thread signal operation on a signal word, optionally with release. -/
  | sig (i : Issue)
  /-- R366: Per-thread wait on a signal word for a target. -/
  | sigw (i : Issue)
  /-- R373: Send a bare signal to a guild peer. -/
  | sigR (i : Issue)
  /-- R374: Copy bytes to a guild peer, optionally with an attached signal. -/
  | rput (i : Issue)
  /-- R386: Send a completion record to a collector. -/
  | collect (i : Issue)
  /-- R379: Join a group bell as a member. -/
  | bellGjoin (i : Issue)
  /-- R379: Leave a group bell, withdrawing any arrival. -/
  | bellGleave (i : Issue)
  /-- R379: Arrive at a group bell and wait for release. -/
  | bellGarrive (i : Issue)
  /-- R379: Arrive at a group bell, read the phase and continue. -/
  | bellGsignal (i : Issue)
  /-- R379: Wait for a group bell phase. -/
  | bellGwait (i : Issue)
  /-- R379: Reset a group bell to READY and advance its phase. -/
  | bellGreset (i : Issue)
  /-- R416: Stream command that completes when it begins. -/
  | nopCommand (stream : Nat)
  /-- R416: Place a launch's crew tasks in the market. -/
  | launch (stream : Nat)
  /-- R197: Open a layer block with level, replay bit and held ranges. -/
  | layerBegin (stream : Nat)
  /-- R201: Close a layer block, committing or starting a replay. -/
  | layerCommit (stream : Nat)
  /-- R205: Advance the training step counter and process layer numerics and securing. -/
  | step (stream : Nat)
  /-- R418: Stream command applying a signal operation with release. -/
  | signal (stream : Nat)
  /-- R416: Stream command waiting on a signal word target. -/
  | wait (stream : Nat)
  /-- R273: Start a just-in-time parameter gather into a slot. -/
  | gather (stream : Nat)
  /-- R276: Request release of a gather slot. -/
  | gatherRelease (stream : Nat)
  /-- R284: Start an early restore of a layer's offloaded ranges. -/
  | prefetch (stream : Nat)
  /-- R417: Move 64 KiB units between tiers and signal on completion. -/
  | tierMove (stream : Nat)
  /-- R487: Guild collective command run by the collective engine. -/
  | guild (stream : Nat)
  /-- R142: An array queue entry starts operand read and occupancy once leave is held. -/
  | arrayEntryStart (wheel : Nat) (badHead : Bool) (badPartner : Bool)
  /-- R143: An MX-class entry commits its block to the accumulator buffer. -/
  | mxCommit (wheel : Nat) (badHead : Bool) (badPartner : Bool)
  /-- R149: An unpaired MXH at the head runs alone after 8 cycles. -/
  | mxhPartnerTimeout (wheel : Nat)
  /-- R160: A matrix-vector entry commits through the service port. -/
  | mvCommit (wheel : Nat) (bad : Bool)
  /-- R97: A copy-engine operation completes and advances its arrival counter. -/
  | copyComplete (wheel : Nat) (id : Nat)
  /-- R235: A vector chain writes its last element and advances its counter. -/
  | chainComplete (wheel : Nat) (e : ChainEnd)
  /-- R242: A traversal query ends and writes its result registers. -/
  | travQueryComplete (wheel : Nat) (id : Nat)
  /-- R82: A wheel with room starts a task as a new crew. -/
  | crewStart (wheel : Nat)
  /-- R104: A wheel with room and no startable task asks the market for work. -/
  | marketRequest (wheel : Nat)
  /-- R105: The market answers with a task range or EMPTY. -/
  | marketAnswer (wheel : Nat)
  /-- R107: A wheel sends a steal probe to the next victim. -/
  | stealProbe (wheel : Nat)
  /-- R108: A steal probe reaches a victim's deque and takes tasks. -/
  | stealProbeArrival (wheel : Nat)
  /-- R109: A steal answer returns to the thief. -/
  | stealAnswer (wheel : Nat)
  /-- R111: A wheel without work asks again after 1,024 cycles or an announcement. -/
  | idleRetry (wheel : Nat)
  /-- R111: An idle wheel is power-gated after the idle-gating time. -/
  | idleGate (wheel : Nat)
  /-- R39: A stopped wheel restarts after a wake. -/
  | wheelRestart (wheel : Nat)
  /-- R37: A droop detector engages a stretch of the wheel's CORE clock. -/
  | droop (wheel : Nat) (period : Nat)
  /-- R93: A crew bell watchdog expires and faults the crew. -/
  | bellTimeout (wheel : Nat) (slot : Nat) (bell : Nat)
  /-- R139: A thread fails to reach an MX within the watchdog period. -/
  | mxConvergenceTimeout (wheel : Nat) (slot : Nat)
  /-- R116: Write of ENABLE 1 brings a wheel ON or latches PENDING_ON. -/
  | whlCtlEnable (wheel : Nat)
  /-- R115: Write of ENABLE 0 starts a wheel drain. -/
  | whlCtlDisable (wheel : Nat)
  /-- R117: Write of EVICT saves resident crews of a draining wheel. -/
  | whlCtlEvict (wheel : Nat)
  /-- R115: A draining wheel with no crew becomes OFF and gated. -/
  | wheelDrainEnd (wheel : Nat)
  /-- R117: Crew context saves complete and tasks return as resumable. -/
  | evictionComplete (wheel : Nat)
  /-- R331: A write or atomic is performed at its home slice. -/
  | homeSliceWrite (wheel : Nat) (id : Nat)
  /-- R331: A read is performed at its home slice. -/
  | homeSliceRead (wheel : Nat) (id : Nat)
  /-- R342: A write acknowledgement returns and may complete a release. -/
  | writeAck (wheel : Nat) (id : Nat)
  /-- R343: A read value returns to the wheel and may fill L1. -/
  | fillReturn (wheel : Nat) (id : Nat)
  /-- R333: A combining-buffer entry leaves after 64 FABRIC cycles. -/
  | combineTimeout (wheel : Nat) (id : Nat)
  /-- R356: A signal operation is applied at the word's home slice, waking satisfied waits. -/
  | signalApply (wheel : Nat) (id : Nat)
  /-- R368: A wake reaches a waiting wheel, with acquire when requested. -/
  | wake (id : Nat)
  /-- R369: An unregistered wait rereads its word every 512 cycles. -/
  | sigwPoll (id : Nat)
  /-- R370: A SIGW with TIMEOUT ends at watchdog expiry with result 0. -/
  | sigwTimeout (id : Nat)
  /-- R380: An arrival reaches a group bell and may release the phase. -/
  | gbellArrival (id : Nat)
  /-- R383: A group bell watchdog expires and breaks the bell. -/
  | gbellTimeout (saggar : Nat) (handle : Nat)
  /-- R353: A put packet from another module is performed, applying an attached signal after its last packet. -/
  | remoteWrite (id : Nat)
  /-- R373: A bare signal from another module is applied once. -/
  | remoteSignal (id : Nat)
  /-- R376: A peer acknowledgement advances the put's arrival counter. -/
  | putAck (id : Nat)
  /-- R388: A collector drains held records to the ring and accepts new ones. -/
  | collectorCycle (c : Nat)
  /-- R390: COUNT_WORD advances after ring writes are acknowledged, then MSI-X may be sent. -/
  | collectorCountAdvance (c : Nat)
  /-- R389: A full collector rereads HEAD_WORD every 64 cycles. -/
  | collectorHeadReread (c : Nat)
  /-- R391: A record unannounced for COALESCE ticks triggers MSI-X. -/
  | collectorCoalesce (c : Nat)
  /-- R675: An unbind completes when no ring write is in flight. -/
  | collectorUnbindEnd (c : Nat)
  /-- R410: A doorbell write offers a new stream tail. -/
  | doorbellWrite (fn : Nat) (slot : Nat) (value : DWord) (wide : Bool)
  /-- R410: A doorbell read returns the stream's HEAD. -/
  | doorbellRead (fn : Nat) (slot : Nat)
  /-- R413: A stream context fetched from the table enters the cache. -/
  | contextFetchEnd (stream : Nat) (bad : Bool)
  /-- R422: An unserved interactive launch preempts bulk crews on one wheel. -/
  | interactiveWaitExpiry (launch : Nat)
  /-- R401: A draining saggar's key slot is erased and it becomes OFF or its latched creation takes effect. -/
  | saggarDrainEnd (saggar : Nat)
  /-- R405: A draining stream becomes FREE or its latched creation takes effect. -/
  | streamDrainEnd (stream : Nat)
  /-- R274: A gather's bytes reach home and its signal advances. -/
  | gatherComplete (stream : Nat) (slot : Nat) (shards : List (List Byte))
  /-- R276: A pending gather release takes effect. -/
  | gatherReleaseEffect (stream : Nat) (slot : Nat)
  /-- R282: Offloaded ranges are held in the granary and the signal advances. -/
  | offloadComplete (id : Nat)
  /-- R284: Restored ranges are home and L1 lines invalidated. -/
  | restoreComplete (id : Nat)
  /-- R305: A tier move finishes and signals. -/
  | tierMoveComplete (id : Nat)
  /-- R487: A guild command's result is home and its signal applied. -/
  | guildComplete (id : Nat)
  /-- R480: A guild unbind drain completes. -/
  | guildDrainEnd (guild : Nat)
  /-- R307: Zeroing of assigned frames completes. -/
  | frameZeroingEnd (id : Nat)
  /-- R314: An accepted unmap clears tables and caches. -/
  | unmapComplete (id : Nat)
  /-- R320: Scrubbing reads and corrects every line each 24 hours. -/
  | hbmScrub (stack : Nat) (corrected : List Nat)
  /-- R322: A per-unit error window closes and counts restart. -/
  | errorWindowEnd (kind : Nat) (index : Nat)
  /-- R323: A fenced pseudo-channel's migration to spare areas completes. -/
  | pcMigrationEnd (pc : Nat) (unreadable : List Nat)
  /-- R325: A fenced slice's homes pass to its partner. -/
  | sliceTransferEnd (slice : Nat) (unreadable : List Nat)
  /-- R304: Write of ENABLE 1 trains a granary port or latches PENDING_ON. -/
  | grnPortEnable (port : Nat)
  /-- R304: Write of ENABLE 0 drains a granary port unless frames are owned. -/
  | grnPortDisable (port : Nat)
  /-- R304: A granary port completes its drain and goes OFF. -/
  | grnPortDrainEnd (port : Nat)
  /-- R304: A granary port finishes training ON or FENCED after 100 ms. -/
  | grnPortTrainingEnd (port : Nat) (ok : Bool)
  /-- R552: An expander link goes down and may fence the expander. -/
  | cxlLinkDown (port : Nat) (retrained : Bool)
  /-- R35: Loss of the reference is detected and the PLL enters holdover. -/
  | refLoss (detected : Bool)
  /-- R35: A valid reference returns and the PLL relocks. -/
  | refReturn
  /-- R36: Reference absent over 1 ms is a root PLL failure. -/
  | holdoverExpiry
  /-- R62: A Sync message drives the servo state machine. -/
  | ptpSync (msg : SyncMsg)
  /-- R61: A two-step Follow_Up supplies the Sync origin time. -/
  | ptpFollowUp (msg : SyncMsg)
  /-- R61: A Delay_Resp completes the end-to-end delay measurement. -/
  | ptpDelayResp (msg : DelayResp)
  /-- R61: An Announce feeds the best master clock algorithm. -/
  | ptpAnnounce (msg : Announce)
  /-- R62: No valid Sync for 1 s moves the servo to HOLDOVER. -/
  | ptpSyncTimeout
  /-- R66: An active genlock edge is stamped and may capture pairing. -/
  | genlockEdge
  /-- R67: No edge within twice the mean spacing makes genlock ABSENT. -/
  | genlockTimeout
  /-- R68: A media-time seconds rollover triggers a capture when ON_SECOND is set. -/
  | mediaSecondRollover
  /-- R68: Write of CAPTURE latches GTS and media time of one tick. -/
  | timPairCapture
  /-- R70: A read of TIM_MT_NS latches seconds into TIM_MT_SEC. -/
  | timMtNsRead
  /-- R435: Write of ENABLE 1 turns a flow ON or latches PENDING_ON. -/
  | frmFlowEnable (flow : Nat)
  /-- R434: Write of ENABLE 0 drains a flow. -/
  | frmFlowDisable (flow : Nat)
  /-- R434: A draining flow becomes OFF or enables. -/
  | flowDrainEnd (flow : Nat)
  /-- R428: A flow reaches a frame edge and fixes its deadline and emission time. -/
  | frameEdge (flow : Nat)
  /-- R441: Gated reservation wheels are woken 8,000 ticks before the window. -/
  | reservationWake (res : Nat)
  /-- R441: A window opens, reserving wheels and evicting other crews. -/
  | reservationStart (res : Nat)
  /-- R444: A window ends; wheels release as deadline crews exit. -/
  | reservationEnd (res : Nat)
  /-- R444: A reservation ends early once the ready word reaches the frame. -/
  | releaseOnReady (res : Nat)
  /-- R437: At D_n the engine reads READY_WORD and chooses the frame to emit. -/
  | completionDeadline (flow : Nat)
  /-- R448: At E_n the emission of the chosen frame begins. -/
  | emissionStart (flow : Nat)
  /-- R448: A scheduled ST 2110 packet is sent. -/
  | framePacket (flow : Nat)
  /-- R448: The last packet leaves; the EMIT permit ends and FREE_WORD may be written. -/
  | emissionEnd (flow : Nat)
  /-- R457: A Spanor flit is checked, accepted or NAKed, and its packets delivered or forwarded. -/
  | flitReceive (port : Nat) (f : Flit)
  /-- R492: An ON port sends a time mark every 2^20 ticks. -/
  | linkTimeMark (port : Nat)
  /-- R458: No acknowledgement advance for 2,000 ticks resends kept flits. -/
  | replayTimeout (port : Nat)
  /-- R459: A retrain ends ON or fences the port. -/
  | retrainEnd (port : Nat) (ok : Bool)
  /-- R463: Write of ENABLE 1 requests bring-up leave and trains the port. -/
  | lnkPortEnable (port : Nat)
  /-- R464: Write of ENABLE 0 drains the port. -/
  | lnkPortDisable (port : Nat)
  /-- R463: Port training ends ON, or FENCED on timeout. -/
  | portTrainingEnd (port : Nat) (ok : Bool) (peer : Word) (flight : Word)
  /-- R464: A draining port goes OFF when empty or after 100 µs. -/
  | portDrainEnd (port : Nat)
  /-- R469: At tick T the route tables exchange roles. -/
  | routeSwapTick
  /-- R473: A guild UDP datagram is received, acknowledged and delivered in order. -/
  | ethDatagramReceive (port : Nat) (d : Datagram)
  /-- R473: An unacknowledged datagram is resent, or the connection fails after 8 sends. -/
  | ethResendTimeout (module : Nat)
  /-- R473: A connection raises its rate after 50 µs without a congestion notice. -/
  | congestionRaise (module : Nat)
  /-- R482: A collective READY or ABORT packet is received and checked. -/
  | collectiveControlReceive (id : Nat)
  /-- R485: A collective data unit is received and reduced in tree order. -/
  | collectiveDataReceive (id : Nat)
  /-- R476: A cartridge appears; pages and cone are read and recorded. -/
  | ctgInsert (ctg : Nat) (pages : CtgPages)
  /-- R476: A cartridge disappears and its port fails. -/
  | ctgRemove (ctg : Nat)
  /-- R477: Each 1 s window adds bias and thermal hours. -/
  | coneWindow (ctg : Nat) (bias : Nat) (heat : Int)
  /-- R478: The cone record is written every 3,600 s. -/
  | coneWrite (ctg : Nat)
  /-- R479: End of life is predicted once per hour. -/
  | wearPrediction (ctg : Nat)
  /-- R498: A permit request reaches the reeve and becomes pending. -/
  | leaveRequest (id : Nat)
  /-- R498: Every 8 ticks the reeve applies releases, refills buckets and grants in rank order. -/
  | grantCycle
  /-- R502: A FULL, HALF or WAIT answer reaches the requesting unit. -/
  | leaveAnswer (id : Nat)
  /-- R495: An empty array queue for LINGER cycles releases the MATRIX permit. -/
  | lingerExpiry (wheel : Nat)
  /-- R497: A permit held for TERM ticks is renewed as a new request. -/
  | permitRenewal (id : Nat)
  /-- R505: An 800-tick power window closes, setting M and starting or ending CLAMP. -/
  | powerWindow (m : Nat) (mv : Nat)
  /-- R507: A 1 ms sensor window adjusts the effective budget. -/
  | thermalWindow (t0 : Nat) (t1 : Nat) (hub : Nat) (coolant : Nat)
  /-- R507: A die reaches thermal trip and the module enters FAILED. -/
  | thermalTrip (die : Nat) (reading : Nat)
  /-- R513: The auxiliary input enters range and the module enters AUX. -/
  | auxPowerOn
  /-- R654: The auxiliary input leaves range; main rails go and the module is OFF. -/
  | auxPowerLoss
  /-- R651: Power good in AUX starts POWERING. -/
  | pwrGoodAssert
  /-- R652: Power good deasserted starts an orderly power-down. -/
  | pwrGoodDeassert
  /-- R652: Main rails are removed and the module is in AUX. -/
  | powerDownEnd
  /-- R653: 200 consecutive samples out of range enter FAILED with POWER. -/
  | mainInputFault (mv : Nat)
  /-- R657: Reset input low for 1 µs requests a module reset. -/
  | modResetAssert
  /-- R657: Reset input rising edge lets LOADING or POWERING begin. -/
  | modResetRelease (strap : Nat)
  /-- R513: Rails in regulation and PLL locked start LOADING. -/
  | poweringEnd (rails : Bool) (strap : Nat)
  /-- R522: An image is accepted and applied, or the start fails. -/
  | loadingEnd (facts : LoadFacts)
  /-- R513: Die link, HBM and CXL training ends and SELF_TEST begins. -/
  | trainingLinksEnd (failed : List (Nat × Nat))
  /-- R516: Self-test ends in READY, FENCED_HALF or FAILED and the boot log is written. -/
  | selfTestEnd (failed : List (Nat × Nat))
  /-- R514: A start-up state overruns its bound and fails with TIMEOUT. -/
  | stateTimeout
  /-- R545: An error report reaches the fence controller, which records and may start a fence or FAILED. -/
  | errorReport (e : ErrReport)
  /-- R549: A fence completes within its bound. -/
  | fenceComplete (id : Nat)
  /-- R563: Write of FEN_RECOVER requests recovery of a fenced unit. -/
  | fenRecover (value : Word)
  /-- R563: A recovery attempt ends and is recorded. -/
  | recoveryEnd (kind : Nat) (index : Nat) (ok : Bool)
  /-- R574: All members report local commit of a point. -/
  | guildCommit (saggar : Nat)
  /-- R577: Securing data is received into a buddy's journal or fragments. -/
  | securingDataReceive (id : Nat)
  /-- R584: All members report restore completion and the saggar is SECURED. -/
  | secureRestoreDone (saggar : Nat)
  /-- R588: The slot header is written, completing the snapshotting STEP. -/
  | dunobSnapshotWritten (saggar : Nat)
  /-- R600: The debug controller writes queued records to ledgers. -/
  | ledgerDrain
  /-- R607: A sampling window ends and tallies write samples. -/
  | sampleWindowEnd
  /-- R604: A tally wraps past 2^64 - 1 and sets OVF. -/
  | tallyWrap (wheel : Nat) (index : Nat) (value : DWord)
  /-- R603: A write sets a tally value, adding events of the same cycle. -/
  | tallyWrite (wheel : Nat) (index : Nat) (value : DWord)
  /-- R612: Write of ARM schedules a global stop at tick T. -/
  | dbgStopArm (byMedia : Bool)
  /-- R612: Write of CANCEL disarms a stop before T. -/
  | dbgStopCancel
  /-- R617: Write of RESUME schedules resumption at tick U. -/
  | dbgStopResume
  /-- R613: At tick T every unit stops issuing and ports write marks. -/
  | globalStopTick
  /-- R613: Begun units are performed and the module is STOPPED. -/
  | stopDrainEnd
  /-- R617: At tick U held packets are performed and units issue again. -/
  | globalResumeTick
  /-- R632: A tail write offers new mailbox requests. -/
  | mbxReqTailWrite (fn : Nat) (value : Word)
  /-- R632: The module takes a request slot and begins its command. -/
  | mbxTake (fn : Nat)
  /-- R635: Consuming completions frees room for waiting completions. -/
  | mbxCplHeadWrite (fn : Nat) (value : Word)
  /-- R637: Return identity and the wheel presence map. -/
  | identityQuery (fn : Nat) (req : Nat)
  /-- R395: Create a saggar from a descriptor. -/
  | saggarCreate (fn : Nat) (req : Nat)
  /-- R401: Start draining a saggar. -/
  | saggarDestroy (fn : Nat) (req : Nat)
  /-- R637: Return saggar status, step and seed. -/
  | saggarQuery (fn : Nat) (req : Nat)
  /-- R207: Reset the layer table and enter scale re-warm. -/
  | scaleReset (fn : Nat) (req : Nat)
  /-- R404: Create a stream with its attributes and doorbell slot. -/
  | streamCreate (fn : Nat) (req : Nat)
  /-- R405: Destroy a stream by DRAIN or ABORT. -/
  | streamDestroy (fn : Nat) (req : Nat)
  /-- R406: Clear a faulted stream and return it to ACTIVE. -/
  | streamReset (fn : Nat) (req : Nat)
  /-- R407: Return a stream context. -/
  | streamQuery (fn : Nat) (req : Nat)
  /-- R307: Give free frames to a saggar with zeroing. -/
  | assignFrames (fn : Nat) (req : Nat)
  /-- R307: Map owned frames at a device-virtual address. -/
  | map (fn : Nat) (req : Nat)
  /-- R314: Remove consecutive leaf mappings. -/
  | unmap (fn : Nat) (req : Nat)
  /-- R315: Drop lines of unmapped frames and return them to FREE. -/
  | releaseFrames (fn : Nat) (req : Nat)
  /-- R385: Bind a collector to a saggar. -/
  | collectorBind (fn : Nat) (req : Nat)
  /-- R675: Unbind a collector, discarding unwritten records. -/
  | collectorUnbind (fn : Nat) (req : Nat)
  /-- R599: Bind a saggar ledger ring. -/
  | ledgerBind (fn : Nat) (req : Nat)
  /-- R599: Unbind a saggar ledger. -/
  | ledgerUnbind (fn : Nat) (req : Nat)
  /-- R608: Return a tally value to a virtual function. -/
  | tallyRead (fn : Nat) (req : Nat)
  /-- R611: Set an assigned watchpoint for a saggar. -/
  | watchSet (fn : Nat) (req : Nat)
  /-- R480: Bind a guild with its member list. -/
  | guildBind (fn : Nat) (req : Nat)
  /-- R480: Unbind a guild, draining begun commands. -/
  | guildUnbind (fn : Nat) (req : Nat)
  /-- R466: Change the module ID while every port is OFF. -/
  | linkSetId (fn : Nat) (req : Nat)
  /-- R467: Write entries into the SHADOW route table. -/
  | routeLoad (fn : Nat) (req : Nat)
  /-- R469: Schedule a route table swap at tick T. -/
  | routeSwap (fn : Nat) (req : Nat)
  /-- R432: Bind a flow to a saggar's buffers and words. -/
  | frmFlowBind (fn : Nat) (req : Nat)
  /-- R432: Unbind an OFF flow. -/
  | frmFlowUnbind (fn : Nat) (req : Nat)
  /-- R583: Restore a saggar to a retained point with substitutions. -/
  | secureRestore (fn : Nat) (req : Nat)
  /-- R581: Declare a guild rank lost. -/
  | secureMemberDown (fn : Nat) (req : Nat)
  /-- R591: Load a Dunob snapshot slot back into memory. -/
  | snapshotLoad (fn : Nat) (req : Nat)
  /-- R517: Request a module reset from the physical function. -/
  | moduleReset (fn : Nat) (req : Nat)
  /-- R536: Blow a key slot's revoked fuse. -/
  | keyRevoke (fn : Nat) (req : Nat)
  /-- R537: Raise the fused minimum SVN to the image's SVN. -/
  | configCommitSvn (fn : Nat) (req : Nat)
  /-- R541: Erase and program 64 KiB units of an image slot. -/
  | configWrite (fn : Nat) (req : Nat)
  /-- R541: Write the directory with a preferred slot or a try. -/
  | configSelect (fn : Nat) (req : Nat)
  /-- R541: Return the directory and slot results. -/
  | configStatus (fn : Nat) (req : Nat)
  /-- R541: Return boot log entries. -/
  | configLog (fn : Nat) (req : Nat)
  /-- R627: A fundamental, hot or PF function-level reset resets the host port and mailbox. -/
  | pcieReset
  /-- R628: A virtual function reset clears its mailbox and destroys its saggars. -/
  | vfFlr (fn : Nat)
  /-- R627: Clearing VF Enable resets every virtual function. -/
  | vfEnableClear
  /-- R625: Setting Bus Master Enable or leaving D3hot releases waiting host requests. -/
  | busMasterEnable (fn : Nat)
  /-- R641: Set the module's MCTP endpoint ID. -/
  | mctpSetEndpointId (eid : Nat)
  /-- R641: Begin a firmware update carrying CONFIG_WRITE. -/
  | pldmRequestUpdate (component : Nat) (offset : Nat) (length : Nat)
  /-- R641: End a firmware component transfer. -/
  | pldmTransferComplete (ok : Bool) (bytes : List Byte)
  /-- R641: Activate firmware as a CONFIG_SELECT try. -/
  | pldmActivateFirmware
  /-- R642: Return a monitoring sensor value. -/
  | pldmGetSensorReading (sensor : Nat)
  /-- R642: Setting the effecter requests a module reset. -/
  | pldmSetStateEffecter (effecter : Nat) (state : Nat)
  /-- R643: Return repository entries including failure records. -/
  | pldmGetPdr (handle : Nat)
  /-- R641: Return order code, stepping and serial number. -/
  | pldmFruData
  /-- R539: SPDM version negotiation request. -/
  | getVersion
  /-- R539: SPDM capabilities request. -/
  | getCapabilities
  /-- R539: SPDM algorithm negotiation request. -/
  | negotiateAlgorithms
  /-- R539: SPDM certificate digests request. -/
  | getDigests
  /-- R539: SPDM certificate chain request. -/
  | getCertificate
  /-- R539: SPDM challenge authentication. -/
  | challenge
  /-- R538: SPDM signed measurements request. -/
  | getMeasurements (index : Nat)
  /-- R16: A write to a register with no behaviour of its own. -/
  | registerWrite (bar : Nat) (fn : Nat) (addr : Nat) (width64 : Bool) (value : DWord)
  /-- R41: The root PLL first locks during POWERING, GTS starts at zero and TIM_GTS_EPOCH advances. -/
  | rootPllLock
  /-- R123: A wheel issues an instruction word of unassigned class or OP, or an unassigned code, and the crew faults. -/
  | illegalInstruction (i : Issue) (cls : BitVec 6) (op : BitVec 6)
  /-- R234: A 32-beat chain segment ends and the vector engine turns to the next crew with an entry queued. -/
  | chainSegmentEnd (wheel : Nat)
  /-- R459: A port that receives no correctable flit for 100 µs starts a retrain. -/
  | noCorrectableFlitTimeout (port : Nat)
  /-- R476: A running cartridge reports a CMIS fault or stops answering, which fences its port and writes CTG_FAULT. -/
  | cmisFault (ctg : Nat) (state : Nat) (code : Nat)
  /-- R517: Erasing and programming of one 64 KiB flash unit completes, letting a deferred module reset act and a CONFIG_WRITE progress and complete. -/
  | flashUnitDone
  /-- R624: A PCIe completion returns data for a host ring, host head word or mailbox DATA_ADDR read, or fails with HOST_ACCESS. -/
  | hostReadCompletion (id : Nat) (ok : Bool) (bytes : List Byte)
  /-- R640: Unmasking an MSI-X vector in BAR_4 sends its pending message. -/
  | msixUnmask (vector : Nat)
  /-- R627: Setting VF Enable with NumVFs brings the virtual functions and their BARs and mailboxes into service. -/
  | vfEnableSet (n : Nat)
  /-- R641: The tray controller assigns the module's I3C dynamic address by ENTDAA. -/
  | entdaa (address : Nat)
  /-- R641: A PLDM base discovery request is received and answered. -/
  | pldmBaseDiscovery
  deriving DecidableEq, Repr

end Sys2Proof
end

