-- ==== Sys2Proof/Decode.lean ====
section
/-!
DEFINITION. The words of the Nelol instructions (03 R122 to R124, R103; 04 R162 to R164; 05 R214; 06 R253; 07 R288; 10 R392,
R393) and the command each spells; and the command a word spells by the table's bits. No row of spec/opcode_table.json gives
bits, so no word spells a command by them.
-/
namespace Sys2Proof

/-- The command that the word `w` of `nbits` bits spells by the table's bits: none, as no row of the table has bits. -/
def decodeTableWord (_nbits _w : Nat) : Option Instr := none

/-! ### Instruction words (03 R122) -/

/-- The instruction that CLASS and OP name; none where they are unassigned or unlisted. -/
def nelolOp (cls op : Nat) : Option (Issue → Instr) :=
  match cls, op with
  | 0x00, 0x00 => some .add | 0x00, 0x01 => some .sub | 0x00, 0x02 => some .mulLo | 0x00, 0x03 => some .mulHi
  | 0x00, 0x04 => some .mulHiu | 0x00, 0x05 => some .div | 0x00, 0x06 => some .and | 0x00, 0x07 => some .or
  | 0x00, 0x08 => some .xor | 0x00, 0x09 => some .shl | 0x00, 0x0A => some .shr | 0x00, 0x0B => some .sar
  | 0x00, 0x0C => some .min | 0x00, 0x0D => some .max | 0x00, 0x0E => some .minu | 0x00, 0x0F => some .maxu
  | 0x00, 0x10 => some .popc | 0x00, 0x11 => some .clz | 0x00, 0x12 => some .mov | 0x00, 0x13 => some .sel
  | 0x01, 0x00 => some .addi | 0x01, 0x01 => some .andi | 0x01, 0x02 => some .ori | 0x01, 0x03 => some .xori
  | 0x01, 0x04 => some .shli | 0x01, 0x05 => some .shri | 0x01, 0x06 => some .movi | 0x01, 0x07 => some .movhi
  | 0x02, 0x00 => some .fadd | 0x02, 0x01 => some .fsub | 0x02, 0x02 => some .fmul | 0x02, 0x03 => some .fmin
  | 0x02, 0x04 => some .fmax | 0x02, 0x05 => some .ffma | 0x02, 0x06 => some .frcp | 0x02, 0x07 => some .frsq
  | 0x02, 0x08 => some .fsqrt | 0x02, 0x09 => some .fexp2
  | 0x03, 0x00 => some .dadd | 0x03, 0x01 => some .dmul | 0x03, 0x02 => some .dfma | 0x03, 0x03 => some .dmov
  | 0x04, 0x00 => some .isetp | 0x04, 0x01 => some .fsetp | 0x04, 0x02 => some .plop
  | 0x05, 0x00 => some .bra | 0x05, 0x01 => some .brx | 0x05, 0x02 => some .call | 0x05, 0x03 => some .ret
  | 0x05, 0x04 => some .jpush | 0x05, 0x05 => some .join | 0x05, 0x06 => some .yield | 0x05, 0x07 => some .exit
  | 0x05, 0x08 => some .nop
  | 0x06, 0x00 => some .ld | 0x06, 0x01 => some .st
  | 0x07, 0x00 => some .atomAdd | 0x07, 0x01 => some .atomFadd | 0x07, 0x02 => some .atomMin | 0x07, 0x03 => some .atomMax
  | 0x07, 0x04 => some .atomAnd | 0x07, 0x05 => some .atomOr | 0x07, 0x06 => some .atomExch | 0x07, 0x07 => some .atomCas
  | 0x08, 0x00 => some .cvt
  | 0x09, 0x00 => some .tmrd | 0x09, 0x01 => some .sreg | 0x09, 0x02 => some .fence
  | 0x10, 0x00 => some .mx | 0x10, 0x01 => some .mxh | 0x10, 0x02 => some .mv
  | 0x11, 0x00 => some .tld | 0x11, 0x01 => some .tst | 0x11, 0x02 => some .tzero
  | 0x12, 0x00 => some .accWin | 0x12, 0x01 => some .accZero | 0x12, 0x02 => some .accRd | 0x12, 0x03 => some .accWr
  | 0x12, 0x04 => some .accRed
  | 0x18, 0x00 => some .vsetvl | 0x18, 0x01 => some .vgetvl
  | 0x19, 0x00 => some .vchain
  | 0x1A, 0x00 => some .vred
  | 0x1C, 0x00 => some .trav
  | 0x20, 0x00 => some .acopy1d | 0x20, 0x01 => some .acopy2d | 0x20, 0x02 => some .acwait | 0x20, 0x03 => some .acread
  | 0x20, 0x04 => some .grecv | 0x20, 0x05 => some .ptab
  | 0x21, 0x00 => some .sig | 0x21, 0x01 => some .sigw | 0x21, 0x02 => some .sigR | 0x21, 0x03 => some .rput
  | 0x21, 0x04 => some .collect
  | 0x22, 0x00 => some .bellC | 0x22, 0x10 => some .bellGjoin | 0x22, 0x11 => some .bellGleave | 0x22, 0x12 => some .bellGarrive
  | 0x22, 0x13 => some .bellGsignal | 0x22, 0x14 => some .bellGwait | 0x22, 0x15 => some .bellGreset
  | 0x24, 0x00 => some .opt
  | 0x25, 0x00 => some .gacc
  | 0x26, 0x00 => some .lstat | 0x26, 0x01 => some .uscaleSet
  | _, _ => none

/-- CLASS, bits [63:58] of a word, and OP, bits [57:52]. -/
def wordClass (w : BitVec 64) : BitVec 6 := w.extractLsb' 58 6
def wordOp (w : BitVec 64) : BitVec 6 := w.extractLsb' 52 6

/-- The fields of a word that a path of a crew issues. -/
def wordFields (wheel slot path : Nat) (w : BitVec 64) : Issue :=
  { wheel, slot, path, pg := w.extractLsb' 49 3, pn := w.getLsbD 48, da := w.extractLsb' 40 8, sa := w.extractLsb' 32 8
    sb := w.extractLsb' 24 8, x := w.extractLsb' 0 24 }

/-- The command by which a path of a crew issues the word `w`; none where its CLASS or OP is unassigned, which ILLEGAL_INSTRUCTION issues. -/
def wordCommand (wheel slot path : Nat) (w : BitVec 64) : Option Instr :=
  (nelolOp (wordClass w).toNat (wordOp w).toNat).map fun f => f (wordFields wheel slot path w)

/-- The word of an instruction: CLASS, OP, guard, registers and X, from bit 63 down. -/
def instrWord (cls op : BitVec 6) (i : Issue) : BitVec 64 :=
  cls ++ op ++ i.pg ++ (if i.pn then 1#1 else 0#1) ++ i.da ++ i.sa ++ i.sb ++ i.x

end Sys2Proof
end

