-- ==== Sys2Proof/Config.lean ====
section
/-!
DEFINITION. What the spec leaves open. Every constant here is opaque: no proof can see a value of it.
-/
namespace Sys2Proof.Config

/-- Free value number `n`: an unstated value the hardware supplies (log entry 3). -/
opaque freeWord (n : Nat) : BitVec 256

/-- Which of the results within the bound a transcendental operation returns: a fixed function of the operation and
its input (05 R173, 06 R228, 07 R287). The result selects among the candidates by its remainder. -/
opaque approxPick (op : Nat) (input : Nat) : Nat

/-- The hash that spreads FIXED routes over ports (13 R467). -/
opaque routeHash (src dst vc : Nat) : Nat

/-- The hash that spreads Ethernet guild traffic over ports (13 R473). -/
opaque ethHash (src dst conn : Nat) : Nat

/-- Data flits of a hop class that the peer of a Spanor port can hold when training ends (13 R455, R468). -/
opaque linkCredits (port hop : Nat) : Nat

/-- How far the box test of the traversal unit widens the interval of child `slot` of the node at `addr`, in units of
2^-24 of the distances (06 R245). -/
opaque boxSlack (addr slot : Nat) : Nat

/-- Another module of a guild has a granary (17 R576: the member list does not say). -/
opaque hasGranary (module : Nat) : Bool

/-- The 16-bit check of a guild command's parameters (13 R482). -/
opaque guildCheck (op fmt outFmt elements comp kcode : Nat) : Nat

/-- Which of the node places of a reserve the module gives a table node of a saggar (08 R311). -/
opaque tableNode (saggar level idx : Nat) : Nat

/-- Measurement 1 (15 R538): the digest of the root of trust's ROM, fixed at manufacture. -/
opaque romDigest : BitVec 384

end Sys2Proof.Config
end

