-- ==== Sys2Proof/Machine/Tab.lean ====
section
/-!
DEFINITION. Operations on sparse tables (the canonical form: keys strictly rising, no entry equal to the default).
-/
namespace Sys2Proof.Tab

variable {α β : Type}

/-- The entry at `k`, if the table lists one. -/
def find : Tab α → Nat → Option α
  | [], _ => none
  | (j, a) :: t, k => if j = k then some a else find t k

/-- The entry at `k`, or the default. -/
def get (d : α) (t : Tab α) (k : Nat) : α := (Tab.find t k).getD d

/-- Insert or replace the entry at `k`. -/
def ins : Tab α → Nat → α → Tab α
  | [], k, a => [(k, a)]
  | (j, b) :: t, k, a =>
    if k < j then (k, a) :: (j, b) :: t
    else if k = j then (k, a) :: t
    else (j, b) :: ins t k a

/-- Remove what is listed at `k`. -/
def del : Tab α → Nat → Tab α
  | [], _ => []
  | (j, b) :: t, k => if j = k then del t k else (j, b) :: del t k

/-- Write `a` at `k`: the entry goes away when `a` is the default. -/
def put [DecidableEq α] (d : α) (t : Tab α) (k : Nat) (a : α) : Tab α :=
  if a = d then Tab.del t k else Tab.ins t k a

/-- Change the entry at `k` by `f`. -/
def upd [DecidableEq α] (d : α) (t : Tab α) (k : Nat) (f : α → α) : Tab α :=
  Tab.put d t k (f (Tab.get d t k))

/-- Change the entry at `k` by `f` if the table lists one. -/
def modify : Tab α → Nat → (α → α) → Tab α
  | [], _, _ => []
  | (j, b) :: t, k, f => if j = k then (j, f b) :: t else (j, b) :: modify t k f

/-- The table holds an entry at `k`. -/
def has (t : Tab α) (k : Nat) : Bool := (Tab.find t k).isSome

/-- The keys, lowest first. -/
def keys (t : Tab α) : List Nat := t.map Prod.fst

/-- The values, lowest key first. -/
def vals (t : Tab α) : List α := t.map Prod.snd

/-- Change every listed value. -/
def mapv (t : Tab α) (f : Nat → α → β) : Tab β := t.map fun p => (p.1, f p.1 p.2)

/-- Keep the entries that satisfy `p`. -/
def keep (t : Tab α) (p : Nat → α → Bool) : Tab α := t.filter fun e => p e.1 e.2

/-- Keys strictly rise from a bound on, and no entry equals the default: the canonical form. -/
def canon [DecidableEq α] (d : α) : Option Nat → Tab α → Bool
  | _, [] => true
  | lo, (k, a) :: t => (lo.all fun l => decide (l < k)) && decide (a ≠ d) && canon d (some k) t

/-- The lowest natural number at or above `k` that is no key of the (rising) table. -/
def lowestFree : Tab α → Nat → Nat
  | [], k => k
  | (j, _) :: t, k => if j < k then lowestFree t k else if j = k then lowestFree t (k + 1) else k

end Sys2Proof.Tab
end

