-- ==== Sys2Proof/Machine/Float.lean ====
section
/-!
DEFINITION. Floating-point formats and exact arithmetic with one rounding (05 R168 to R185).

Values are exact: a sign, a magnitude m and an exponent e, for ± m × 2^e. Every operation computes exactly and rounds
once at the end.
-/
namespace Sys2Proof.Machine

/-- An exact value of any of the floating-point formats. -/
inductive FV where
  | nan
  | inf (neg : Bool)
  | fin (neg : Bool) (m : Nat) (e : Int)
  deriving DecidableEq, Repr

/-- A floating-point format (05 R168): exponent and trailing significand widths and the bias; `ieee` formats have Inf
and NaN at the highest exponent, FP8 E4M3 one NaN code, FP4 neither. -/
structure Fmt where
  eb : Nat
  mb : Nat
  bias : Nat
  ieee : Bool := true
  hasNan : Bool := true
  deriving DecidableEq, Repr

def fp4 : Fmt := { eb := 2, mb := 1, bias := 1, ieee := false, hasNan := false }
def fp8e4m3 : Fmt := { eb := 4, mb := 3, bias := 7, ieee := false }
def fp8e5m2 : Fmt := { eb := 5, mb := 2, bias := 15 }
def bf16 : Fmt := { eb := 8, mb := 7, bias := 127 }
def fp16 : Fmt := { eb := 5, mb := 10, bias := 15 }
def fp32 : Fmt := { eb := 8, mb := 23, bias := 127 }
def fp64 : Fmt := { eb := 11, mb := 52, bias := 1023 }

/-- The floating-point format of a code of 05 R171. -/
def fmtOf : Nat → Option Fmt
  | 0 => some fp4 | 1 => some fp8e4m3 | 2 => some fp8e5m2 | 4 => some bf16 | 5 => some fp16 | 6 => some fp32
  | 8 => some fp64 | _ => none

/-- Bits of a format. -/
def Fmt.width (f : Fmt) : Nat := 1 + f.eb + f.mb

/-- The exponent of the subnormal spacing. -/
def Fmt.emin (f : Fmt) : Int := 1 - (f.bias : Int) - f.mb

/-- Highest exponent field of a finite value, and the largest significand at it (05 R168). -/
def Fmt.top (f : Fmt) : Nat × Nat :=
  if f.ieee then (2 ^ f.eb - 2, 2 ^ (f.mb + 1) - 1)
  else if f.hasNan then (2 ^ f.eb - 1, 2 ^ (f.mb + 1) - 2)
  else (2 ^ f.eb - 1, 2 ^ (f.mb + 1) - 1)

/-- Canonical NaN (05 R176). -/
def Fmt.canonNan (f : Fmt) : Nat :=
  if f.ieee then (2 ^ f.eb - 1) * 2 ^ f.mb + 2 ^ (f.mb - 1) else if f.hasNan then 2 ^ (f.eb + f.mb) - 1 else 0

/-- Sign bit, exponent field and trailing significand of a code. -/
def Fmt.split (f : Fmt) (b : Nat) : Bool × Nat × Nat :=
  (b / 2 ^ (f.eb + f.mb) % 2 == 1, b / 2 ^ f.mb % 2 ^ f.eb, b % 2 ^ f.mb)

/-- The value of a code. -/
def Fmt.decode (f : Fmt) (b : Nat) : FV :=
  let (s, e, m) := f.split b
  if f.ieee && e == 2 ^ f.eb - 1 then (if m = 0 then .inf s else .nan)
  else if !f.ieee && f.hasNan && e == 2 ^ f.eb - 1 && m == 2 ^ f.mb - 1 then .nan
  else if e = 0 then .fin s m f.emin
  else .fin s (m + 2 ^ f.mb) ((e : Int) - f.bias - f.mb)

/-- Length in bits. -/
def bitLen (m : Nat) : Nat := if m = 0 then 0 else Nat.log2 m + 1

/-- m × 2^k rounded toward zero. -/
def scaleNat (m : Nat) (k : Int) : Nat := if 0 ≤ k then m * 2 ^ k.toNat else m / 2 ^ (-k).toNat

/-- The rounding of a magnitude m × 2^e with a sticky bit (05 R182) to the format's precision with unbounded exponent:
the significand and its exponent. Modes are those of 05 R172. -/
def Fmt.roundMag (f : Fmt) (mode : Nat) (neg : Bool) (m : Nat) (e : Int) (sticky : Bool := false) : Nat × Int :=
  if m = 0 then (0, f.emin) else
  let q := max (e + bitLen m - 1 - f.mb) f.emin
  let sh := q - e
  if sh ≤ 0 then
    let n := m * 2 ^ (-sh).toNat
    let up := sticky && ((mode == 2 && neg) || (mode == 3 && !neg))
    (if up then n + 1 else n, q)
  else
    let d := 2 ^ sh.toNat
    let n := m / d
    let r := m % d
    let up := match mode with
      | 0 => decide (d < 2 * r) || (decide (d = 2 * r) && (sticky || n % 2 == 1))
      | 1 => false
      | 2 => neg && (decide (0 < r) || sticky)
      | 3 => !neg && (decide (0 < r) || sticky)
      | _ => decide (d ≤ 2 * r)
    (if up then n + 1 else n, q)

/-- A magnitude n × 2^q lies above the largest finite. -/
def Fmt.above (f : Fmt) (n : Nat) (q : Int) : Bool :=
  let (te, tn) := f.top
  decide (scaleNat tn ((te : Int) - f.bias - f.mb - f.emin) < scaleNat n (q - f.emin))

/-- The code of sign and magnitude n × 2^q, within range and on the format's grid. -/
def Fmt.encode (f : Fmt) (neg : Bool) (n : Nat) (q : Int) : Nat :=
  let s := if neg then 2 ^ (f.eb + f.mb) else 0
  let (n, q) := if n = 2 ^ (f.mb + 1) then (n / 2, q + 1) else (n, q)
  if n < 2 ^ f.mb then s + n else s + ((q + f.mb + f.bias).toNat) * 2 ^ f.mb + (n - 2 ^ f.mb)

/-- The code of the largest finite. -/
def Fmt.maxCode (f : Fmt) (neg : Bool) : Nat :=
  let (te, tn) := f.top
  f.encode neg tn ((te : Int) - f.bias - f.mb)

/-- The code of Inf; NaN in FP8 E4M3 and the largest finite in FP4 stand for it (05 R178). -/
def Fmt.infCode (f : Fmt) (neg : Bool) : Nat :=
  let s := if neg then 2 ^ (f.eb + f.mb) else 0
  if f.ieee then s + (2 ^ f.eb - 1) * 2 ^ f.mb else if f.hasNan then s + f.canonNan else f.maxCode neg

/-- What a rounding gave. -/
structure Packed where
  code : Nat
  /-- The value was finite and the result is Inf or NaN (05 R180). -/
  beyond : Bool := false
  /-- The value was out of range and saturated under SAT. -/
  saturated : Bool := false
  deriving DecidableEq, Repr

/-- Round a value once to a format (05 R173, R178). -/
def Fmt.pack (f : Fmt) (mode : Nat) (sat : Bool) (v : FV) (sticky : Bool := false) : Packed :=
  match v with
  | .nan => { code := f.canonNan }
  | .inf neg =>
    if !f.hasNan || sat then { code := f.maxCode neg, saturated := sat } else { code := f.infCode neg }
  | .fin neg m e =>
    let (n, q) := f.roundMag mode neg m e sticky
    if f.above n q then
      if mode == 1 || (mode == 2 && !neg) || (mode == 3 && neg) then { code := f.maxCode neg }
      else if sat then { code := f.maxCode neg, saturated := true }
      else if !f.hasNan then { code := f.maxCode neg }
      else { code := f.infCode neg, beyond := true }
    else { code := f.encode neg n q }

/-- The code of a value rounded by RNE. -/
def Fmt.rne (f : Fmt) (v : FV) : Nat := (f.pack 0 false v).code

/-! ### Exact arithmetic -/

def FV.neg : FV → FV
  | .nan => .nan
  | .inf s => .inf (!s)
  | .fin s m e => .fin (!s) m e

def FV.abs : FV → FV
  | .nan => .nan
  | .inf _ => .inf false
  | .fin _ m e => .fin false m e

def FV.isNan : FV → Bool
  | .nan => true
  | _ => false

def FV.finite : FV → Bool
  | .fin .. => true
  | _ => false

def FV.isZero : FV → Bool
  | .fin _ 0 _ => true
  | _ => false

def FV.sign : FV → Bool
  | .nan => false
  | .inf s => s
  | .fin s _ _ => s

/-- The signed integer of a finite value in units of 2^q, q at most its exponent. -/
def FV.units (neg : Bool) (m : Nat) (e q : Int) : Int :=
  let n : Int := (m * 2 ^ (e - q).toNat : Nat)
  if neg then -n else n

/-- Exact sum; an exact zero is +0 unless both addends are -0, or -0 under round toward -Inf with opposite signs
(05 R175). -/
def FV.add (x y : FV) (down : Bool := false) : FV :=
  match x, y with
  | .nan, _ => .nan
  | _, .nan => .nan
  | .inf a, .inf b => if a = b then .inf a else .nan
  | .inf a, _ => .inf a
  | _, .inf b => .inf b
  | .fin a m e, .fin b n f =>
    let q := min e f
    let t := FV.units a m e q + FV.units b n f q
    if t = 0 then .fin (if a = b then a else down) 0 q else .fin (decide (t < 0)) t.natAbs q

def FV.sub (x y : FV) : FV := x.add y.neg

/-- Exact product; the sign is the exclusive-or (05 R175); Inf × 0 is NaN. -/
def FV.mul (x y : FV) : FV :=
  match x, y with
  | .nan, _ => .nan
  | _, .nan => .nan
  | .inf a, .inf b => .inf (a != b)
  | .inf a, .fin b n _ => if n = 0 then .nan else .inf (a != b)
  | .fin a m _, .inf b => if m = 0 then .nan else .inf (a != b)
  | .fin a m e, .fin b n f => .fin (a != b) (m * n) (e + f)

/-- x × y + z, exact. -/
def FV.fma (x y z : FV) : FV := (x.mul y).add z

/-- Strict order of two values, -0 equal to +0; false when either is NaN. -/
def FV.lt (x y : FV) : Bool :=
  match x, y with
  | .nan, _ => false
  | _, .nan => false
  | .inf a, .inf b => a && !b
  | .inf a, _ => a
  | _, .inf b => !b
  | .fin a m e, .fin b n f =>
    let q := min e f
    decide (FV.units a m e q < FV.units b n f q)

/-- Equality of values, -0 equal to +0; false when either is NaN. -/
def FV.eq (x y : FV) : Bool := !x.isNan && !y.isNan && !x.lt y && !y.lt x

/-- Order with -0 below +0 (03 R668, 06 R240). -/
def FV.below (x y : FV) : Bool := x.lt y || (x.isZero && y.isZero && x.sign && !y.sign)

/-- The quotient of two finite magnitudes to `p` significant bits, and whether bits were dropped. -/
def quotBits (m n p : Nat) : Nat × Int × Bool :=
  let k := p + bitLen n
  (m * 2 ^ k / n, -(k : Int), m * 2 ^ k % n != 0)

/-- x / y rounded once to a format by RNE. -/
def Fmt.div (f : Fmt) (x y : FV) : Nat :=
  match x, y with
  | .nan, _ => f.canonNan
  | _, .nan => f.canonNan
  | .inf _, .inf _ => f.canonNan
  | .inf a, .fin b _ _ => f.infCode (a != b)
  | .fin a _ _, .inf b => f.encode (a != b) 0 f.emin
  | .fin a m e, .fin b n g =>
    if n = 0 then (if m = 0 then f.canonNan else f.infCode (a != b))
    else
      let (q, k, st) := quotBits m n (f.mb + 4)
      (f.pack 0 false (.fin (a != b) (2 * q + (if st then 1 else 0)) (k + e - g - 1))).code

/-- Integer square root, digit by digit: `fuel` digits of base 4. -/
def isqrtAux : Nat → Nat → Nat → Nat
  | 0, _, r => r
  | fuel + 1, n, r =>
    let c := r + 2 ^ fuel
    if c * c ≤ n then isqrtAux fuel n c else isqrtAux fuel n r

def isqrt (n : Nat) : Nat := isqrtAux (bitLen n / 2 + 1) n 0

/-- √x rounded once by RNE (05 R173); below zero NaN (06 R229), -0 stays. -/
def Fmt.sqrt (f : Fmt) (x : FV) : Nat :=
  match x with
  | .nan => f.canonNan
  | .inf s => if s then f.canonNan else f.infCode false
  | .fin s m e =>
    if m = 0 then f.encode s 0 f.emin
    else if s then f.canonNan
    else
      let k := 2 * (f.mb + 4) + (if e % 2 = 0 then 0 else 1)
      let n := m * 2 ^ k
      let r := isqrt n
      (f.pack 0 false (.fin false (2 * r + (if r * r = n then 0 else 1)) ((e - k) / 2 - 1))).code

/-! ### FP32 operations (05 R173) -/

def f32 (w : Word) : FV := fp32.decode w.toNat
def toF32 (v : FV) : Word := BitVec.ofNat 32 (fp32.rne v)
def fadd (a b : Word) : Word := toF32 ((f32 a).add (f32 b))
def fsub (a b : Word) : Word := toF32 ((f32 a).sub (f32 b))
def fmul (a b : Word) : Word := toF32 ((f32 a).mul (f32 b))
def ffma (a b c : Word) : Word := toF32 (FV.fma (f32 a) (f32 b) (f32 c))
def fdiv (a b : Word) : Word := BitVec.ofNat 32 (fp32.div (f32 a) (f32 b))
def fsqrt (a : Word) : Word := BitVec.ofNat 32 (fp32.sqrt (f32 a))
def canon32 : Word := 0x7FC00000

/-- 03 R668. -/
def fmin (a b : Word) : Word :=
  if (f32 a).isNan || (f32 b).isNan then canon32 else if (f32 b).below (f32 a) then b else a
def fmax (a b : Word) : Word :=
  if (f32 a).isNan || (f32 b).isNan then canon32 else if (f32 a).below (f32 b) then b else a

def f64 (w : DWord) : FV := fp64.decode w.toNat
def toF64 (v : FV) : DWord := BitVec.ofNat 64 (fp64.rne v)
def dadd (a b : DWord) : DWord := toF64 ((f64 a).add (f64 b))
def dmul (a b : DWord) : DWord := toF64 ((f64 a).mul (f64 b))
def dfma (a b c : DWord) : DWord := toF64 (FV.fma (f64 a) (f64 b) (f64 c))

/-! ### Conversion (05 R171 to R179) -/

/-- Round a finite value to an integer by a mode (05 R172). -/
def roundInt (mode : Nat) (neg : Bool) (m : Nat) (e : Int) : Int :=
  let n : Nat :=
    if 0 ≤ e then m * 2 ^ e.toNat
    else
      let d := 2 ^ (-e).toNat
      let q := m / d
      let r := m % d
      let up := match mode with
        | 0 => decide (d < 2 * r) || (decide (d = 2 * r) && q % 2 == 1)
        | 1 => false
        | 2 => neg && decide (0 < r)
        | 3 => !neg && decide (0 < r)
        | _ => decide (d ≤ 2 * r)
      if up then q + 1 else q
  if neg then -(n : Int) else n

/-- Clamp an integer. -/
def clampInt (lo hi v : Int) : Int := if v < lo then lo else if hi < v then hi else v

/-- Convert to an integer range with saturation; NaN gives zero (05 R179). -/
def toInt (mode : Nat) (lo hi : Int) : FV → Int
  | .nan => 0
  | .inf s => if s then lo else hi
  | .fin s m e => clampInt lo hi (roundInt mode s m e)

/-- A NaN moved between floating-point formats keeps its sign and the high bits of its payload, quiet (05 R177). -/
def moveNan (src dst : Fmt) (b : Nat) : Nat :=
  let (s, _, m) := src.split b
  let sg := if s then 2 ^ (dst.eb + dst.mb) else 0
  if !dst.hasNan then 0
  else if !dst.ieee then sg + dst.canonNan
  else if dst.mb = 2 then sg + 31 * 4 + 2
  else
    let p := if src.mb ≤ dst.mb then m * 2 ^ (dst.mb - src.mb) else m / 2 ^ (src.mb - dst.mb)
    sg + (2 ^ dst.eb - 1) * 2 ^ dst.mb + (p ||| 2 ^ (dst.mb - 1))

/-- An E8M0 code of a value (05 R178): the exponent of the magnitude as the mode rounds it. Which power of two a tie takes, and that the
directed modes see the magnitude alone, is not stated (log entry 85). -/
def toE8m0 (mode : Nat) (sat : Bool) : FV → Packed
  | .nan => { code := 0xFF }
  | .inf _ => { code := if sat then 0xFE else 0xFF, saturated := sat }
  | .fin _ m e =>
    if m = 0 then { code := 0 } else
    let lead := e + bitLen m - 1
    let rest := m - 2 ^ (bitLen m - 1)
    let half := 2 ^ (bitLen m - 1)
    let up := match mode with
      | 0 => decide (half < 2 * rest) || (decide (half = 2 * rest) && (lead + 127) % 2 != 0)
      | 3 => decide (0 < rest)
      | 4 => decide (half ≤ 2 * rest)
      | _ => false
    let x := if up then lead + 1 else lead
    if x < -127 then { code := 0 }
    else if 127 < x then
      if mode = 1 ∨ mode = 2 then { code := 0xFE } else { code := if sat then 0xFE else 0xFF, beyond := !sat, saturated := sat }
    else { code := (x + 127).toNat }

/-- The exact value of a source code: format codes of 05 R171. -/
def srcValue (code : Nat) (b : Nat) : FV :=
  match code with
  | 3 => let v := (BitVec.ofNat 8 b).toInt
         .fin (decide (v < 0)) v.natAbs 0
  | 9 => let v := (BitVec.ofNat 32 b).toInt
         .fin (decide (v < 0)) v.natAbs 0
  | 10 => .fin false (b % 2 ^ 32) 0
  | 11 => if b % 256 = 0xFF then .nan else .fin false 1 ((b % 256 : Nat) - 127)
  | c => match fmtOf c with
    | some f => f.decode b
    | none => .nan

/-- CVT (05 R171 to R179): the destination code. -/
def convert (dst src mode : Nat) (sat : Bool) (b : Nat) : Packed :=
  let v := srcValue src b
  match dst with
  | 3 => { code := (BitVec.ofInt 8 (toInt mode (-128) 127 v)).toNat }
  | 9 => { code := (BitVec.ofInt 32 (toInt mode (-2 ^ 31) (2 ^ 31 - 1) v)).toNat }
  | 10 => { code := (BitVec.ofInt 32 (toInt mode 0 (2 ^ 32 - 1) v)).toNat }
  | 11 => toE8m0 mode sat v
  | d => match fmtOf d with
    | none => { code := 0 }
    | some f =>
      match v, fmtOf src with
      | .nan, some g => { code := moveNan g f b }
      | _, _ => f.pack mode sat v

/-- A code of 05 R171. -/
def isFormat (c : Nat) : Bool := c ≤ 6 || (8 ≤ c && c ≤ 11)

/-- A conversion narrows (05 R204): both floating-point, and the destination has fewer significand bits or a smaller
exponent range. -/
def narrows (dst src : Nat) : Bool :=
  match fmtOf dst, fmtOf src with
  | some d, some f => decide (d.mb < f.mb) || decide (d.eb < f.eb)
  | _, _ => false

/-! ### Stochastic rounding and generators (05 R185, R186) -/

/-- Round a finite magnitude stochastically with a 16-bit draw (05 R185). -/
def Fmt.stochastic (f : Fmt) (neg : Bool) (m : Nat) (e : Int) (sticky : Bool) (q16 : Nat) : Packed :=
  if m = 0 then { code := f.encode neg 0 f.emin } else
  let q := max (e + bitLen m - 1 - f.mb) f.emin
  let sh := q - e
  let n := scaleNat m (-sh)
  let rest := if 0 < sh then m % 2 ^ sh.toNat else 0
  let d16 := if 0 < sh then scaleNat rest (16 - sh) else 0
  let low := sticky
  let d16 := if low && d16 % 2 == 0 then d16 + 1 else d16
  let n := if 2 ^ 16 ≤ d16 + q16 then n + 1 else n
  if f.above n q then { code := f.infCode neg, beyond := true } else { code := f.encode neg n q }

/-- The seed finaliser (05 R186). -/
def mix (z : DWord) : DWord :=
  let z := (z ^^^ (z >>> 30)) * 0xBF58476D1CE4E5B9
  let z := (z ^^^ (z >>> 27)) * 0x94D049BB133111EB
  z ^^^ (z >>> 31)

/-- The seed of a lane generator (05 R186). -/
def laneSeed (seed : DWord) (stream wheel ordinal lane : Nat) : DWord :=
  let s := mix (seed ^^^ (BitVec.ofNat 64 stream <<< 40) ^^^ (BitVec.ofNat 64 wheel <<< 32) ^^^
    (BitVec.ofNat 64 (ordinal % 2 ^ 27) <<< 5) ^^^ BitVec.ofNat 64 lane)
  if s = 0 then 1 else s

/-- One draw: the 16-bit value and the generator's next state (05 R186). -/
def draw (s : DWord) : Nat × DWord :=
  let s := s ^^^ (s <<< 13)
  let s := s ^^^ (s >>> 7)
  let s := s ^^^ (s <<< 17)
  (((s * 0x2545F4914F6CDD1D) >>> 48).toNat, s)

/-- An FP32 addition of finite operands whose result is not finite (05 R180). -/
def addBeyond (a b r : Word) : Bool := (f32 a).finite && (f32 b).finite && !(f32 r).finite

end Sys2Proof.Machine
end

