-- ==== Sys2Proof/Machine/ArrayMath.lean ====
section
/-!
DEFINITION. The arithmetic of the arrays and the matrix-vector path (04 R130 to R135, R156; 05 R181 to R187, R211, R212).
-/
namespace Sys2Proof.Machine

/-- Reduction depth K of an MX format code (04 R130). -/
def kDepth : Nat → Nat
  | 0 => 128 | 1 => 64 | 2 => 64 | 3 => 64 | 4 => 32 | 5 => 32 | 6 => 8 | _ => 0

/-- The code of element (r, k) of a tile whose byte `b` is `get b` (04 R133, R134). -/
def tileElem (fmt : Nat) (trans : Bool) (get : Nat → Byte) (r k : Nat) : Nat :=
  let e := if trans then k * 16 + r else r * kDepth fmt + k
  match fmt with
  | 0 => bits (get (e / 2)).toNat (if e % 2 = 0 then 0 else 4) 4
  | 1 => (get e).toNat
  | 2 => (get e).toNat
  | 3 => (get e).toNat
  | 6 => (get (4 * e)).toNat + 256 * (get (4 * e + 1)).toNat + 65536 * (get (4 * e + 2)).toNat + 16777216 * (get (4 * e + 3)).toNat
  | _ => (get (2 * e)).toNat + 256 * (get (2 * e + 1)).toNat
where
  bits (v lo n : Nat) : Nat := v / 2 ^ lo % 2 ^ n

/-- Value of an operand element: a code, times the E8M0 scale for FP4 (04 R135; a NaN scale makes it NaN). -/
def elemValue (fmt : Nat) (code : Nat) (scale : Nat) : FV :=
  if fmt = 0 then (fp4.decode code).mul (srcValue 11 scale) else srcValue fmt code

/-- A partial sum with the sticky bit of 05 R181. -/
structure Part where
  v : FV
  sticky : Bool := false
  deriving DecidableEq, Repr

/-- Truncate a finite magnitude toward zero to a multiple of 2^q. -/
def truncTo (m : Nat) (e q : Int) : Nat × Int × Bool :=
  if q ≤ e then (m, e, false) else let d := 2 ^ (q - e).toNat; (m / d, q, m % d != 0)

/-- node(x, y) of 05 R181. -/
def node (x y : Part) : Part :=
  match x.v, y.v with
  | .fin a m e, .fin b n f =>
    if m = 0 && n = 0 then { v := (FV.fin a m e).add (.fin b n f), sticky := x.sticky || y.sticky }
    else
      let lm := e + bitLen m - 1
      let ln := f + bitLen n - 1
      let lead := if m = 0 then ln else if n = 0 then lm else max lm ln
      let (m', e', s1) := truncTo m e (lead - 49)
      let (n', f', s2) := truncTo n f (lead - 49)
      { v := (FV.fin a m' e').add (.fin b n' f'), sticky := x.sticky || y.sticky || s1 || s2 }
  | u, w => { v := u.add w }

/-- Combine a list pair by pair; an odd last passes up. -/
def pairUp {α : Type} (f : α → α → α) : List α → List α
  | a :: b :: l => f a b :: pairUp f l
  | l => l

/-- The pairwise tree, level by level; `fuel` bounds the levels. -/
def tree {α : Type} (f : α → α → α) (d : α) : Nat → List α → α
  | 0, l => l.headD d
  | fuel + 1, l =>
    match l with
    | [] => d
    | [a] => a
    | l => tree f d fuel (pairUp f l)

/-- The sum of one cell (05 R181): products, and the accumulator word when there is one. -/
def cellSum (ps : List FV) (acc : Option FV) : Part :=
  let r := tree node { v := .fin false 0 0 } 8 (ps.map fun p => { v := p })
  match acc with
  | some a => node r { v := a }
  | none => r

/-- round_fp32 (05 R182, R183): RNE, a sticky tie away from zero; canonical NaN. -/
def roundCell (p : Part) : Word := BitVec.ofNat 32 ((fp32.pack 0 false p.v p.sticky).code)

/-- Stochastic rounding of a sum to FP32 with a draw (05 R185, R187). -/
def roundCellStoch (p : Part) (q : Nat) : Word :=
  match p.v with
  | .fin neg m e => BitVec.ofNat 32 (fp32.stochastic neg m e p.sticky q).code
  | v => BitVec.ofNat 32 (fp32.pack 0 false v).code

/-- A subnormal FP32 or narrower value read as zero of its sign (05 R212). -/
def daz (f : Fmt) (v : FV) : FV :=
  match v with
  | .fin s m e => if m < 2 ^ f.mb && e == f.emin then .fin s 0 e else .fin s m e
  | v => v

/-- Dunob rounding (05 R211, R212): RNE, subnormal results to zero of their sign, NaN all ones. -/
def rneDunob (f : Fmt) (v : FV) : Nat :=
  match v with
  | .nan => 2 ^ (f.eb + f.mb) - 1
  | v =>
    let c := f.rne v
    let (s, e, m) := f.split c
    if e = 0 && m != 0 then (if s then 2 ^ (f.eb + f.mb) else 0) else c

/-- The sum of one Dunob cell: exact groups of four, each rounded once (05 R211). `fuel` bounds the groups. -/
def dunobSum : Nat → Word → List FV → Word
  | 0, acc, _ => acc
  | fuel + 1, acc, ps =>
    match ps with
    | [] => acc
    | ps =>
      dunobSum fuel (BitVec.ofNat 32 (rneDunob fp32 ((ps.take 4).foldl FV.add (daz fp32 (f32 acc))))) (ps.drop 4)

/-- The INT8 sum of one cell, saturating into the word (04 R132). -/
def intCell (ps : List Int) (acc : Option Word) : Word :=
  let t := ps.foldl (· + ·) 0 + (match acc with
    | some a => a.toInt
    | none => 0)
  BitVec.ofInt 32 (clampInt (-2 ^ 31) (2 ^ 31 - 1) t)

/-- Saturating addition of INT32 words (04 R132, R156). -/
def satAdd (a b : Word) : Word := BitVec.ofInt 32 (clampInt (-2 ^ 31) (2 ^ 31 - 1) (a.toInt + b.toInt))

/-- Value of an element as a signed integer (INT8). -/
def intElem (code : Nat) : Int := (BitVec.ofNat 8 code).toInt

end Sys2Proof.Machine
end

