-- ==== Sys2Proof/Types/Host.lean ====
section
/-!
DEFINITION. The host interface (19): mailboxes, MSI-X, functions, host reads; and what leaves the module.
-/
namespace Sys2Proof

/-- A mailbox request taken and not completed (19 R632, R634). -/
structure Req where
  /-- Identity of the command; the request number of R632 starts anew at a reset (R628). -/
  n : Nat
  body : List Byte
  /-- Host data fetched from DATA_ADDR, or none while the read is outstanding. -/
  data : Option (List Byte) := none
  /-- The read of DATA_ADDR failed or had to wait (19 R625): the command completes HOST_ACCESS. -/
  noHost : Bool := false
  /-- Taken before a reset: its completion is discarded (19 R627, R628). -/
  discard : Bool := false
  /-- The command has begun and completes by an event of its own (19 R637). -/
  begun : Bool := false
  deriving DecidableEq, Repr

/-- One function's mailbox (19 R631 to R635). -/
structure Mailbox where
  /-- Bytes of the request slots, key 0x80 × i + byte. -/
  slots : Tab Byte := []
  reqTail : Word := 0
  reqHead : Word := 0
  cplTail : Word := 0
  cplHead : Word := 0
  lost : Nat := 0
  rejected : Bool := false
  inflight : List Req := []
  /-- Bytes of the completion slots, key 0x20 × j + byte. -/
  cpl : Tab Byte := []
  /-- Completions and events waiting for a free slot, oldest first. -/
  cplWait : List (List Byte) := []
  evWait : List (List Byte) := []
  deriving DecidableEq, Repr

/-- One MSI-X vector (19 R639, R640). -/
structure Msix where
  addr : DWord := 0
  data : Word := 0
  masked : Bool := false
  pending : Bool := false
  deriving DecidableEq, Repr

/-- One PCIe function (19 R625). -/
structure PciFn where
  bme : Bool := false
  d3 : Bool := false
  deriving DecidableEq, Repr

/-- Why a host read was made (19 R624). -/
inductive HostReadFor where
  /-- Ring unit at position `pos` of a stream. -/
  | ring (stream pos : Nat)
  /-- Data of mailbox request `n` of a function. -/
  | mbx (fn n : Nat)
  deriving DecidableEq, Repr

/-- A host read made or waiting (19 R624, R625). -/
structure HostRead where
  id : Nat
  fn : Nat
  addr : DWord
  len : Nat
  why : HostReadFor
  /-- The request has been sent to the host. -/
  sent : Bool := false
  deriving DecidableEq, Repr

/-- A message that left the module. -/
inductive Msg where
  /-- A write to host memory for a function. -/
  | hostWrite (fn : Nat) (addr : DWord) (bytes : List Byte)
  /-- A read request to host memory. -/
  | hostRead (id fn : Nat) (addr : DWord) (len : Nat)
  /-- An MSI-X message of a vector. -/
  | msix (vector : Nat)
  /-- The value a register or doorbell read returned. -/
  | readData (value : DWord)
  /-- A flit sent on Spanor Link port `port`. -/
  | flit (port : Nat) (f : Flit)
  /-- A guild datagram sent on Ethernet port `port` to an IPv4 address. -/
  | datagram (port : Nat) (ip : Word) (d : Datagram)
  /-- A frame sent on Ethernet port `port`: video (12), its octets without the FCS, or a PTP event message (02), its type, sequence
  number and time. -/
  | ethernet (port : Nat) (bytes : List Byte)
  /-- An out-of-band answer or event: protocol (1 MCTP control, 2 PLDM, 3 SPDM), code, bytes. -/
  | oob (proto code : Nat) (bytes : List Byte)
  /-- The pins CTG_RESET_N and CTG_LPMODE of a cartridge, and writes of its pages (20 R660). -/
  | cartridge (n : Nat) (what : Nat) (bytes : List Byte)
  deriving DecidableEq, Repr

end Sys2Proof
end

