-- ==== Sys2Proof/Types/Crew.lean ====
section
/-!
DEFINITION. The state of one crew (03 R72 to R100, 04 R152, 05 R186, 06 R220) and of what it has in flight on its wheel.
-/
namespace Sys2Proof

/-- What a path waits for (03 R86). -/
inductive PathWait where
  /-- The path is ready. -/
  | ready
  /-- At JOIN of split `i` (03 R86). -/
  | join (split : Nat)
  /-- On the way to crew bell `b` with the threads `lanes`: the release `id` of the arrival (09 R347) is to complete. -/
  | arrive (id b : Nat) (lanes : Word)
  /-- At crew bell `b` (03 R90). -/
  | bell (b : Nat)
  /-- At ACWAIT on a counter for a target (03 R100). -/
  | acwait (counter : Nat) (target : Word)
  /-- At an MX-class instruction (04 R137). -/
  | mx
  /-- For the path's reads: loads, atomics and tile loads in flight (09 R340). -/
  | reads
  /-- For VRED `id`, which has joined the vector queue (06 R234, R241). -/
  | vec (id : Nat)
  /-- At a FENCE both, until its release part completes (09 R342, R344). -/
  | fence (id : Nat)
  /-- At SIGW: the waits of the path's threads in flight (10 R366). `acq` is ACQ, `pred` the result predicate. -/
  | sigw (acq : Bool) (pred : Nat)
  /-- At a group bell for the release of a phase (10 R379); `phase` is the phase waited to be left behind. -/
  | gbell (handle : Nat) (phase : Word)
  deriving DecidableEq, Repr

/-- One path of a crew (03 R84). -/
structure CPath where
  pc : DWord := 0
  /-- The threads of the path. -/
  mask : Word := 0
  wait : PathWait := .ready
  /-- The reconvergence address JPUSH recorded for the next branch that splits the path (03 R86). -/
  reconv : Option DWord := none
  /-- Consecutive instructions of the crew this path has issued (03 R85). -/
  run : Nat := 0
  deriving DecidableEq, Repr

/-- One split with a recorded reconvergence address (03 R86). -/
structure Split where
  addr : DWord
  members : Word
  deriving DecidableEq, Repr

/-- One crew bell (03 R90 to R93). -/
structure CrewBell where
  /-- The member mask all arrivals of this phase supplied. -/
  mask : Word := 0
  /-- The threads that have arrived. -/
  arrived : Word := 0
  /-- Watch-clock tick of the first arrival after arming. -/
  since : Option Nat := none
  deriving DecidableEq, Repr

/-- One accumulator window (04 R152). -/
structure Window where
  /-- Base and size in 4 KiB blocks. -/
  base : Nat
  size : Nat
  isInt : Bool := false
  longSum : Bool := false
  weight : Option Nat := none
  deriving DecidableEq, Repr

/-- The launch fields every crew carries (03 R78, 11 R417). -/
structure Res where
  /-- REGS_PER_THREAD. -/
  g : Nat := 8
  /-- TILE_REGS. -/
  t : Nat := 0
  /-- ACC_KIB. -/
  a : Nat := 0
  /-- LS_SPLIT in KiB. -/
  l : Nat := 0
  /-- LS_PER_CREW in KiB. -/
  s : Nat := 0
  deriving DecidableEq, Repr

/-- Saved rays of traversal queries whose results are pending (06 R251). -/
structure TravQuery where
  id : Nat
  path : Nat
  lane : Nat
  da : Nat
  /-- Origin x, y, z, tmin, direction x, y, z, tmax, as FP32. -/
  ray : List Word
  root : DWord
  anyHit : Bool := false
  cullBack : Bool := false
  cullFront : Bool := false
  deriving DecidableEq, Repr

/-- One crew resident in a slot. -/
structure Crew where
  saggar : Nat := 0
  stream : Nat := 0
  launch : Nat := 0
  task : Nat := 0
  layer : Nat := 0
  operator : Nat := 0
  /-- Promotion level of the attempt (05 R197). -/
  level : Nat := 0
  res : Res := {}
  /-- The issue partition, 0 to 3 (03 R73). -/
  part : Nat := 0
  /-- Identity of the crew, given at its start; signals and stores in flight name it. -/
  uid : Nat := 0
  /-- Crews of the launch this wheel had started before (05 R186). -/
  ordinal : Nat := 0
  /-- General registers: key lane × 256 + register (03 R77: zero at start). -/
  regs : Tab Word := []
  /-- Predicates p0 to p6 of each lane in bits 6:0. -/
  preds : Tab Byte := []
  /-- Tile registers: key tile × 1024 + offset. -/
  tiles : Tab Byte := []
  /-- Local store bytes. -/
  ls : Tab Byte := []
  /-- Accumulator words of the crew's allocation. -/
  acc : Tab Word := []
  /-- Windows a0 to a3. -/
  wins : Tab Window := []
  /-- Arrival counters ac0 to ac15. -/
  ac : Tab Word := []
  /-- VL (06 R220). -/
  vl : Nat := 0
  /-- Lane generators (05 R186). -/
  gens : Tab DWord := []
  /-- The threads that have not exited. -/
  live : Word := 0xFFFFFFFF
  paths : Tab CPath := []
  splits : Tab Split := []
  bells : Tab CrewBell := []
  /-- Watch-clock tick at which the first thread arrived at an MX-class instruction (04 R139). -/
  mxSince : Option Nat := none
  /-- The path that issued last (03 R85). -/
  lastPath : Option Nat := none
  /-- Traversal queries with pending results (06 R250, R251). -/
  queries : List TravQuery := []
  /-- Tally counts collected for a command outside any layer block: flushed and examined (05 R203). -/
  flushed : Nat := 0
  examined : Nat := 0
  deriving DecidableEq, Repr

end Sys2Proof
end

