-- ==== Sys2Proof/Types/Wheel.lean ====
section
/-!
DEFINITION. The state of one wheel: control and deque (03), engine queues (04, 05, 06), copies (03 R95), the store
path, reads and L1 (09), tallies (18 R602).
-/
namespace Sys2Proof

/-- The five unit states of 03 R119 and 08 R330, in their register codes 0 to 4. -/
inductive UnitSt where
  | off | on | draining | pendingOn | fenced
  deriving DecidableEq, Repr

/-- Register code of a unit state (03 R119). -/
def UnitSt.code : UnitSt → Nat
  | .off => 0 | .on => 1 | .draining => 2 | .pendingOn => 3 | .fenced => 4

/-- An entry of the array queue (04 R141): the instruction as it issued. -/
structure MxEntry where
  id : Nat
  slot : Nat
  uid : Nat
  saggar : Nat
  pc : DWord := 0
  /-- MXH, and its H bit. -/
  half : Bool := false
  h : Bool := false
  /-- First accumulator word of the block within the crew's allocation. -/
  word : Nat
  isInt : Bool := false
  longSum : Bool := false
  /-- First activation tile and weight tile. -/
  ta0 : Nat
  tw : Nat
  fmtA : Nat
  fmtB : Nat
  transA : Bool := false
  transB : Bool := false
  acc : Bool := false
  scaleTile : Nat := 0
  scaleBase : Nat := 0
  /-- Lanes that are live with a true guard (04 R138). -/
  lanes : Word := 0
  dunob : Bool := false
  /-- Promotion level and layer context for overflow (05 R200). -/
  layer : Nat := 0
  operator : Nat := 0
  /-- Watch tick at which it joined the queue (R149). -/
  since : Nat := 0
  /-- Started: operand read done, operands as read. -/
  started : Bool := false
  tiles : Tab Byte := []
  /-- An uncorrectable error was met on operand read (04 R151). -/
  bad : Bool := false
  /-- The entry runs beside this one (04 R148). -/
  partner : Option Nat := none
  deriving DecidableEq, Repr

/-- An entry of the matrix-vector queue (04 R159, R160). -/
structure MvEntry where
  id : Nat
  slot : Nat
  uid : Nat
  pc : DWord := 0
  /-- It has begun its operand read: the head of its queue (R160, R167). -/
  begun : Bool := false
  word : Nat
  longSum : Bool := false
  fmtW : Nat
  fmtX : Nat
  transW : Bool := false
  acc : Bool := false
  /-- The lane of 04 R140, whose generator draws. -/
  lane : Nat := 0
  row : Nat := 0
  dunob : Bool := false
  layer : Nat := 0
  operator : Nat := 0
  /-- Weight and input tile bytes as read. -/
  wTile : List Byte := []
  xTile : List Byte := []
  deriving DecidableEq, Repr

/-- A stream field of a chain descriptor (06 R223). -/
structure ChainStream where
  addr : DWord := 0
  kind : Nat := 0
  format : Nat := 0
  round : Nat := 0
  sat : Bool := false
  cache : Nat := 0
  modulus : Nat := 0
  deriving DecidableEq, Repr

/-- One stage word of a chain (06 R225). -/
structure ChainStage where
  op : Nat := 0
  x : Nat := 0
  y : Nat := 0
  z : Nat := 0
  save : Bool := false
  hold : Nat := 0
  round : Nat := 0
  format : Nat := 0
  sat : Bool := false
  deriving DecidableEq, Repr

/-- A chain descriptor (06 R222) as read at chain start. -/
structure ChainDesc where
  a : ChainStream := {}
  b : ChainStream := {}
  c : ChainStream := {}
  m : ChainStream := {}
  y : ChainStream := {}
  z : ChainStream := {}
  stages : List ChainStage := []
  precision : Nat := 0
  redOp : Nat := 0
  maskEn : Bool := false
  ks : List Word := []
  deriving DecidableEq, Repr

/-- An entry of the vector queue (06 R234). -/
structure VecEntry where
  id : Nat
  slot : Nat
  uid : Nat
  pc : DWord := 0
  /-- Accumulator words and tile registers of its streams: (low, high) word bounds; tiles read; tiles written. -/
  accWords : List (Nat × Nat) := []
  tilesRead : List Nat := []
  tilesWritten : List Nat := []
  counter : Nat := 0
  desc : ChainDesc := {}
  vl : Nat
  /-- Segments of 32 beats still to run before the last. -/
  segsLeft : Nat := 0
  /-- Operand 0xC of an INT32 chain under a negative scale: no value is stated. -/
  intScale : Word := 0
  /-- The entry is a VRED, with its executing lanes (06 R241). -/
  vred : Option (Issue × Word) := none
  deriving DecidableEq, Repr

/-- Who waits on a signal word (10 R366, R411, R416). -/
inductive Waiter where
  | thread (wheel slot uid path lane : Nat)
  /-- A WAIT command at ring position `pos` of a stream. -/
  | command (stream : Nat) (pos : Nat)
  /-- The scheduler, on the TAIL_WORD of a stream; the target is the value it last offered (11 R411). -/
  | tail (stream : Nat)
  deriving DecidableEq, Repr

/-- Progress of a wait. -/
inductive WaitSt where
  | reading | registered | polled
  /-- Satisfied; the wake is on its way (10 R368). -/
  | woken
  deriving DecidableEq, Repr

/-- One wait on a signal word (10 R365 to R370). -/
structure Wait where
  who : Waiter
  saggar : Nat
  va : DWord
  pa : Nat
  target : Word
  reach : Nat
  /-- Watch tick at which a SIGW with TIMEOUT ends. -/
  deadline : Option Nat := none
  st : WaitSt := .reading
  /-- Watch tick at which the word was last read for it (10 R369). -/
  read : Nat := 0
  deriving DecidableEq, Repr

/-- The wait is the scheduler's on a TAIL_WORD (11 R411): each value is offered as a tail, and none ends it. -/
def Wait.isTail (w : Wait) : Bool :=
  match w.who with
  | .tail _ => true
  | _ => false

/-- A resumable task with its saved context (03 R114, R117) and the wheel it left: with the crew go its chains (06 R237) and the
waits withdrawn (10 R371), which resume with it. -/
structure Resume where
  task : Nat
  crew : Crew
  vec : List VecEntry := []
  waits : List Wait := []
  wheel : Nat
  deriving DecidableEq, Repr

/-- Contiguous tasks of one launch, or one resumable task with its saved context (03 R106, R114). -/
structure TaskRange where
  launch : Nat
  first : Nat
  count : Nat
  saved : Option Resume := none
  deriving DecidableEq, Repr

/-- What a copy-engine operation does (03 R96, 04 R157, 05 R193, R194, 07 R279, R287, 10 R374). -/
inductive CopyKind where
  | copy1 (dir : Nat) (src dst : DWord) (len : Nat)
  | copy2 (dir : Nat) (src dst : DWord) (rows rowBytes sstride dstride : Nat)
  /-- Block at accumulator word `word`; `fmt` is the output format, `ls` the space. -/
  | accRd (word : Nat) (isInt : Bool) (fmt round : Nat) (sat ls : Bool) (dst : DWord) (stride : Nat)
  | accWr (word : Nat) (isInt acc ls : Bool) (src : DWord) (stride : Nat)
  | gacc (word : Nat) (dst : DWord) (stride : Nat) (m : Word)
  /-- The descriptor's 64 bytes as read at issue. -/
  | opt (bytes : List Byte)
  | grecv (slot off ls len : Nat)
  | ptab (freq dst : DWord) (ls half : Bool) (p0 n m : Nat)
  /-- `attach`: operation, word address and operand of the attached signal. -/
  | rput (guild rank : Nat) (src dst : DWord) (len : Nat) (attach : Option (Nat × DWord × Word))
  deriving DecidableEq, Repr

/-- A copy-engine operation in flight (03 R95). -/
structure Copy where
  id : Nat
  slot : Nat
  uid : Nat
  counter : Nat
  kind : CopyKind
  /-- Whose memory it uses, and the address of its instruction. -/
  saggar : Nat := 0
  stream : Nat := 0
  part : Nat := 0
  layer : Nat := 0xFFFFF
  operator : Nat := 0xFFF
  pc : DWord := 0
  cache : Nat := 0
  /-- It may not start before the reeve gives leave (03 R99). -/
  leave : Bool := false
  /-- It begins once this release of its crew has completed (10 R374). -/
  after : Option Nat := none
  /-- A put whose packets have been sent: acknowledgements still to come (10 R376). -/
  sent : Option Nat := none
  deriving DecidableEq, Repr

/-- A crier or atomic operation code. -/
inductive AtomOp where
  | add | fadd | min | max | and | or | exch | cas
  deriving DecidableEq, Repr

/-- What an entry of the store path does at its home slice. -/
inductive StoreOp where
  /-- Bytes of one sector, by offset within it. -/
  | bytes (l : Tab Byte)
  | atom (op : AtomOp) (wide : Bool) (v w : DWord) (path lane da : Nat) (acq : Bool)
  | signal (op : Nat) (v : Word)
  | fence
  deriving DecidableEq, Repr

/-- One entry of the wheel's store path (09 R333). -/
structure StoreEntry where
  id : Nat
  slot : Nat
  uid : Nat
  saggar : Nat := 0
  launch : Nat := 0
  va : DWord := 0
  pa : Nat := 0
  op : StoreOp
  /-- The entry is, or carries, a release (09 R342). -/
  rel : Bool := false
  /-- Address of the instruction. -/
  pc : DWord := 0
  /-- It waits in the combining buffer (09 R333). -/
  combining : Bool := false
  cache : Nat := 0
  /-- Performed at its home slice; the acknowledgement is on its way (09 R334). -/
  performed : Bool := false
  deriving DecidableEq, Repr

/-- Where a read delivers its bytes. -/
inductive ReadDest where
  | reg (lane da : Nat)
  | tile (off : Nat)
  /-- The word of wait `id` (10 R366). -/
  | wait (id : Nat)
  deriving DecidableEq, Repr

/-- One read in flight (09 R334). -/
structure ReadTxn where
  id : Nat
  slot : Nat
  uid : Nat
  path : Nat
  saggar : Nat := 0
  pa : Nat
  len : Nat
  dest : ReadDest
  /-- 0 plain, 1 volatile, 2 acquire; 3 an atomic's returned value. -/
  order : Nat := 0
  acq : Bool := false
  cache : Nat := 0
  /-- The bytes, once taken at the home slice, and the whole sector for L1. -/
  value : Option (List Byte) := none
  /-- The identity that was next when they were taken. -/
  taken : Nat := 0
  sector : List Byte := []
  poisoned : Bool := false
  /-- An acquire, a later atomic or the return of a later read bars the fill from L1 (09 R343, R338). -/
  noInstall : Bool := false
  deriving DecidableEq, Repr

/-- One sector held in L1 (09 R332). -/
structure L1Sector where
  saggar : Nat
  bytes : List Byte
  deriving DecidableEq, Repr

/-- One tally of 18 R602 (wheel or global). -/
structure Tally where
  cfg : Word := 0
  mtch : Word := 0
  mask : Word := 0
  value : DWord := 0
  deriving DecidableEq, Repr

/-- Control state of a wheel (03 R115 to R119, 02 R37 to R39). -/
structure WhlCtl where
  state : UnitSt := .on
  enable : Bool := true
  evict : Bool := false
  gated : Bool := false
  /-- The reservation that holds the wheel (12 R441), or none. -/
  resv : Option Nat := none
  /-- LS_SPLIT in force, units of 64 KiB. -/
  split : Nat := 0
  /-- The first tick the clock did not run, while it is stopped (02 R57). -/
  stopGts : Option Nat := none
  /-- A wake has been requested (02 R39). -/
  waking : Bool := false
  /-- Root periods of the CORE clock: 4 nominal, 5 to 16 stretched (02 R37). -/
  period : Nat := 4
  /-- The last restart: stop and start GTS, and the saggars told of it (02 R59). -/
  gap : Option (Nat × Nat × List Nat) := none
  /-- Watch tick since which the wheel has held no crew and no task (03 R111). -/
  idleSince : Option Nat := none
  lastFault : DWord := 0
  /-- The latest stamp this wheel gave (02 R47). -/
  lastStamp : Nat := 0
  /-- The interactive launch for which the wheel's bulk crews are being evicted (11 R422). -/
  preempt : Option Nat := none
  deriving DecidableEq, Repr

/-- Work finding (03 R104 to R111). -/
structure WhlWork where
  deque : List TaskRange := []
  /-- Unstarted tasks of other saggars kept during a reservation (03 R113). -/
  kept : List TaskRange := []
  /-- A market request is outstanding. -/
  asking : Bool := false
  /-- The market has answered EMPTY to the last request. -/
  gotEmpty : Bool := false
  /-- The steal probe outstanding: position in the probe order. -/
  probe : Option Nat := none
  /-- The probe reached its victim, with what it gave. -/
  probeGave : Option (Option TaskRange) := none
  /-- The next position of the probe order. -/
  nextProbe : Nat := 0
  /-- Full probe order done: waiting for an announcement or the retry (03 R111). -/
  retry : Bool := false
  /-- Watch tick at which that wait began. -/
  retrySince : Nat := 0
  /-- Crews of each launch this wheel has started (05 R186). -/
  ordinals : Tab Nat := []
  taken : DWord := 0
  given : DWord := 0
  batches : DWord := 0
  deriving DecidableEq, Repr

/-- The engines of the wheel. -/
structure WhlEng where
  mxq : List MxEntry := []
  /-- Watch tick of the latest start of an array entry (R149). -/
  lastStart : Nat := 0
  mvq : List MvEntry := []
  vecq : List VecEntry := []
  /-- The crew slot whose segment runs, or the one after the slot whose segment ran last (06 R234). -/
  vecTurn : Nat := 0
  copies : List Copy := []
  /-- Role cache: weight IDs, most recently used first (07 R262). -/
  roles : List Nat := []
  /-- Watch tick since which the array queue has been empty while a MATRIX permit is held (14 R495). -/
  lingerSince : Option Nat := none
  deriving DecidableEq, Repr

/-- A cached translation, tagged with its saggar (08 R313): it names the leaf at a device-virtual address. It never outlives the leaf (08
R314), whose fields stand in the tables. -/
structure Xlat where
  saggar : Nat
  base : Nat
  deriving DecidableEq, Repr

/-- A cached entry of an upper level: the level and the index bits down to it (08 R310, R313). -/
structure WalkEntry where
  saggar : Nat
  level : Nat
  idx : Nat
  deriving DecidableEq, Repr

/-- The memory path of the wheel (09). -/
structure WhlMem where
  store : List StoreEntry := []
  reads : List ReadTxn := []
  l1 : Tab L1Sector := []
  /-- Translations the wheel holds, at most 64, most recently used first (08 R313). -/
  tlb : List Xlat := []
  deriving DecidableEq, Repr

/-- What the issue partitions choose by (03 R72, R83, R86). Paths are numbered slot × 32 + path. -/
structure Sched where
  /-- Issues of its partition that a ready path has waited through. -/
  ages : Tab Nat := []
  /-- Paths whose instruction waits for room or a result: they do not count as ready. -/
  stalled : List Nat := []
  /-- Instruction cache of each partition: (saggar, 128-byte line) fetched, most recent first; 32 KiB are 256 lines. -/
  icache : Tab (List (Nat × Nat)) := []
  deriving DecidableEq, Repr

/-- One wheel. -/
structure Wheel where
  ctl : WhlCtl := {}
  work : WhlWork := {}
  crews : Tab Crew := []
  eng : WhlEng := {}
  mem : WhlMem := {}
  sched : Sched := {}
  tallies : Tab Tally := []
  deriving DecidableEq, Repr

end Sys2Proof
end

