-- ==== Sys2Proof/Types/Sys.lean ====
section
/-!
DEFINITION. Memory, crier, saggars, streams, the market and the ledger: plain data (08, 09, 10, 11, 18).
-/
namespace Sys2Proof

/-- One leaf mapping (08 R310, R311). -/
structure Mapping where
  /-- Page size in bytes: 64 KiB, 2 MiB or 1 GiB. -/
  size : Nat
  pa : Nat
  write : Bool := false
  exec : Bool := false
  home : Nat := 0
  /-- An accepted UNMAP is removing it (08 R314). -/
  going : Bool := false
  deriving DecidableEq, Repr

/-- State of one 64 KiB frame other than FREE (08 R306). -/
inductive FrameSt where
  | free | zeroing | module | owned
  deriving DecidableEq, Repr

/-- One frame (08 R306, R309). -/
structure Frame where
  st : FrameSt := .free
  owner : Nat := 0
  home : Option Nat := none
  deriving DecidableEq, Repr

/-- A line held in a commons slice (08 R299, R300); a set lists its lines most recently used first. -/
structure CLine where
  line : Nat
  keep : Bool := false
  /-- Valid and dirty, a bit for each sector. The poison bits are those of the sectors' place in memory (linePoison). -/
  valid : Nat := 0
  dirty : Nat := 0
  key : Nat := 4096
  deriving DecidableEq, Repr

/-- One commons slice (08 R330). -/
structure Slice where
  /-- 0 ON, 1 FENCING, 2 FENCED. -/
  state : Nat := 0
  carries : Bool := false
  ce : DWord := 0
  ceWin : Nat := 0
  ueWin : Nat := 0
  sets : Tab (List CLine) := []
  deriving DecidableEq, Repr

/-- One pseudo-channel (08 R330). -/
structure PChan where
  state : Nat := 0
  /-- GTS at which its migration began (08 R323). -/
  since : DWord := 0
  ce : DWord := 0
  ceWin : Nat := 0
  ueWin : Nat := 0
  deriving DecidableEq, Repr

/-- One stack (08 R330). -/
structure Stack where
  state : Nat := 0
  spareUsed : Bool := false
  sparePc : Nat := 0
  deriving DecidableEq, Repr

/-- One granary port (08 R304, R330). -/
structure GrnPort where
  enable : Bool := true
  state : UnitSt := .off
  refused : Bool := false
  linkUp : Bool := false
  ce : DWord := 0
  poison : DWord := 0
  poisonWin : Nat := 0
  deriving DecidableEq, Repr

/-- State of a key slot (08 R317). -/
inductive KeySt where
  | empty | active | erasing
  deriving DecidableEq, Repr

/-- One key slot: the data key, the tweak key and the state. No register reads a key. -/
structure KeySlot where
  data : BitVec 256 := 0
  tweak : BitVec 256 := 0
  st : KeySt := .empty
  deriving DecidableEq, Repr

/-- An ASSIGN_FRAMES in progress (08 R307, R673). -/
structure ZeroJob where
  saggar : Nat
  frames : List Nat
  fn : Nat
  req : Nat
  deriving DecidableEq, Repr

/-- An UNMAP in progress (08 R314). -/
structure UnmapJob where
  saggar : Nat
  vas : List Nat
  fn : Nat
  req : Nat
  deriving DecidableEq, Repr

/-- One group bell (10 R379). Members and arrivals are crew identities. -/
structure GBell where
  members : List Nat := []
  arrived : List Nat := []
  phase : Word := 0
  broken : Bool := false
  since : Option Nat := none
  deriving DecidableEq, Repr

/-- An arrival on its way to a group bell (10 R382), held until its crew's release completes. -/
structure GArrival where
  wheel : Nat
  slot : Nat
  uid : Nat
  saggar : Nat
  handle : Nat
  phase : Word
  deriving DecidableEq, Repr

/-- A wake on its way from a group bell to a crew's path (10 R382). -/
structure GWake where
  wheel : Nat
  slot : Nat
  uid : Nat
  path : Nat
  deriving DecidableEq, Repr

/-- A completion record (10 R387). -/
structure CRec where
  gts : DWord
  tag : Word
  stream : Nat
  source : Nat
  kind : Bool
  stretch : Bool := false
  /-- A COLLECT with REL: the record leaves once the crew's release has completed; the crew's identity (10 R360). -/
  rel : Option Nat := none
  deriving DecidableEq, Repr

/-- One collector (10 R385 to R391). -/
structure Collector where
  bound : Bool := false
  saggar : Nat := 0
  ring : DWord := 0
  entries : Nat := 256
  countWord : DWord := 0
  headWord : DWord := 0
  vector : Option Nat := none
  fn : Nat := 0
  threshold : Nat := 1
  coalesce : Nat := 0
  /-- Accepted records, at most 8 (10 R388). -/
  held : List CRec := []
  /-- Records waiting at their sources, in order of arrival. -/
  offered : List CRec := []
  /-- Streams of the records written to the ring whose COUNT_WORD advance is still to come (10 R390). -/
  inFlight : List Nat := []
  /-- Records drained, and records COUNT_WORD covers. -/
  drained : Nat := 0
  count : Nat := 0
  announced : Nat := 0
  /-- HEAD_WORD as last read. -/
  head : Word := 0
  unbinding : Option (Nat × Nat) := none
  /-- Watch tick of the first unannounced advance (10 R391). -/
  since : Option Nat := none
  deriving DecidableEq, Repr

/-- Life of a saggar or a stream in its register code (11 R401, R407). -/
inductive SagSt where
  | off | on | draining | pendingOn
  deriving DecidableEq, Repr

/-- Placement (11 R395). -/
inductive Placement where
  | die (d : Nat)
  | interleaved
  deriving DecidableEq, Repr

/-- One latched entry of the securing table (17 R568), with its method (17 R572). -/
structure SecEnt where
  va : Nat
  bytes : Nat
  wid : Nat := 0xFFFF
  /-- 0 AUTO, 1 MIRROR, 2 PARITY, 3 FROZEN, 4 RNG. -/
  kind : Nat := 0
  /-- 0 MIRROR, 1 PARITY, 2 ONCE; none before the first point. -/
  method : Option Nat := none
  /-- The old method, in force until the point of the change is guild-committed. -/
  old : Option Nat := none
  /-- Dirty pieces summed over the steps since the previous point. -/
  dirtySum : Nat := 0
  /-- A ONCE entry has been captured; a piece of it has been written since. -/
  sent : Bool := false
  written : Bool := false
  /-- The point at which a ONCE entry was captured, and its first byte in that snapshot. -/
  once : Word := 0
  onceAt : Nat := 0
  deriving DecidableEq, Repr

/-- A Dunob snapshot being written (17 R588): the STEP's stream and ring position, N, and GTS since it waits. -/
structure DunobJob where
  stream : Nat
  pos : Word
  n : Word
  since : DWord := 0
  deriving DecidableEq, Repr

/-- What a member keeps of a point beside the data: the latched table with its methods, and the sequence numbers of its
guilds (17 R569, R585). -/
structure PointSave where
  point : Word
  table : List SecEnt := []
  seqs : List (Nat × Word) := []
  deriving DecidableEq, Repr

/-- A SECURE_RESTORE in progress (17 R583, R584). -/
structure RestoreJob where
  fn : Nat
  req : Nat
  point : Word
  substs : List (Nat × Nat × Nat) := []
  joinRank : Nat := 0xFFFF
  donor : Nat := 0
  /-- This member has rebuilt, and the 4 KiB pieces it wrote. -/
  rebuilt : Bool := false
  pieces : Nat := 0
  /-- The point's manifest: this member's own, or the donor's. -/
  manifest : Option PointSave := none
  deriving DecidableEq, Repr

/-- A 2 KiB half of a mirrored piece held for another member, at the step it belongs to (17 R577). -/
structure HeldPiece where
  rank : Nat
  step : Word
  va : Nat
  data : List Byte
  deriving DecidableEq, Repr

/-- A fragment held for a member's snapshot (17 R578, R579): its bytes by offset. -/
structure HeldFrag where
  rank : Nat
  point : Word
  idx : Nat
  /-- It belongs to the ONCE entries. -/
  once : Bool := false
  bytes : Nat := 0
  parts : List (Nat × List Byte) := []
  deriving DecidableEq, Repr

/-- Securing state of a saggar (17). -/
structure Securing where
  /-- SAG_SEC_STATUS.STATE: 0 OFF, 1 ARMING, 2 SECURED, 3 WAITING, 4 RESTORING, 5 LOST. -/
  state : Nat := 0
  table : List SecEnt := []
  /-- Steps since the previous point; no point has been reached yet. -/
  steps : Nat := 0
  first : Bool := true
  /-- Guild-committed points retained, newest first (R575). -/
  points : List Word := []
  /-- The point reached and not yet guild-committed. -/
  armed : Option Word := none
  /-- Securing transfers not yet acknowledged: identity, peer rank, step and whether a fragment. -/
  sending : List (Nat × Nat × Word × Bool) := []
  /-- Ranks that have reported local commit of a point not yet guild-committed. -/
  reported : List (Nat × Word) := []
  /-- Pieces sent for the point, entries by mirror and by parity. -/
  sentPieces : Nat := 0
  byMirror : Nat := 0
  byParity : Nat := 0
  tolerance : Nat := 0
  lost : List Nat := []
  /-- The saggar was SECURED when its first member was lost (R582). -/
  wasSecured : Bool := false
  lostRestoring : Bool := false
  /-- A receiver lacked space (R579): the next STEP faults. -/
  noSpace : Bool := false
  /-- A STEP waits for the armed point since this tick (R574). -/
  stall : Option Nat := none
  restore : Option RestoreJob := none
  dunob : Option DunobJob := none
  /-- What this member holds for others: image at the older retained point, journal, steps whose attached signal has been
  applied, fragments (R577, R579). -/
  image : List HeldPiece := []
  journal : List HeldPiece := []
  applied : List (Nat × Word) := []
  frags : List HeldFrag := []
  /-- Fragments formed for the point and not yet sent, by receiver: the receiver has not answered the request for space
  (R579). -/
  waiting : List (Nat × HeldFrag) := []
  /-- Members that hold nothing for others until the next point is guild-committed (R585). -/
  empty : List Nat := []
  /-- Tables and sequences of the retained points, newest first. -/
  saved : List PointSave := []
  /-- Restore data received for this member: fragments, pieces (R584). -/
  gotFrags : List HeldFrag := []
  gotPieces : List HeldPiece := []
  /-- The point and the number of mirror halves the buddy has announced. -/
  gotEnd : Option (Word × Nat) := none
  /-- Ranks that have reported the completion of a restore (R584), and the bytes of the donor's manifest received. -/
  restored : List Nat := []
  gotManifest : Tab Byte := []
  /-- The STEP that waits for the armed point (R574): its stream and ring position. -/
  stallCmd : Option (Nat × Word) := none
  deriving DecidableEq, Repr

/-- The settings of a saggar (11 R395, 05 R190, 07 R258, R283, 14 R503, 17 R565), as SAGGAR_CREATE gave them. -/
structure SagCfg where
  fn : Nat := 0
  placement : Placement := .interleaved
  rights : BitVec 192 := 0
  exclusive : Bool := false
  weight : Nat := 16
  streamLimit : Nat := 4096
  saveArea : DWord := 0
  saveSize : Nat := 0
  pinSets : List (BitVec 192) := []
  bellExp : Nat := 26
  groupBells : Nat := 0
  seed : DWord := 0
  layerTable : DWord := 0
  layerCount : Nat := 0
  defScale : Int := 0
  quietSteps : Nat := 64
  quietThr : Nat := 0x4000
  quietAlarm : Bool := true
  autoRaise : Bool := false
  wgtTable : DWord := 0
  wgtCount : Nat := 0
  offBase : DWord := 0
  offSize : Nat := 0
  /-- POWER_CAP in units of 0.25 W, 0 for none; POWER_WEIGHT (14 R503). -/
  powerCap : Nat := 0
  powerWeight : Nat := 16
  /-- 0 NONE, 1 BOUNDED, 2 DUNOB (17 R565). -/
  secMode : Nat := 0
  lossL : Nat := 4
  parK : Nat := 8
  parM : Nat := 2
  secGuild : Option Nat := none
  secTable : DWord := 0
  secCount : Nat := 0
  staging : DWord := 0
  stagingSize : Nat := 0
  region : DWord := 0
  regionSize : Nat := 0
  dunobBase : DWord := 0
  dunobSize : Nat := 0
  secTest : Bool := false
  deriving DecidableEq, Repr

/-- A bound ledger (18 R599 to R601). -/
structure Ledger where
  base : DWord := 0
  entries : Nat := 0
  stopMode : Bool := false
  countWord : DWord := 0
  headWord : DWord := 0
  mask : DWord := 0
  count : Nat := 0
  lost : Nat := 0
  /-- TYPE × 1024 + SOURCE of the first record lost, and its GTS. -/
  firstLost : Nat := 0
  firstLostGts : DWord := 0
  deriving DecidableEq, Repr

/-- One record as its source made it (18 R596): the fields of the common header and the payload. -/
structure Rec where
  gts : DWord
  type : Nat
  source : Nat
  stretch : Bool := false
  saggar : Nat := 0xFFF
  stream : Nat := 0
  layer : Nat := 0
  op : Nat := 0
  payload : BitVec 128 := 0
  /-- The saggars whose ledgers receive it; the module ledger when `mod` is set. -/
  dests : List Nat := []
  mod : Bool := false
  deriving DecidableEq, Repr

end Sys2Proof
end

