-- ==== Sys2Proof/Types/Stream.lean ====
section
/-!
DEFINITION. Saggars, streams and the market (11), with what training adds to them (05, 07).
-/
namespace Sys2Proof

/-- A held range of a layer-begin (11 R417). -/
structure HeldRange where
  save : Bool
  base : Nat
  len : Nat
  deriving DecidableEq, Repr

/-- The first overflow of an attempt (05 R200). -/
structure Ovf where
  layer : Nat
  op : Nat
  gts : DWord
  source : Nat
  nan : Bool := false
  /-- No saturation can prevent it: it arose in an array or an addition (05 R208). -/
  hard : Bool := false
  deriving DecidableEq, Repr

/-- The open layer block of a stream (05 R197 to R203). -/
structure Block where
  layer : Nat
  replayable : Bool := false
  gradient : Bool := false
  ranges : List HeldRange := []
  /-- GTS at which the attempt started. -/
  start : DWord := 0
  /-- Replays of this block so far (05 R202). -/
  replays : Nat := 0
  /-- A saturating attempt (05 R208). -/
  saturating : Bool := false
  ovf : Option Ovf := none
  /-- Pending counts (05 R203). -/
  flushed : Nat := 0
  examined : Nat := 0
  /-- The base level of the block. -/
  base : Nat := 0
  /-- The restore that must be home before a task starts (07 R284). -/
  restore : Option Nat := none
  deriving DecidableEq, Repr

/-- A command that has begun (11 R409, R415). -/
structure Begun where
  pos : Word
  size : Nat
  opcode : Nat
  done : Bool := false
  collect : Option Nat := none
  tag : Word := 0
  layer : Nat := 0
  op : Nat := 0
  deriving DecidableEq, Repr

/-- A gather slot (07 R273 to R276). -/
structure GSlot where
  weight : Nat := 0
  dest : DWord := 0
  word : DWord := 0
  /-- Whole bytes of the gathered weight, and shards with their size. -/
  bytes : Nat := 0
  shards : Nat := 1
  shardBytes : Nat := 0
  shardAddr : DWord := 0
  guild : Nat := 0
  pos : Word := 0
  /-- Shards whose bytes are at their home slices. -/
  arrived : List Nat := []
  complete : Bool := false
  stalled : Bool := false
  /-- A release has been issued and is pending: the ring position of its command, and the identity that was next then. -/
  releasing : Option (Word × Nat) := none
  deriving DecidableEq, Repr

/-- A creation latched behind a drain (11 R405): the request's function, number and body. -/
structure Latched where
  fn : Nat
  req : Nat
  body : List Byte
  deriving DecidableEq, Repr

/-- One stream: its context (11 R407) and what is in flight for it. -/
structure Stream where
  /-- 0 FREE, 1 ACTIVE, 2 FAULTED, 3 DRAINING, 4 PENDING_ON. -/
  st : Nat := 0
  saggar : Nat := 0
  /-- 0 BULK, 1 INTERACTIVE, 2 DEADLINE. -/
  cls : Nat := 0
  ringBase : DWord := 0
  ringDev : Bool := false
  order : Nat := 0
  head : Word := 0
  tail : Word := 0
  pinned : Bool := false
  pinSet : Nat := 0
  dunob : Bool := false
  stepOwner : Bool := false
  /-- Gather depth D, 1 to 4. -/
  depth : Nat := 1
  layerOpen : Bool := false
  overflow : Bool := false
  openLayer : Nat := 0
  level : Nat := 0
  replayPos : Word := 0
  beginPos : Word := 0
  tailWord : DWord := 0
  headHost : Bool := false
  headWord : DWord := 0
  doorbell : Nat := 0
  fn : Nat := 0
  faultCode : Nat := 0
  faultGts : DWord := 0
  block : Option Block := none
  begun : List Begun := []
  gslots : Tab GSlot := []
  /-- Host ring units fetched: key position × 64 + byte (11 R408). -/
  fetched : Tab Byte := []
  /-- Positions of host ring units whose read is outstanding (19 R624). -/
  fetching : List Nat := []
  /-- STREAM_DESTROY accepted: mode ABORT, and the requests that complete when the stream is FREE. -/
  abort : Bool := false
  /-- Opcode of the last WAIT, LAYER_COMMIT or STEP begun; 0 for none (09 R349, 11 R415). -/
  lastBar : Nat := 0
  /-- A command has waited for earlier ones to complete since the last launch began (09 R349). -/
  ordered : Bool := false
  drainTail : Word := 0
  waiters : List (Nat × Nat) := []
  latched : Option Latched := none
  deriving DecidableEq, Repr

/-- A launch in the market (11 R413, R417, R420, R421). -/
structure Launch where
  stream : Nat
  saggar : Nat
  cls : Nat
  layer : Nat
  op : Nat
  level : Nat
  prog : DWord
  res : Res
  total : Nat
  /-- The lowest task index not yet handed over. -/
  next : Nat := 0
  /-- Tasks that returned unstarted from a deque (03 R115). -/
  returned : List (Nat × Nat) := []
  resumables : List Resume := []
  /-- Tasks not yet exited. -/
  left : Nat
  ready : Nat
  /-- Watch tick at which the interactive window opened, and whether a task was handed over in it (11 R422). -/
  window : Nat
  served : Bool := false
  pinned : Bool := false
  pos : Word := 0
  /-- The launch belongs to an open replayable block. -/
  inBlock : Bool := false
  /-- Tasks of a pinned launch still to be placed: key wheel, first index and count, in steps of the pin set's size (03
  R112). -/
  pins : Tab (Nat × Nat) := []
  pinStep : Nat := 1
  /-- The wheel that preemption offers this launch first (11 R422). -/
  offer : Option Nat := none
  deriving DecidableEq, Repr

/-- An offloaded range (07 R282 to R284). -/
structure OffRange where
  layer : Nat
  base : Nat
  len : Nat
  /-- Byte offset in the offload area. -/
  at_ : Nat
  /-- The copy to the granary is complete. -/
  done : Bool := false
  deriving DecidableEq, Repr

/-- One saggar (11 R395 to R403). -/
structure Saggar where
  st : SagSt := .off
  cfg : SagCfg := {}
  /-- 0 SAGGAR_DESTROY, 1 DIE_FENCE, 2 function-level reset. -/
  drainCause : Nat := 0
  step : Word := 0
  firstStream : Bool := false
  /-- Bytes of the save area held (11 R400). -/
  saved : Nat := 0
  /-- Steps since the re-warm began, while in re-warm (05 R207, R209). -/
  rewarm : Option Nat := none
  /-- Layers whose entry changed in the step, and layers with an OVERFLOW_SEEN in it (05 R202, R205). -/
  touched : List Nat := []
  ovfSeen : List Nat := []
  /-- Weight table entries latched since the last STEP (07 R259). -/
  weights : Tab (List Byte) := []
  /-- The weight table as the last STEP or restore found it, which later changes of the step do not reach; none before the first
  (07 R259). -/
  table : Option (Tab (List Byte)) := none
  /-- Units of the offload area allocated since the last reset, and the ranges offloaded in the step. -/
  offUsed : Nat := 0
  offs : List OffRange := []
  /-- The allocation returns to its base once the offloads in flight are complete (07 R283). -/
  offReset : Bool := false
  /-- Layers an early restore has been started for and no layer-begin has used: layer and whether it is home (07 R284). -/
  early : List (Nat × Bool) := []
  ledger : Option Ledger := none
  maps : Tab Mapping := []
  gbells : Tab GBell := []
  sec : Securing := {}
  latched : Option Latched := none
  /-- SAGGAR_DESTROY requests that complete at OFF. -/
  waiters : List (Nat × Nat) := []
  deriving DecidableEq, Repr

end Sys2Proof
end

