-- ==== Sys2Proof/Types/Core.lean ====
section
/-!
DEFINITION. The time unit (02), debug (18), manufacturing data (00, 15) and the module's own bookkeeping.
-/
namespace Sys2Proof

/-- Fuses and manufacturing data (00 R3, R5, R13; 15 R519, R536, R537). Nothing but KEY_REVOKE and
CONFIG_COMMIT_SVN changes them. -/
structure Fuse where
  /-- HUB_IDENT_0.VARIANT: 1 F768, 2 S768, 3 C384. -/
  variant : Nat := 1
  /-- Wheels fused off (00 R5). -/
  absent : BitVec 192 := 0
  provisioned : BitVec 4 := 1
  revoked : BitVec 4 := 0
  svnMin : Nat := 0
  serial : BitVec 128 := 0
  deriving DecidableEq, Repr

/-- A permit of the reeve, or a request for one (14 R493 to R497). Charges are in units of 0.0025 W. -/
structure Permit where
  /-- Permit code: 0 MATRIX, 1 COPY, 2 GRANARY, 3 LINK, 4 LINK_ETH, 5 EMIT. -/
  kind : Nat
  /-- Source number of the requesting unit, and which of its works: a copy, a channel's unit. -/
  unit : Nat
  key : Nat := 0
  /-- 0 BULK, 1 INTERACTIVE, 2 DEADLINE. -/
  cls : Nat := 0
  /-- Saggar the charge is accounted to; 4096 for none. -/
  saggar : Nat := 4096
  full : Nat
  held : Nat := 0
  /-- Request pending: 0 none, 1 new, 2 upgrade. -/
  pend : Nat := 0
  /-- GTS at which a renewal became pending (14 R497), and the class and saggar of the work it is for (R494). -/
  renew : Option Nat := none
  next : Option (Nat × Nat) := none
  /-- GTS at which the pending request reached the reeve. -/
  arrived : Option Nat := none
  /-- Answered WAIT. -/
  waited : Bool := false
  /-- Watch tick of the grant or last renewal. -/
  since : Nat := 0
  /-- A release waits for the fall allowance (14 R496). -/
  releasing : Bool := false
  /-- Leave as the unit knows it: 0 none, 1 HALF, 2 FULL. -/
  known : Nat := 0
  deriving DecidableEq, Repr

/-- The reeve (14). -/
structure Reeve where
  permits : Tab Permit := []
  /-- Buckets of R500. -/
  rise : Nat := 3200
  fall : Nat := 3200
  /-- Effective budget in units of 0.25 W; M of the last window. -/
  bEff : Nat := 0
  m : Nat := 0
  throttle : Bool := false
  clamp : Bool := false
  /-- M and H at the start of CLAMP, and the charge taken back. -/
  clampM : Nat := 0
  clampH : Nat := 0
  clampTaken : Nat := 0
  clamps : DWord := 0
  ceilTicks : DWord := 0
  waits : DWord := 0
  halves : DWord := 0
  /-- Watch tick of the latest power window's end; number of the latest thermal window read, plus one (02 R56). -/
  powerWin : Nat := 0
  /-- One more than the number of the period of 8 ticks in which the last grant cycle ran (14 R498). -/
  cycle : Nat := 0
  thermWin : Nat := 0
  vin : Nat := 0
  energy : DWord := 0
  /-- Remainder of the energy below one mJ, in units of 0.25 W × 2 µs. -/
  energyRest : Nat := 0
  temp : Word := 0
  deriving DecidableEq, Repr

/-- Genlock input (02 R66, R67, R71). -/
structure Genlock where
  present : Bool := false
  gts : DWord := 0
  /-- Stamps of the last 16 edges, latest first. -/
  edges : List Nat := []
  period : Word := 0
  /-- Watch tick of the latest edge. -/
  last : Nat := 0
  deriving DecidableEq, Repr

/-- A foreign master heard by Announce (02 R61). -/
structure Master where
  clockId : DWord
  prio1 : Byte
  cls : Byte
  accuracy : Byte
  variance : BitVec 16
  prio2 : Byte
  steps : BitVec 16
  deriving DecidableEq, Repr

/-- The PTP servo (02 R61 to R63). -/
structure Servo where
  /-- 0 FREE_RUN, 1 ACQUIRING, 2 LOCKED, 3 HOLDOVER. -/
  state : Nat := 0
  master : Option DWord := none
  foreign : List Master := []
  /-- Mean path delay in units of 2^-41 ns, once measured. -/
  delay : Option Int := none
  good : Nat := 0
  bad : Nat := 0
  /-- Watch tick of the last valid Sync. -/
  lastSync : Nat := 0
  /-- A two-step Sync waiting for its Follow_Up: sequence and receive time. -/
  syncPend : Option (Nat × Int) := none
  /-- Delay_Req sent: sequence and send time. -/
  delayReq : Option (Nat × Int) := none
  /-- The last Sync's origin and receipt, for the delay. -/
  lastT : Option (Int × Int) := none
  /-- Changes of rho in the last second of GTS: tick and size (02 R63). -/
  changes : List (Nat × Nat) := []
  seq : Nat := 0
  deriving DecidableEq, Repr

/-- The time unit (02 R41 to R71). Media time counts units of 2^-41 ns. -/
structure TimeUnit where
  gts : DWord := 0
  epoch : Word := 0
  /-- GTS starts once the root PLL locks; it counts while this holds. -/
  locked : Bool := false
  refPresent : Bool := false
  holdover : Bool := false
  /-- GTS at which the loss of the reference was detected, while in holdover (02 R35). -/
  lostAt : Nat := 0
  refLoss : Nat := 0
  /-- The clock of every watchdog: GTS less the ticks a global stop held (18 R616). -/
  watch : Nat := 0
  mt : Nat := 0
  rate : Int := 0
  mtSecLatch : BitVec 48 := 0
  ptpOffset : Int := 0
  stepCount : Nat := 0
  servo : Servo := {}
  capture : Bool := false
  /-- A capture by a rollover or a genlock edge, of its tick's GTS and media time, that the next tick writes (02 R68, R69). -/
  pairDue : Option (DWord × Nat) := none
  onSecond : Bool := false
  onGenlock : Bool := false
  pairSeq : Word := 0
  pairGts : DWord := 0
  pairMt : Nat := 0
  gen : Genlock := {}
  deriving DecidableEq, Repr

/-- A watchpoint (18 R609 to R611). -/
structure Watchpoint where
  ctl : Word := 0
  base : BitVec 57 := 0
  limit : BitVec 57 := 0
  hits : DWord := 0
  last : Option Nat := none
  fired : Bool := false
  /-- An enable written while the saggar is PENDING_ON waits for its creation (18 R611). -/
  latched : Bool := false
  deriving DecidableEq, Repr

/-- The debug controller (18). -/
structure Debug where
  /-- 0 IDLE, 1 ARMED, 2 DRAINING, 3 STOPPED, 4 RESUMING. -/
  stop : Nat := 0
  armError : Bool := false
  byMedia : Bool := false
  t : DWord := 0
  mtSec : DWord := 0
  mtNs : Word := 0
  u : DWord := 0
  sampleOn : Bool := false
  interval : Nat := 0x1A
  /-- Watch tick of the latest window end sampled (02 R56). -/
  sampled : Nat := 0
  /-- Module ledger ring: index and the record's 32 bytes as a number. -/
  mled : Tab (BitVec 256) := []
  mledCount : DWord := 0
  sel : Nat := 0
  lost : DWord := 0
  /-- Records queued at their sources, oldest first; at most 16 a source (18 R600). -/
  queue : List Rec := []
  watch : Tab Watchpoint := []
  gtallies : Tab Tally := []
  deriving DecidableEq, Repr

end Sys2Proof
end

