-- ==== Sys2Proof/Types/Fence.lean ====
section
/-!
DEFINITION. The error and fence controller (16).
-/
namespace Sys2Proof

/-- A fence in progress (16 R549, R559): unit, error type of its cause, kind of the unit whose fence caused it (15 for none). -/
structure FenceJob where
  kind : Nat
  index : Nat
  etype : Nat
  parent : Nat := 15
  since : Nat := 0
  /-- Streams faulted, saggars killed, and the saggars whose ledgers receive the record. -/
  faulted : Nat := 0
  killed : Nat := 0
  dests : List Nat := []
  deriving DecidableEq, Repr

/-- Errors of a wheel in the current window of 2^30 ticks (16 R550). -/
structure WheelErr where
  ce : Nat := 0
  ue : Nat := 0
  deriving DecidableEq, Repr

/-- The controller. -/
structure FenceCtl where
  intStatus : BitVec 4 := 0
  intEnable : BitVec 4 := 0b1110
  /-- FEN_COUNT_c, c = 0 to 3. -/
  counts : List DWord := [0, 0, 0, 0]
  jobs : Tab FenceJob := []
  /-- The newest records of class UNIT or above, newest first, at most 8, each as 32 bytes. -/
  last : List (BitVec 256) := []
  /-- The newest failure records on the auxiliary supply, newest first, at most 16. -/
  fails : List (BitVec 256) := []
  wheelErr : Tab WheelErr := []
  /-- Watch tick of the latest window end of a unit: key kind × 4096 + index (02 R56). -/
  ended : Tab Nat := []
  /-- Fenced dies, die-to-die link, die-to-hub links, cartridges. -/
  dies : BitVec 2 := 0
  d2d : Bool := false
  hubLinks : BitVec 2 := 0
  ctgs : BitVec 8 := 0
  /-- Recoveries asked for and not ended (16 R563): kind, index, and whether it runs or waits for its fence. -/
  recs : List (Nat × Nat × Bool) := []
  /-- FEN_RECOVER_STATUS: the last request and its result. -/
  recResult : Nat := 0
  recKind : Nat := 0
  recIndex : Nat := 0
  deriving DecidableEq, Repr

end Sys2Proof
end

