-- ==== Sys2Proof/Types/Frame.lean ====
section
/-!
DEFINITION. The frame engine (12) and the tier mover (07 R282 to R285, 08 R305).
-/
namespace Sys2Proof

/-- What FRM_FLOW_BIND gives a flow (12 R432). -/
structure FlowBind where
  saggar : Nat
  base : DWord
  nbuf : Nat
  bufStride : DWord
  lineStride : Nat
  ready : DWord
  free : DWord
  deriving DecidableEq, Repr

/-- One edge a flow used, until its emission is over (12 R428 to R431): every tick derived from it is fixed. -/
structure FEdge where
  n : Word
  gts : Nat
  /-- D_n and E_n. -/
  d : Nat
  e : Nat
  rtp : Word
  /-- D_n has passed; the frame chosen then, or none. -/
  checked : Bool := false
  /-- READY_WORD before tick D_n, taken as that tick begins (02 R55). -/
  ready : Option Word := none
  frame : Option Word := none
  /-- Its emission does not take place: the one before it lasts past E_n (12 R450). -/
  skip : Bool := false
  deriving DecidableEq, Repr

/-- An emission in progress (12 R448). -/
structure Emission where
  n : Word
  frame : Word
  rtp : Word
  e : Nat
  /-- Packets sent. -/
  k : Nat := 0
  poisoned : Bool := false
  /-- Bytes read past the last packet: the rest of the sector in which it ended (09 R337). -/
  carry : List Byte := []
  deriving DecidableEq, Repr

/-- One flow (12 R431 to R438, R452). -/
structure Flow where
  /-- 0 OFF, 1 ON, 2 DRAINING, 3 PENDING_ON. -/
  st : Nat := 0
  enable : Bool := false
  enErr : Nat := 0
  bind : Option FlowBind := none
  frame : DWord := 0
  edgeGts : DWord := 0
  emitted : DWord := 0
  missed : DWord := 0
  skipped : DWord := 0
  consec : Nat := 0
  /-- Sequence number of the next packet (12 R449). -/
  seq : Word := 0
  /-- m of R437. -/
  m : Option Word := none
  /-- Number of the next edge, tick of the enable, and whether an edge has been used since. -/
  next : Word := 0
  since : Nat := 0
  started : Bool := false
  /-- Alignment point of the next edge: j of R428. -/
  j : Nat := 0
  /-- The engine flywheels (12 R429); genlock's latest edge it has used. -/
  flywheel : Bool := false
  usedGen : Nat := 0
  edges : List FEdge := []
  emission : Option Emission := none
  /-- FREE_WORD's value waits for the emission in progress to end (12 R438). -/
  freeDue : Option Word := none
  deriving DecidableEq, Repr

/-- A window of a reservation (12 R440): the frame, S and the window end. -/
structure ResWin where
  n : Word
  s : Nat
  e : Nat
  deriving DecidableEq, Repr

/-- One reservation (12 R440 to R444, R452). -/
structure Resv where
  /-- 0 IDLE, 1 PREEMPTING, 2 HELD, 3 RUNOUT. -/
  st : Nat := 0
  held : Nat := 0
  overruns : DWord := 0
  due : List ResWin := []
  cur : Option ResWin := none
  deriving DecidableEq, Repr

/-- The frame engine. -/
structure Frames where
  /-- The ST 2059-2 synchronization metadata the time unit passed on last (02 R61). -/
  tlv : List Byte := []
  flows : Tab Flow := []
  res : Tab Resv := []
  deriving DecidableEq, Repr

/-- Work of the tier mover: an offload, a restore or a move (07 R282, R284; 11 R417). -/
structure TierJob where
  /-- 0 offload, 1 restore of a layer-begin, 2 restore of a PREFETCH, 3 TIER_MOVE. -/
  kind : Nat
  saggar : Nat
  stream : Nat
  pos : Word := 0
  layer : Nat := 0
  /-- Source, destination and bytes of each range. -/
  ranges : List (DWord × DWord × Nat) := []
  sig : DWord := 0
  /-- Channels its 64 KiB units are dealt to, in turn (08 R305). -/
  chans : List Nat := [0]
  /-- A replay of the block has begun the stream's ring again: its end completes no command (05 R201). -/
  orphan : Bool := false
  deriving DecidableEq, Repr

end Sys2Proof
end

