-- ==== Sys2Proof/Types/Hub.lean ====
section
/-!
DEFINITION. Start-up, the configuration image in force, flash (15), the hub registers (19 R644), pins and inputs (20).
-/
namespace Sys2Proof

/-- HUB_STATE.STATE (15 R513, R543), register codes 0 to 8. -/
inductive ModSt where
  | off | aux | powering | loading | training | selfTest | ready | fencedHalf | failed
  deriving DecidableEq, Repr

/-- The register code of a module state (15 R543). -/
def ModSt.code : ModSt → Nat
  | .off => 0 | .aux => 1 | .powering => 2 | .loading => 3 | .training => 4 | .selfTest => 5 | .ready => 6
  | .fencedHalf => 7 | .failed => 8

/-- The image in force (15 R525 to R535): zero until LOADING ends. Fields keep the image's own numbers. -/
structure Image where
  modGib : Nat := 0
  ceLimit : Nat := 0
  stripeGib : Nat := 0
  idleOff : Bool := false
  idleTicks : Nat := 0
  bulkKib : Nat := 0
  interWait : Nat := 0
  bellExp : Nat := 0
  numScale : Int := 0
  quietSteps : Nat := 0
  autoRaise : Bool := false
  quietAlarm : Bool := false
  quietThr : Nat := 0
  lossL : Nat := 0
  parK : Nat := 0
  parM : Nat := 0
  /-- Words in the layouts of RVE_CFG_0 to RVE_CFG_3. -/
  rve : List Word := []
  charges : List Nat := []
  ptpCfg : Word := 0
  txLat : Int := 0
  rxLat : Int := 0
  idGiven : Bool := false
  modId : Nat := 0
  portEnable : Word := 0
  secureShare : Nat := 0
  pfc : Nat := 0
  guildPorts : Byte := 0
  ctgLim0 : Word := 0
  ctgLim1 : Word := 0
  eth : List (List Byte) := []
  routes : Tab DWord := []
  flows : List (List Byte) := []
  res : List (List Byte) := []
  groups : List (List Byte) := []
  memtest : Bool := false
  hubRelease : DWord := 0
  deriving DecidableEq, Repr

/-- One flash command (15 R541). -/
inductive FlashOp where
  /-- CONFIG_WRITE: slot, offset, the bytes still to be programmed; its first unit has begun. -/
  | write (slot off : Nat) (data : List Byte) (begun : Bool)
  | select (try_ : Bool) (slot : Nat)
  | status
  | log (first count : Nat)
  deriving DecidableEq, Repr

/-- A flash command at the root of trust: function and request of the mailbox, or none for PLDM. -/
structure FlashJob where
  who : Option (Nat × Nat) := none
  op : FlashOp
  deriving DecidableEq, Repr

/-- A command over I3C: MCTP, PLDM or SPDM (15 R539, 19 R641). -/
inductive OobCmd where
  | entdaa (address : Nat)
  | setEndpointId (eid : Nat)
  | baseDiscovery
  | requestUpdate (component offset length : Nat)
  | transferComplete (ok : Bool) (bytes : List Byte)
  | activateFirmware
  | sensor (id : Nat)
  | effecter (id state : Nat)
  | pdr (handle : Nat)
  | fru
  | version
  | capabilities
  | algorithms
  | digests
  | certificate
  | challenge
  | measurements (index : Nat)
  deriving DecidableEq, Repr

/-- Out-of-band management (15 R539, 19 R641). -/
structure Oob where
  /-- I3C dynamic address, once assigned; MCTP endpoint ID. -/
  i3c : Option Nat := none
  eid : Nat := 0
  /-- A PLDM firmware update in progress: slot, offset, length; the slot last written by one. -/
  update : Option (Nat × Nat × Nat) := none
  updated : Option Nat := none
  /-- Commands that have arrived during a module reset, in order (19 R643). -/
  held : List OobCmd := []
  deriving DecidableEq, Repr

/-- Hub registers and start-up (15, 19 R644, 20). -/
structure Hub where
  state : ModSt := .aux
  cause : Nat := 0
  fencedDie : Nat := 0
  memtest : Bool := false
  startKind : Nat := 0
  /-- A module reset requested: its start kind (15 R517). -/
  resetReq : Option Nat := none
  /-- MOD_RESET_N is low (20 R657). -/
  resetHeld : Bool := false
  /-- A module reset has stopped every unit and waits for the release of MOD_RESET_N (20 R657). -/
  halted : Bool := false
  /-- Flash commands in order; the first is being erased and programmed (15 R517, R541). -/
  flashJobs : List FlashJob := []
  entryGts : Tab DWord := []
  digest : BitVec 384 := 0
  /-- Measurements 2, 4 and 5 of 15 R538, fixed when LOADING ends. -/
  hubDigest : BitVec 384 := 0
  meas4 : List Byte := []
  meas5 : List Byte := []
  selftest : Word := 0
  svn : Nat := 0
  build : DWord := 0
  keyInForce : Nat := 0
  inForce : Nat := 0
  fromTry : Bool := false
  dirLost : Bool := false
  dirCopy : Nat := 0
  resultA : Nat := 0xFF
  resultB : Nat := 0xFF
  scratch : Tab Word := []
  measured : Bool := false
  /-- Watch tick at which the state was entered (15 R514). -/
  entered : Nat := 0
  /-- An orderly power-down is under way (20 R652). -/
  powerDown : Bool := false
  /-- PCIe link: speed, width, FLIT; host-side resets (19 R644). -/
  pcieSpeed : Nat := 0
  pcieWidth : Nat := 0
  pcieFlit : Bool := false
  pcieResets : Nat := 0
  numVfs : Nat := 0
  /-- Pins (20): power good; the slot straps as last seen, and as sampled at the entry of LOADING (20 R658). -/
  pwrGood : Bool := false
  pins : Nat := 0
  strap : Nat := 0
  deriving DecidableEq, Repr

end Sys2Proof
end

