-- ==== Sys2Proof/Types/Link.lean ====
section
/-!
DEFINITION. Ports, routes, Ethernet connections, cartridges, guilds and the collective engine (13).
-/
namespace Sys2Proof

/-- Port states (13 R462) in their register codes 0 to 5. -/
inductive PortSt where
  | off | training | on | draining | pendingOn | fenced
  deriving DecidableEq, Repr

/-- Register code of a port state (13 R490). -/
def PortSt.code : PortSt → Nat
  | .off => 0 | .training => 1 | .on => 2 | .draining => 3 | .pendingOn => 4 | .fenced => 5

/-- A data flit kept for replay (13 R458). -/
structure Kept where
  seq : Nat
  gts : DWord
  pkts : List Packet
  deriving DecidableEq, Repr

/-- One LNK_ port: 0 to 23 Spanor Link, 24 to 31 Ethernet (13 R462, R490). -/
structure Port where
  st : PortSt := .off
  enable : Bool := false
  failCause : Nat := 0
  /-- Retrains in window number `window` of 2^30 ticks. -/
  retrains : Nat := 0
  window : Nat := 0
  peerId : Nat := 0
  peerPort : Nat := 0
  flight : Nat := 0
  tx : DWord := 0
  rx : DWord := 0
  replays : DWord := 0
  fecCorr : DWord := 0
  crcErr : DWord := 0
  undelivered : DWord := 0
  /-- Packets that wait for a flit, in order of arrival, and the replay buffer. -/
  txq : List Packet := []
  kept : List Kept := []
  nextSeq : Nat := 1
  /-- Last data flit received in order; a NAK has been sent since one was accepted. -/
  rxSeq : Nat := 0
  nakSent : Bool := false
  /-- Replays since ACK_SEQ advanced, and the tick of the last advance (R458, R459). -/
  reps : Nat := 0
  lastAck : Nat := 0
  retraining : Bool := false
  /-- Tick of the last flit whose check held, or of the end of a training or retrain (R459). -/
  lastGood : Nat := 0
  /-- Tick of the last time mark (R492). -/
  markAt : Option Nat := none
  /-- Source served last among writes and collective data, by TCLASS (R465). -/
  turns : List Nat := [0, 0, 0, 0]
  /-- Credits of each hop class. -/
  credits : List Nat := [0, 0, 0, 0]
  /-- The securing bucket in hundredths of a byte, and the tick it was last filled (R465). -/
  bucket : Nat := 6553600
  bucketAt : Nat := 0
  /-- Bring-up leave has been asked for; tick at which training or a drain began. -/
  asked : Bool := false
  since : Nat := 0
  /-- Packets of data flits and datagrams received in a global stop and held (18 R615), in order of arrival. -/
  held : List Packet := []
  deriving DecidableEq, Repr

/-- An unacknowledged datagram (13 R473). -/
structure Sent where
  seq : Nat
  pkt : Packet
  sends : Nat := 1
  at_ : Nat := 0
  deriving DecidableEq, Repr

/-- One Ethernet connection, per destination module (13 R473). -/
structure Conn where
  ip : Word := 0
  nextSeq : Nat := 1
  kept : List Sent := []
  rxSeq : Nat := 0
  /-- Datagrams received out of order. -/
  stash : List (Nat × Packet) := []
  /-- Sending rate in units of 2^-16 of the port rate. -/
  rate : Nat := 65536
  /-- Tick before which its next datagram does not leave: below the port rate each holds back the next (R473). -/
  paceAt : Nat := 0
  /-- Ticks of the last notice received and the last notice sent. -/
  noticed : Option Nat := none
  notified : Option Nat := none
  deriving DecidableEq, Repr

/-- One cage position and its cartridge (13 R475 to R479). -/
structure Ctg where
  present : Bool := false
  ready : Bool := false
  fault : Bool := false
  app : Bool := false
  historyLost : Bool := false
  serial : BitVec 128 := 0
  n : Nat := 0
  b : Nat := 0
  th : Nat := 0
  writes : Nat := 0
  /-- The record held for the position on the auxiliary supply. -/
  held : List Byte := []
  /-- Windows of a second since insertion; that count, B and Θ at insertion and at each prediction, latest first. -/
  windows : Nat := 0
  /-- Tick at which the last of them was taken; their count at the last write of the record (R477, R478). -/
  win : Nat := 0
  wrote : Nat := 0
  hours : List (Nat × Nat × Nat) := []
  wear : Nat := 0
  remain : Nat := 0xFFFFFFFF
  state : Nat := 0
  deriving DecidableEq, Repr

/-- One bound guild (13 R480 to R482). -/
structure Guild where
  saggar : Nat
  rank : Nat
  n : Nat
  members : List DWord
  /-- 1 ON, 2 DRAINING, 3 PENDING_ON. -/
  st : Nat := 1
  seq : Word := 0
  /-- READY checks heard: sequence and rank, with the check; 65,536 higher for an ABORT. -/
  heard : List (Word × Nat × Nat) := []
  /-- Data units heard ahead of their command: the packets. -/
  early : List Packet := []
  waiters : List (Nat × Nat) := []
  latched : Option (Nat × Nat × List Byte) := none
  deriving DecidableEq, Repr

/-- A begun guild command (13 R483 to R488). -/
structure GJob where
  guild : Nat
  seq : Word
  stream : Nat
  pos : Word
  saggar : Nat
  layer : Nat := 0
  oper : Nat := 0
  op : Nat
  fmt : Nat
  outFmt : Nat
  /-- Elements, or bytes for the operations that move bytes: of a row, and rows. -/
  cols : Nat
  rows : Nat := 1
  dst : DWord
  dstride : Nat := 0
  sig : DWord
  /-- Contributions come as FP32; compression of foreign blocks and K_CODE. -/
  weighted : Bool := false
  comp : Nat := 0
  kcode : Nat := 0
  check : Nat := 0
  /-- Ranks to which this member's data has been sent; 65,536 higher when its reduced chunk has. -/
  sentTo : List Nat := []
  /-- Bytes of this member's contribution to each rank, its own among them. -/
  outs : Tab (List Byte) := []
  /-- Bytes received from each rank, by offset. -/
  parts : Tab (Tab Byte) := []
  /-- Bytes of the result, by offset. -/
  result : Tab Byte := []
  reduced : Bool := false
  stalled : Bool := false
  /-- Undelivered data and the ranks it is for, to be sent again (R488). -/
  unsent : List (Nat × Packet) := []
  deriving DecidableEq, Repr

/-- A bare signal on its way to a peer (10 R373, R377). -/
structure OpenSig where
  wheel : Nat
  saggar : Nat
  guild : Nat
  rank : Nat
  va : DWord
  op : Nat
  v : Word
  layer : Nat := 0
  oper : Nat := 0
  /-- The port that carries it (R394). -/
  port : Nat := 0
  deriving DecidableEq, Repr

/-- A put tag open at this receiver (13 R461): packets performed, and a packet was denied. -/
structure OpenTag where
  done : Nat := 0
  denied : Bool := false
  attach : Option Packet := none
  deriving DecidableEq, Repr

/-- The link side of the module (13). -/
structure Links where
  fabricId : Nat := 0
  ports : Tab Port := []
  /-- Physical table now ACTIVE, and the two tables. -/
  act : Nat := 0
  t0 : Tab DWord := []
  t1 : Tab DWord := []
  swap : Option Nat := none
  swapGts : DWord := 0
  conns : Tab Conn := []
  ctgs : Tab Ctg := []
  guilds : Tab Guild := []
  jobs : Tab GJob := []
  /-- Packets delivered to this module and not yet performed, with the port each came by. -/
  inbound : Tab (Nat × Packet) := []
  tags : Tab OpenTag := []
  sigs : Tab OpenSig := []
  deriving DecidableEq, Repr

end Sys2Proof
end

