-- ==== Sys2Proof/Machine/State.lean ====
section
/-!
DEFINITION. The state of the module, its reset value, and the reasons a command can stop.
-/
namespace Sys2Proof.Machine

/-- Why a command stops. -/
inductive Fault where
  /-- Raised by no meaning: the spec stops the module nowhere, and a command that names a unit the module does not have changes nothing
  (log entry 69). Safe: it never happens. -/
  | noSuchUnit
  deriving DecidableEq, Repr

/-- Why a command has no meaning. -/
inductive Refusal where
  /-- Raised by an arm of exec that is not written yet; no arm is. Safe: nothing can be proved of its effect. -/
  | notModelled (mnemonic : String)
  deriving DecidableEq, Repr

/-- Device memory and what lies around it (08). -/
structure MemSys where
  /-- Bytes as seen at the point of coherence; an unlisted byte reads 0x00. -/
  mem : List Host.Cell := []
  /-- Poisoned 32-byte sectors (08 R321): sector numbers, rising. -/
  poison : Tab Unit := []
  /-- 4 KiB pieces of secured saggars written since the last STEP (17 R570): physical address / 4096. -/
  dirty : Tab Unit := []
  frames : Tab Frame := []
  zeroJobs : Tab ZeroJob := []
  unmapJobs : Tab UnmapJob := []
  keys : Tab KeySlot := []
  slices : Tab Slice := []
  pcs : Tab PChan := []
  hbmStacks : Tab Stack := []
  grn : Tab GrnPort := []
  /-- The dies' shared TLBs (08 R313): key die × 512 + set; at most 8 to a set, most recently used first. -/
  dieTlb : Tab (List Xlat) := []
  /-- The walk caches: key die; at most 256 entries, most recently used first. -/
  walks : Tab (List WalkEntry) := []
  /-- The hub's translations, at most 8,192, most recently used first. -/
  hubTlb : List Xlat := []
  /-- By stack: one more than the number of the 24 hours of GTS it was last scrubbed in (08 R320). -/
  scrubs : Tab Nat := []
  deriving DecidableEq, Repr

/-- The crier (10). -/
structure Crier where
  waits : Tab Wait := []
  arrivals : Tab GArrival := []
  gwakes : Tab GWake := []
  colls : Tab Collector := []
  /-- Records of hub engines behind the 4 outstanding of their source, with their collector, oldest first (10 R388). -/
  behind : List (Nat × CRec) := []
  deriving DecidableEq, Repr

/-- The stream scheduler front end and the market (11). -/
structure Front where
  saggars : Tab Saggar := []
  streams : Tab Stream := []
  launches : Tab Launch := []
  /-- Pass values: key saggar × 4 + class (11 R420). -/
  passes : Tab Nat := []
  /-- Streams whose context is cached, most recently used first (11 R412). -/
  cached : List Nat := []
  /-- Context fetches under way, and doorbells (stream, tail) queued behind a full cache (11 R412). -/
  fetching : List (Nat × Word) := []
  queued : List (Nat × Word) := []
  hits : DWord := 0
  misses : DWord := 0
  preempts : DWord := 0
  /-- Work of the tier mover (08 R305). -/
  tier : Tab TierJob := []
  /-- Counters of the securing engine (17 R593). -/
  mirrorBytes : DWord := 0
  parityBytes : DWord := 0
  stallTicks : DWord := 0
  restores : DWord := 0
  deriving DecidableEq, Repr

/-- The host port (19). -/
structure HostPort where
  mbx : Tab Mailbox := []
  msix : Tab Msix := []
  fns : Tab PciFn := []
  reads : List HostRead := []
  /-- Host writes that wait for Bus Master Enable (19 R625): function, address, bytes. -/
  writes : List (Nat × DWord × List Byte) := []
  deriving DecidableEq, Repr

/-- The module. -/
structure State where
  /-- Commands waiting, first in, first out. -/
  pending : List Instr := []
  /-- Counts the free values drawn (the model's own field). -/
  freeCtr : Nat := 0
  /-- The next identity of something in flight (the model's own field). -/
  nextId : Nat := 1
  /-- What left the module, newest first (the model's own record). -/
  outbox : List Msg := []
  fuse : Fuse := {}
  hub : Hub := {}
  oob : Oob := {}
  img : Image := {}
  /-- Bytes of the configuration flash (15 R519); an unlisted byte is erased, 0xFF. -/
  flash : Tab Byte := []
  time : TimeUnit := {}
  wheels : Tab Wheel := []
  ms : MemSys := {}
  crier : Crier := {}
  front : Front := {}
  rve : Reeve := {}
  dbg : Debug := {}
  host : HostPort := {}
  link : Links := {}
  frm : Frames := {}
  fen : FenceCtl := {}
  deriving DecidableEq, Repr

/-- The module as the auxiliary input comes into range (15 R513): every field at its reset value. -/
def State.reset : State := {}

end Sys2Proof.Machine
end

