-- ==== Sys2Proof/Machine/Ops.lean ====
section
/-!
DEFINITION. Named operations over the state: access to its parts, free values and identities, the outcome of a
command, records and tallies (18), completions, events and MSI-X messages of the host interface (19).
-/
namespace Sys2Proof.Machine

/-- What a command answers. -/
abbrev Out := Host.Outcome State Fault Refusal

/-- A command's effect never touches the queue nor the fuses (the two commands that blow a fuse, 15 R536 and R537,
say so themselves). -/
def commit (s t : State) : Out := .next { t with pending := s.pending, fuse := s.fuse }

/-- Run `f` if the units named exist; a command that names a unit the module does not have reaches nothing and changes nothing (log entry
69). -/
def act (ok : Bool) (f : State → State) (s : State) : Out := commit s (if ok then f s else s)

/-- A command that reaches nothing: a write of no writable bit, a unit the module does not have. -/
def ignored (s : State) : Out := commit s s

/-- An effect that takes place on its occasion only: elsewhere the command changes nothing. -/
def whenD (occasion : Bool) (f : State → State) (s : State) : State := if occasion then f s else s

namespace State

def gts (s : State) : Nat := s.time.gts.toNat
def watch (s : State) : Nat := s.time.watch

/-- A fresh identity. -/
def fresh (s : State) : Nat × State := (s.nextId, { s with nextId := s.nextId + 1 })

/-- A free value of 256 bits. -/
def free (s : State) : BitVec 256 × State := (Config.freeWord s.freeCtr, { s with freeCtr := s.freeCtr + 1 })

/-- A message leaves the module. -/
def emit (s : State) (m : Msg) : State := { s with outbox := m :: s.outbox }

def wheel (s : State) (w : Nat) : Wheel := Tab.get {} s.wheels w
def setWheel (s : State) (w : Nat) (x : Wheel) : State := { s with wheels := Tab.put {} s.wheels w x }
def modWheel (s : State) (w : Nat) (f : Wheel → Wheel) : State := s.setWheel w (f (s.wheel w))

/-- Change every listed wheel. -/
def mapWheels (s : State) (f : Nat → Wheel → Wheel) : State :=
  { s with wheels := (Tab.mapv s.wheels f).filter fun e => e.2 != {} }

def saggar (s : State) (k : Nat) : Saggar := Tab.get {} s.front.saggars k
def setSaggar (s : State) (k : Nat) (x : Saggar) : State :=
  { s with front := { s.front with saggars := Tab.put {} s.front.saggars k x } }
def modSaggar (s : State) (k : Nat) (f : Saggar → Saggar) : State := s.setSaggar k (f (s.saggar k))

def stream (s : State) (n : Nat) : Stream := Tab.get {} s.front.streams n
def setStream (s : State) (n : Nat) (x : Stream) : State :=
  { s with front := { s.front with streams := Tab.put {} s.front.streams n x } }
def modStream (s : State) (n : Nat) (f : Stream → Stream) : State := s.setStream n (f (s.stream n))

def launch? (s : State) (id : Nat) : Option Launch := Tab.find s.front.launches id
def modLaunch (s : State) (id : Nat) (f : Launch → Launch) : State :=
  { s with front := { s.front with launches := Tab.modify s.front.launches id f } }
def dropLaunch (s : State) (id : Nat) : State :=
  { s with front := { s.front with launches := Tab.del s.front.launches id } }

def crew? (s : State) (w slot : Nat) : Option Crew := Tab.find (s.wheel w).crews slot
def setCrew (s : State) (w slot : Nat) (c : Crew) : State :=
  s.modWheel w fun x => { x with crews := Tab.ins x.crews slot c }
def modCrew (s : State) (w slot : Nat) (f : Crew → Crew) : State :=
  s.modWheel w fun x => { x with crews := Tab.modify x.crews slot f }

def slice (s : State) (c : Nat) : Slice := Tab.get {} s.ms.slices c
def setSlice (s : State) (c : Nat) (x : Slice) : State := { s with ms := { s.ms with slices := Tab.put {} s.ms.slices c x } }
def pc (s : State) (n : Nat) : PChan := Tab.get {} s.ms.pcs n
def setPc (s : State) (n : Nat) (x : PChan) : State := { s with ms := { s.ms with pcs := Tab.put {} s.ms.pcs n x } }
def stack (s : State) (n : Nat) : Stack := Tab.get {} s.ms.hbmStacks n
def setStack (s : State) (n : Nat) (x : Stack) : State := { s with ms := { s.ms with hbmStacks := Tab.put {} s.ms.hbmStacks n x } }
def grn (s : State) (n : Nat) : GrnPort := Tab.get {} s.ms.grn n
def setGrn (s : State) (n : Nat) (x : GrnPort) : State := { s with ms := { s.ms with grn := Tab.put {} s.ms.grn n x } }
/-- Frames of the die reserves (08 R292, R295). -/
def reserveFrame (n : Nat) : Bool := (decide (0x380000 ≤ n) && decide (n < 0x384000)) || (decide (0x780000 ≤ n) && decide (n < 0x784000))
/-- A frame of the table of 08 R306: the reserves are the module's own. -/
def frame (s : State) (n : Nat) : Frame := if reserveFrame n then { st := .module } else Tab.get {} s.ms.frames n
def setFrame (s : State) (n : Nat) (x : Frame) : State :=
  { s with ms := { s.ms with frames := Tab.put {} s.ms.frames n x } }
def key (s : State) (n : Nat) : KeySlot := Tab.get {} s.ms.keys n
def setKey (s : State) (n : Nat) (x : KeySlot) : State := { s with ms := { s.ms with keys := Tab.put {} s.ms.keys n x } }

def coll (s : State) (c : Nat) : Collector := Tab.get {} s.crier.colls c
def setColl (s : State) (c : Nat) (x : Collector) : State :=
  { s with crier := { s.crier with colls := Tab.put {} s.crier.colls c x } }

def mbx (s : State) (fn : Nat) : Mailbox := Tab.get {} s.host.mbx fn
def setMbx (s : State) (fn : Nat) (x : Mailbox) : State := { s with host := { s.host with mbx := Tab.put {} s.host.mbx fn x } }

/-- No stop of every unit is under way: a reset that waits for its release (20 R657), a power-down (20 R652). -/
def awake (s : State) : Bool := !s.hub.halted && !s.hub.powerDown

/-- READY or FENCED_HALF (15 R513). -/
def serving (s : State) : Bool := (s.hub.state == .ready || s.hub.state == .fencedHalf) && s.awake

/-- From tick T to the resume no unit issues anything new (18 R613). -/
def frozen (s : State) : Bool := 2 ≤ s.dbg.stop

/-- A window of `len` ticks ends with the tick before this one, and its end has not been taken, which was last at `done` (02 R56). -/
def windowEnds (s : State) (len done : Nat) : Bool := s.watch % len == 0 && s.watch != done

/-- The wheel is not fused off (00 R5, R6). -/
def present (s : State) (w : Nat) : Bool := decide (w < 192) && !s.fuse.absent.getLsbD w

/-- The die of a wheel (00 R4). -/
def wheelDie (w : Nat) : Nat := w / 96

end State

/-! ### Stamps and records (02 R45 to R47, 18 R595 to R601) -/

/-- The stamp of an event of wheel `w`: its GTS copy, one tick later for some cycles of a stretched wheel, never
below an earlier stamp of the wheel (02 R46, R47). -/
def wheelStamp (s : State) (w : Nat) : Nat × State :=
  let x := s.wheel w
  if x.ctl.period ≤ 4 then
    let g := max s.gts x.ctl.lastStamp
    (g, s.setWheel w { x with ctl := { x.ctl with lastStamp := g } })
  else
    let (v, s) := s.free
    let g := max (s.gts + (if v.getLsbD 0 then 1 else 0)) x.ctl.lastStamp
    (g, s.setWheel w { x with ctl := { x.ctl with lastStamp := g } })

/-- Bit group of a record type (18 R596). -/
def recGroup (type : Nat) : Nat := type / 32

/-- A payload from fields (value, low bit). -/
def payload (fs : List (Nat × Nat)) : BitVec 128 :=
  fs.foldl (fun p f => p ||| (BitVec.ofNat 128 f.1 <<< f.2)) 0

/-- A global tally counts the event (18 R606): only the saggar filter applies. -/
def globalHits (t : Tally) (event : Nat) (saggar : Option Nat) : Bool :=
  t.cfg.getLsbD 31 && (t.cfg.toNat % 512 == event) &&
    (!t.cfg.getLsbD 28 || saggar == none || saggar == some ((t.cfg.toNat / 2 ^ 16) % 4096))

/-- The TALLY_OVERFLOW payload of tally `i`, of wheel `w` or global, as it stood before the wrap to `v` (18 R597, R604). -/
def wrapPayload (glob : Bool) (w i : Nat) (t : Tally) (v : DWord) : BitVec 128 :=
  payload [(v.toNat, 64), (if glob then 0 else w, 56), (i, 50), (t.cfg.toNat % 512, 41), (1, 40), (if glob then 1 else 0, 39)]

/-- Global tally `i` counts one lost record. A wrap sets OVF and offers TALLY_OVERFLOW (18 R604); where the queue of 16 is full that
record is lost too, and DBG_LOST counts it (18 R600). -/
def lostTally (gts : DWord) (d : Debug) (i : Nat) (t : Tally) : Debug :=
  let ovf := t.value == BitVec.allOnes 64
  let t' := { t with value := t.value + 1, cfg := if ovf then t.cfg ||| (1#32 <<< 29) else t.cfg }
  let d := { d with gtallies := Tab.put {} d.gtallies i t' }
  let k := (t.cfg.toNat / 2 ^ 16) % 4096
  let m := t.cfg.getLsbD 28
  if !ovf then d
  else if (d.queue.filter fun q => q.source == 554).length < 16 then
    { d with queue := d.queue ++ [{ gts, type := 0xE1, source := 554, saggar := if m then k else 0xFFF, layer := 0xFFFFF, op := 0xFFF
                                    payload := wrapPayload true 0 i t t'.value, dests := if m then [k] else [], mod := !m }] }
  else { d with lost := d.lost + 1 }

/-- A record is lost: DBG_LOST and the global tallies of lost records count it (18 R601, R606), the tallies not in a stop (R614). -/
def countLost (s : State) (k : Option Nat) : State :=
  let d := { s.dbg with lost := s.dbg.lost + 1 }
  { s with dbg := if s.frozen then d else
      d.gtallies.foldl (fun d p => if globalHits p.2 0x010 k then lostTally s.time.gts d p.1 p.2 else d) d }

/-- One loss of a record at a destination (18 R601): DBG_LOST counts it, and a bound ledger whose mask takes the
record's group counts it in its pending loss. -/
def loseTo (s : State) (k : Nat) (r : Rec) : State :=
  let s := countLost s (some k)
  match (s.saggar k).ledger with
  | none => s
  | some l =>
    if l.mask.getLsbD (recGroup r.type) then
      s.modSaggar k fun x => { x with ledger := some { l with
        lost := l.lost + 1
        firstLost := if l.lost = 0 then r.type * 1024 + r.source else l.firstLost
        firstLostGts := if l.lost = 0 then r.gts else l.firstLostGts } }
    else s

/-- Offer a record to its source's queue of 16; a record offered to a full queue is lost (18 R600). -/
def offer (s : State) (r : Rec) : State :=
  if (s.dbg.queue.filter fun q => q.source == r.source).length < 16 then
    { s with dbg := { s.dbg with queue := s.dbg.queue ++ [r] } }
  else
    let s := r.dests.foldl (fun s k => loseTo s k r) s
    if r.mod then countLost s (if r.saggar < 4096 then some r.saggar else none) else s

/-- A record stamped now; a wheel's carries the stamp of its own clock and the stretch flag (02 R45, R46). -/
def record (s : State) (type source : Nat) (saggar : Nat) (payload : BitVec 128) (dests : List Nat) (mod : Bool)
    (layer : Nat := 0xFFFFF) (op : Nat := 0xFFF) : State :=
  if source < 192 then
    let (g, s) := wheelStamp s source
    offer s { gts := BitVec.ofNat 64 g, type, source, stretch := 4 < (s.wheel source).ctl.period, saggar, layer, op, payload, dests, mod }
  else offer s { gts := s.time.gts, type, source, saggar, layer, op, payload, dests, mod }

/-- A record of wheel `w` for one saggar. -/
def recordWheel (s : State) (w type saggar : Nat) (payload : BitVec 128) (mod : Bool)
    (layer : Nat := 0xFFFFF) (op : Nat := 0xFFF) : State :=
  record s type w saggar payload (if saggar < 4096 then [saggar] else []) mod layer op

/-! ### Tallies (18 R602 to R606) -/

/-- The tally counts an event of this saggar, layer and operator (18 R602). Saggar 4,096 stands for an event that no crew or command
caused: only a tally with no filter counts it. -/
def Tally.hits (t : Tally) (event saggar layer op : Nat) : Bool :=
  t.cfg.getLsbD 31 && (t.cfg.toNat % 512 == event) &&
  (if saggar = 4096 then !t.cfg.getLsbD 28 && t.mask == 0
   else (!t.cfg.getLsbD 28 || (t.cfg.toNat / 2 ^ 16) % 4096 == saggar) &&
     ((BitVec.ofNat 32 (layer * 4096 + op)) &&& t.mask == (t.mtch &&& t.mask)))

/-- Add to one tally; a wrap sets OVF and writes TALLY_OVERFLOW (18 R604). -/
def tallyAdd (s : State) (glob : Bool) (w i : Nat) (t : Tally) (n : Nat) : State :=
  let v := t.value.toNat + n
  let ovf := 2 ^ 64 ≤ v
  let t' := { t with value := BitVec.ofNat 64 v, cfg := if ovf then t.cfg ||| (1#32 <<< 29) else t.cfg }
  let s := if glob then { s with dbg := { s.dbg with gtallies := Tab.put {} s.dbg.gtallies i t' } }
    else s.modWheel w fun x => { x with tallies := Tab.put {} x.tallies i t' }
  if ovf then
    let k := (t.cfg.toNat / 2 ^ 16) % 4096
    let m := t.cfg.getLsbD 28
    record s 0xE1 (if glob then 554 else w) (if m then k else 0xFFF)
      (wrapPayload glob w i t t'.value) (if m then [k] else []) (!m)
  else s

/-- An event of wheel `w` counts `n` in every tally that matches (18 R602); none counts during a stop (18 R614) or in a stopped wheel (02
R58). -/
def tally (s : State) (w event : Nat) (saggar layer op : Nat) (n : Nat := 1) : State :=
  if s.frozen || n == 0 || (s.wheel w).ctl.stopGts.isSome then s else
  (s.wheel w).tallies.foldl (fun s p => if Tally.hits p.2 event saggar layer op then tallyAdd s false w p.1 p.2 n else s) s

/-- An event of wheel `w` that no crew or command caused. -/
def tallyBare (s : State) (w event : Nat) : State := tally s w event 4096 0xFFFFF 0xFFF

/-- An event of a crew. -/
def tallyCrew (s : State) (w : Nat) (c : Crew) (event : Nat) (n : Nat := 1) : State :=
  tally s w event c.saggar c.layer c.operator n

/-- A global tally event (18 R606): only the saggar filter applies. -/
def gtally (s : State) (event : Nat) (saggar : Option Nat) (n : Nat := 1) : State :=
  if s.frozen || n == 0 then s else
  s.dbg.gtallies.foldl (fun s p =>
    if globalHits p.2 event saggar then tallyAdd s true 0 p.1 p.2 n else s) s

/-! ### The host: MSI-X, completions and events (19 R635, R640) -/

/-- The function that owns an MSI-X vector (19 R639). -/
def vectorFn (v : Nat) : Nat := if v < 256 then 0 else (v - 256) / 7 + 1

/-- A function's first vector (19 R639). -/
def fnVector (fn : Nat) : Nat := if fn = 0 then 0 else 256 + 7 * (fn - 1)

/-- The function may make host requests now (19 R625). -/
def fnOpen (s : State) (fn : Nat) : Bool :=
  let f := Tab.get {} s.host.fns fn
  f.bme && !f.d3

/-- Send an MSI-X message, or set its pending bit while it is masked or its function may not send (19 R625, R640). -/
def sendMsix (s : State) (v : Nat) : State :=
  let m := Tab.get {} s.host.msix v
  if m.masked || !fnOpen s (vectorFn v) then
    { s with host := { s.host with msix := Tab.put {} s.host.msix v { m with pending := true } } }
  else s.emit (.msix v)

/-- Little-endian bytes of a number. -/
def leBytes : Nat → Nat → List Byte
  | 0, _ => []
  | n + 1, v => BitVec.ofNat 8 v :: leBytes n (v / 256)

/-- A number from little-endian bytes. -/
def leNat : List Byte → Nat
  | [] => 0
  | b :: l => b.toNat + 256 * leNat l

/-- Write bytes into a byte table from `at_` on. -/
def putBytes (t : Tab Byte) (at_ : Nat) : List Byte → Tab Byte
  | [] => t
  | b :: l => putBytes (Tab.put 0 t at_ b) (at_ + 1) l

/-- Read bytes from a byte table. -/
def getBytes (t : Tab Byte) (at_ : Nat) : Nat → List Byte
  | 0 => []
  | n + 1 => Tab.get 0 t at_ :: getBytes t (at_ + 1) n

/-- Write the next completion slot and advance MBX_CPL_TAIL (19 R635). -/
def mbxWrite (m : Mailbox) (bytes : List Byte) : Mailbox :=
  { m with cpl := putBytes m.cpl (0x20 * (m.cplTail.toNat % 32)) bytes, cplTail := m.cplTail + 1 }

/-- Write waiting completions and events into free completion slots, completions first, each with its MSI-X message
(19 R635). The list gives what waits; `fuel` bounds the slots. -/
def pushCpl (s : State) (fn : Nat) : Nat → State
  | 0 => s
  | fuel + 1 =>
    let m := s.mbx fn
    if (m.cplTail - m.cplHead).toNat < 32 then
      match m.cplWait, m.evWait with
      | c :: r, _ => pushCpl (sendMsix (s.setMbx fn (mbxWrite { m with cplWait := r } c)) (fnVector fn)) fn fuel
      | [], e :: r => pushCpl (sendMsix (s.setMbx fn (mbxWrite { m with evWait := r } e)) (fnVector fn)) fn fuel
      | [], [] => s
    else s

/-- A completion slot (19 R635). -/
def cplBytes (tag status kind gts : Nat) (result : List Byte) : List Byte :=
  leBytes 4 tag ++ leBytes 2 status ++ leBytes 1 kind ++ [0] ++ leBytes 8 gts ++ (result ++ List.replicate 16 0).take 16

/-- Complete request `n` of function `fn` (19 R635): the completion of a request taken before a reset is discarded
(19 R627, R628). -/
def complete (s : State) (fn n status : Nat) (result : List Byte := []) : State :=
  let m := s.mbx fn
  match m.inflight.find? (fun r => r.n == n) with
  | none => s
  | some r =>
    let m := { m with inflight := m.inflight.filter fun r => r.n != n }
    if r.discard then s.setMbx fn m
    else pushCpl (s.setMbx fn { m with
      cplWait := m.cplWait ++ [cplBytes (leNat ((r.body.drop 4).take 4)) status 0 s.gts result] }) fn 1

/-- Post an event to a function (19 R635): at most 64 wait, further ones are dropped and counted. -/
def postEvent (s : State) (fn kind : Nat) (result : List Byte) : State :=
  let m := s.mbx fn
  if m.evWait.length < 64 then
    pushCpl (s.setMbx fn { m with evWait := m.evWait ++ [cplBytes 0 0 kind s.gts result] }) fn 1
  else s.setMbx fn { m with lost := min (m.lost + 1) 0xFFFF }

end Sys2Proof.Machine
end

