-- ==== Sys2Proof/Machine/Memory.lean ====
section
/-!
DEFINITION. Device memory: bytes at the point of coherence, address map and homes (08 R292 to R298), the commons
(R299, R300), translation (R310), poison (R321), held ranges (05 R198), watchpoints (18 R609, R610), L1 (09) and
accesses made for a saggar.
-/
namespace Sys2Proof.Machine

/-! ### Bytes -/

/-- What a byte of memory reads as when nothing is listed for it (log entry 9). -/
def unlistedByte : Byte := 0

/-- The canonical form of memory: addresses strictly rising, no entry equal to what an unlisted byte reads as. -/
def Memory.wf (m : List Host.Cell) : Bool := Tab.canon unlistedByte none m

/-- One byte of device memory by physical address. -/
def memByte (s : State) (pa : Nat) : Byte := Tab.get unlistedByte s.ms.mem pa

/-- `n` bytes from `pa` on. -/
def memBytes (s : State) (pa : Nat) : Nat → List Byte
  | 0 => []
  | n + 1 => memByte s pa :: memBytes s (pa + 1) n

/-- Write one byte, keeping the canonical form. -/
def memPut1 (s : State) (pa : Nat) (b : Byte) : State :=
  { s with ms := { s.ms with mem := Tab.put unlistedByte s.ms.mem pa b } }

/-- Write bytes from `pa` on. -/
def memPut (s : State) (pa : Nat) : List Byte → State
  | [] => s
  | b :: l => memPut (memPut1 s pa b) (pa + 1) l

/-- A 32-bit word of memory. -/
def memWord (s : State) (pa : Nat) : Word := BitVec.ofNat 32 (leNat (memBytes s pa 4))

/-! ### Address map and homes (08 R292 to R298) -/

def gib : Nat := 2 ^ 30
def moduleBase : Nat := 0x008000000000
def granaryBase : Nat := 0x010000000000
def stripedBase : Nat := 0x018000000000
/-- Size of a die range (R292). -/
def dieRange (s : State) : Nat := 4 * (47 - s.img.modGib) * gib
/-- G of R293; every granary range is unpopulated on C384 (R9). -/
def stripeG (s : State) : Nat := s.img.stripeGib

/-- The ranges of R292 that saggars may map. -/
inductive Range where
  | die (d : Nat)
  | module
  | expander (n : Nat)
  | striped
  deriving DecidableEq, Repr

/-- The populated mappable range of a physical address (08 R292). -/
def rangeOf (s : State) (pa : Nat) : Option Range :=
  if pa < dieRange s then some (.die 0)
  else if 0x004000000000 ≤ pa ∧ pa < 0x004000000000 + dieRange s then some (.die 1)
  else if moduleBase ≤ pa ∧ pa < moduleBase + 8 * s.img.modGib * gib then some .module
  else if s.fuse.variant = 3 then none
  else if granaryBase ≤ pa ∧ pa < stripedBase then
    let n := (pa - granaryBase) / 0x002000000000
    if pa - (granaryBase + n * 0x002000000000) < (96 - stripeG s) * gib then some (.expander n) else none
  else if stripedBase ≤ pa ∧ pa < stripedBase + 4 * stripeG s * gib then some .striped
  else none

/-- The address lies in a die range, the module range or a die reserve (R292). -/
def nearTier (pa : Nat) : Bool := decide (pa < granaryBase)

/-- Bits [lo + n - 1 : lo] of a number. -/
def bits (v lo n : Nat) : Nat := v / 2 ^ lo % 2 ^ n

/-- Base of the range of a near-tier address (R292). -/
def nearBase (pa : Nat) : Nat :=
  if moduleBase ≤ pa then moduleBase
  else if 0x007800000000 ≤ pa then 0x007800000000
  else if 0x004000000000 ≤ pa then 0x004000000000
  else if 0x003800000000 ≤ pa then 0x003800000000 else 0

/-- Line number in the range: L of R296. -/
def nearLine (pa : Nat) : Nat := (pa - nearBase pa) / 128

/-- The address lies in a die reserve (R292). -/
def inReserve (pa : Nat) : Bool := nearBase pa == 0x007800000000 || nearBase pa == 0x003800000000

/-- Stack and pseudo-channel of a near-tier line (08 R296). -/
def stackPc (pa : Nat) : Nat × Nat :=
  let l := nearLine pa
  if moduleBase ≤ pa then
    ((bits l 0 3 ^^^ bits l 9 3) ^^^ bits l 18 3, (bits l 3 6 ^^^ bits l 12 6) ^^^ bits l 21 6)
  else
    let d := if 0x004000000000 ≤ pa then 1 else 0
    (4 * d + ((bits l 0 2 ^^^ bits l 8 2) ^^^ bits l 16 2), (bits l 2 6 ^^^ bits l 10 6) ^^^ bits l 18 6)

def mib : Nat := 2 ^ 20

/-- Line within the range's part of the pseudo-channel (R296). -/
def partLine (pa : Nat) : Nat := if moduleBase ≤ pa then nearLine pa / 512 else nearLine pa / 256

/-- The parts of a pseudo-channel, as first byte and end (R294): die-range lines, module-range lines, spare area, reserve lines. -/
def pcParts (s : State) : List (Nat × Nat) :=
  [(0, (47 - s.img.modGib) * 16 * mib), ((47 - s.img.modGib) * 16 * mib, 752 * mib), (752 * mib, 764 * mib), (764 * mib, 768 * mib)]

/-- The part of its pseudo-channel in which a near-tier address lies. -/
def partOf (pa : Nat) : Nat := if moduleBase ≤ pa then 1 else if inReserve pa then 3 else 0

/-- Byte offset of a near-tier address within its pseudo-channel (R294, R296). -/
def pcOffset (s : State) (pa : Nat) : Nat := ((pcParts s).getD (partOf pa) (0, 0)).1 + 128 * partLine pa + pa % 128

/-- The expander that holds a granary address (08 R298). -/
def expanderOf (pa : Nat) : Nat :=
  if pa < stripedBase then (pa - granaryBase) / 0x002000000000
  else
    let u := (pa - stripedBase) / 4096
    bits u 0 2 ^^^ bits u 2 2

/-- Byte offset of a granary address on its expander (R298). -/
def expanderOffset (s : State) (pa : Nat) : Nat :=
  if pa < stripedBase then (pa - granaryBase) % 0x002000000000
  else (96 - stripeG s) * gib + (pa - stripedBase) / 4096 / 4 * 4096 + pa % 4096

/-- Where a byte of device memory lies: pseudo-channel 64 × stack + p, or expander, and the byte offset in it. -/
inductive Place where
  | channel (n offset : Nat)
  | expander (n offset : Nat)
  deriving DecidableEq, Repr

def placeOfPa (s : State) (pa : Nat) : Place :=
  if nearTier pa then .channel (64 * (stackPc pa).1 + (stackPc pa).2) (pcOffset s pa) else .expander (expanderOf pa) (expanderOffset s pa)

/-- The home slice of a granary line whose home die is `d` (R298). -/
def granarySlice (d pa : Nat) : Nat :=
  let l := (pa - granaryBase) / 128
  64 * d + ((bits l 0 6 ^^^ bits l 6 6) ^^^ bits l 12 6)

/-- The home slice by address (08 R297, R298), before fencing. -/
def homeSlice (s : State) (pa : Nat) : Nat :=
  if nearTier pa then
    let (st, p) := stackPc pa
    64 * (st / 4) + 16 * (st % 4) + p % 16
  else granarySlice ((s.frame (pa / 65536)).home.getD 0) pa

/-- The slice that serves the address: the partner once the home is fenced (08 R325). -/
def servingSlice (s : State) (pa : Nat) : Nat :=
  let c := homeSlice s pa
  if (s.slice c).state = 2 then c ^^^ 1 else c

/-- A fenced slice's homes are still in transfer: accesses to them wait (08 R325). -/
def sliceBusy (s : State) (pa : Nat) : Bool := (s.slice (homeSlice s pa)).state == 1

/-- The 4 KiB unit of a migrating pseudo-channel under copy (R323): of 193,536 in all, in the order of their offsets and at the pace that
ends with the bound of 12,000,000 ticks (log entry 88). -/
def unitUnderCopy (s : State) (x : PChan) : Option Nat :=
  let u := (s.gts - x.since.toNat) * 193536 / 12000000
  if x.state = 1 ∧ u < 193536 then some u else none

/-- The address lies in a unit under copy: accesses to it wait (R323). -/
def copyBusy (s : State) (pa : Nat) : Bool :=
  nearTier pa &&
  let o := pcOffset s pa
  unitUnderCopy s (s.pc (64 * (stackPc pa).1 + (stackPc pa).2)) == some ((if 764 * mib ≤ o then o - 12 * mib else o) / 4096)

/-- An access to the line waits (R323, R325; log entry 104). -/
def lineBusy (s : State) (pa : Nat) : Bool := sliceBusy s pa || copyBusy s pa

/-- The key slot of the frame's owner (08 R318). -/
def lineKey (s : State) (pa : Nat) : Nat :=
  let f := s.frame (pa / 65536)
  match f.st with
  | .owned => f.owner
  | .zeroing => f.owner
  | _ => 4096

/-! ### The commons (08 R299, R300) -/

/-- The set of a line in its slice (R299). -/
def commonsSet (pa : Nat) : Nat := bits (pa / 128) 0 10 ^^^ bits (pa / 2 ^ 17) 0 10

/-- Remove the least recently used line that is not kept; the last of the set when all are kept (R300). -/
def evictLine (l : List CLine) : List CLine :=
  match (l.reverse.find? fun c => !c.keep) with
  | some v => l.filter fun c => c.line != v.line
  | none => l.dropLast

/-- Demote the least recently used keep line (R300). -/
def demote (l : List CLine) : List CLine :=
  match (l.reverse.find? fun c => c.keep) with
  | some v => l.map fun c => if c.line = v.line then { c with keep := false } else c
  | none => l

/-- One sector of a line becomes valid, and dirty by a write (R299). -/
def touchSector (x : CLine) (sector : Nat) (write : Bool) : CLine :=
  { x with valid := x.valid ||| 2 ^ sector, dirty := if write then x.dirty ||| 2 ^ sector else x.dirty }

/-- An access at the home slice: a hit refreshes the line's order of use, a miss allocates unless it streams (R300).
`cache` is the CACHE hint of 03 R103; a keep access that hits gives the line keep priority (07 R273). -/
def touchLine (s : State) (pa : Nat) (write : Bool) (cache : Nat) : State :=
  let c := servingSlice s pa
  let sl := s.slice c
  let set := commonsSet pa
  let l := Tab.get [] sl.sets set
  let line := pa / 128
  let owner := if lineKey s pa < 4096 then some (lineKey s pa) else none
  let room := fun (l : List CLine) => if cache == 2 && 8 ≤ (l.filter fun x => x.keep).length then demote l else l
  match l.find? (fun x => x.line == line) with
  | some x =>
    let s := gtally s (0x100 + 2 * c) owner
    let l := l.filter fun y => y.line != line
    let l := if x.keep then l else room l
    s.setSlice c { sl with
      sets := Tab.put [] sl.sets set ({ touchSector x (pa / 32 % 4) write with keep := x.keep || cache == 2 } :: l) }
  | none =>
    let s := gtally s (0x101 + 2 * c) owner
    if cache = 1 then s
    else
      let l := room l
      let l := if 16 ≤ l.length then evictLine l else l
      let x : CLine := { line, keep := cache == 2, key := lineKey s pa }
      s.setSlice c { sl with sets := Tab.put [] sl.sets set (touchSector x (pa / 32 % 4) write :: l) }

/-- Drop a line from every slice without writing it back (08 R315). -/
def dropLines (s : State) (p : CLine → Bool) : State :=
  { s with ms := { s.ms with
      slices := (Tab.mapv s.ms.slices fun _ sl => { sl with
        sets := (Tab.mapv sl.sets fun _ l => l.filter fun c => !p c).filter fun e => e.2 != [] }).filter
          fun e => e.2 != {} } }

/-! ### Poison (08 R321, R326, R327) -/

/-- The address lies in a part of memory that has left service: a fenced expander returns poison (R326), and a fenced
die's ranges, the module range and granary frames homed on it leave service (R327). -/
def outOfService (s : State) (pa : Nat) : Bool :=
  if nearTier pa then
    (if moduleBase ≤ pa then s.fen.dies != 0 else s.fen.dies.getLsbD (if 0x004000000000 ≤ pa then 1 else 0))
  else
    (s.grn (expanderOf pa)).state == .fenced ||
      (match (s.frame (pa / 65536)).home with
       | some d => s.fen.dies.getLsbD d
       | none => false)

/-- A read of the sector at `pa` delivers poison. -/
def poisoned (s : State) (pa : Nat) : Bool := Tab.has s.ms.poison (pa / 32) || outOfService s pa

/-- The poison bits of a line, a bit for each sector (R299): those of its place in memory, which the line holds. -/
def linePoison (s : State) (line : Nat) : Nat :=
  ((List.range 4).map fun i => if poisoned s (128 * line + 32 * i) then 2 ^ i else 0).sum

/-- Mark a sector poisoned. -/
def setPoison (s : State) (pa : Nat) : State :=
  { s with ms := { s.ms with poison := Tab.ins s.ms.poison (pa / 32) () } }

/-! ### Translation (08 R310 to R312) -/

/-- The leaf that covers a device-virtual address. -/
def mappingOf (m : Tab Mapping) (va : Nat) : Option (Nat × Mapping) :=
  m.find? fun e => decide (e.1 ≤ va) && decide (va < e.1 + e.2.size)

/-- Physical address and leaf of a pointer; bits [63:57] must be zero (R310). -/
def translate (s : State) (k : Nat) (va : DWord) : Option (Nat × Mapping) :=
  if va.toNat < 2 ^ 57 then
    (mappingOf (s.saggar k).maps va.toNat).map fun e => (e.2.pa + (va.toNat - e.1), e.2)
  else none

/-- Every page of [va, va + len) is mapped, with WRITE when asked. `fuel` bounds the pages looked at. -/
def mappedAll (m : Tab Mapping) (write : Bool) (va len : Nat) : Nat → Bool
  | 0 => len == 0
  | fuel + 1 =>
    if len = 0 then true else
    match mappingOf m va with
    | none => false
    | some (b, x) => (!write || x.write) && mappedAll m write (b + x.size) (len - min len (b + x.size - va)) fuel

/-- `mappedAll` of a saggar, with fuel for every 64 KiB page. -/
def rangeMapped (s : State) (k : Nat) (write : Bool) (va len : Nat) : Bool :=
  decide (va + len ≤ 2 ^ 57) && mappedAll (s.saggar k).maps write va len ((s.saggar k).maps.length + 1)

/-! ### Signals (10 R356 to R368) -/

/-- R364: the value has been reached. -/
def reached (cur target : Word) : Bool := decide ((cur - target).toNat < 2 ^ 31)

/-- The reach r of a REACH code (10 R365): 0 encodes 31. -/
def reachOf (code : Nat) : Nat := 2 ^ (if code % 32 = 0 then 31 else code % 32) - 1

/-- How a wait's target stands against the word (10 R365). -/
inductive WaitJudge where
  | satisfied | waits | stale
  deriving DecidableEq, Repr

def judge (c target : Word) (reach : Nat) : WaitJudge :=
  let d := (target - c).toNat
  if d = 0 ∨ 2 ^ 31 < d then .satisfied else if d ≤ reach then .waits else .stale

/-- The new value of a signal operation: 0 ADD, 1 SET, 2 OR (10 R357). -/
def sigValue (op : Nat) (old v : Word) : Word := if op = 0 then old + v else if op = 1 then v else old ||| v

/-- The STALE_WAIT record of a wait on a signal word (10 R365, R394). -/
def staleWait (s : State) (w : Wait) (c : Word) : State :=
  let p := payload [(c.toNat, 96), (w.target.toNat, 64), (w.va.toNat % 2 ^ 57, 7), (1, 5)]
  match w.who with
  | .thread wh sl _ _ _ =>
    match s.crew? wh sl with
    | some cr => recordWheel s wh 0x21 w.saggar p false cr.layer cr.operator
    | none => recordWheel s wh 0x21 w.saggar p false
  | .command n pos =>
    let b := (s.stream n).begun.find? fun b => b.pos.toNat == pos
    record s 0x21 518 w.saggar p [w.saggar] false ((b.map Begun.layer).getD 0xFFFFF) ((b.map Begun.op).getD 0xFFF)
  | .tail _ => s

/-- Judge wait `id` against the word and move it: satisfied or stale waits get their wake (10 R365, R368). -/
def judgeWait (s : State) (id : Nat) (w : Wait) (c : Word) (otherwise : WaitSt) : State :=
  match judge c w.target w.reach with
  | .satisfied => { s with crier := { s.crier with waits := Tab.ins s.crier.waits id { w with st := .woken } } }
  | .stale => staleWait { s with crier := { s.crier with waits := Tab.ins s.crier.waits id { w with st := .woken } } } w c
  | .waits => { s with crier := { s.crier with waits := Tab.ins s.crier.waits id { w with st := otherwise, read := s.watch } } }

/-- After an operation on the word at `pa`, every registered wait on it is judged again (10 R365, R368). -/
def judgeWord (s : State) (pa : Nat) : State :=
  s.crier.waits.foldl (fun s e =>
    if e.2.pa = pa ∧ e.2.st = .registered ∧ !e.2.isTail then judgeWait s e.1 e.2 (memWord s pa) .registered else s) s

/-! ### Tails (11 R410, R411) -/

/-- Offer tail `t` to stream `n` (11 R410). A stream that drains takes no later doorbell (11 R405). -/
def offerTail (s : State) (n : Nat) (t : Word) : State :=
  let x := s.stream n
  if x.st = 1 ∨ x.st = 2 then
    if reached t x.tail && decide ((t - x.head).toNat ≤ 2 ^ x.order) then
      gtally (s.setStream n { x with tail := t }) 0x005 (some x.saggar)
    else gtally (record s 0x22 518 x.saggar
      (payload [(n, 108), (t.toNat, 64), (x.tail.toNat, 32), (x.head.toNat, 0)]) [x.saggar] false) 0x006 (some x.saggar)
  else s

/-- Offer the value of a TAIL_WORD to its stream, and note it as the last offered (11 R411). -/
def takeTail (s : State) (id : Nat) (w : Wait) (v : Word) : State :=
  match w.who with
  | .tail n => offerTail { s with crier := { s.crier with waits := Tab.ins s.crier.waits id { w with target := v } } } n v
  | _ => s

/-- The word at `pa` took a value: every stream whose TAIL_WORD is registered on it gets it offered as a tail (11 R411). -/
def noteTail (s : State) (pa : Nat) : State :=
  s.crier.waits.foldl (fun s e =>
    if e.2.isTail && e.2.st == .registered && ((translate s e.2.saggar e.2.va).map Prod.fst == some pa) then
      takeTail s e.1 e.2 (memWord s pa)
    else s) s

/-- A wait that finds a place among the 512 of the word's home slice is registered there, else polled (10 R369); the waits on tail
words count (11 R411; log entry 100). -/
def placeOf (s : State) (pa : Nat) : WaitSt :=
  if (s.crier.waits.filter fun e => e.2.st == .registered && homeSlice s e.2.pa == homeSlice s pa).length < 512 then .registered
  else .polled

/-! ### What a performed write brings about -/

/-- Device-virtual addresses at which a saggar maps a physical address. -/
def vasOf (m : Tab Mapping) (pa : Nat) : List Nat :=
  m.filterMap fun e => if e.2.pa ≤ pa ∧ pa < e.2.pa + e.2.size then some (e.1 + (pa - e.2.pa)) else none

/-- The first write to a ONCE entry since its capture is recorded (17 R573). -/
def frozenWritten (s : State) (k : Nat) (pa : Nat) : State :=
  let g := s.saggar k
  let vas := vasOf g.maps pa
  let hit := fun (e : SecEnt) => e.method == some 2 && !e.written && vas.any fun v => decide (e.va ≤ v) && decide (v < e.va + e.bytes)
  ((List.range g.sec.table.length).zip g.sec.table).foldl (fun s (n, e) =>
    if hit e then
      record s 0x66 552 k (payload [(n, 112), (g.step.toNat, 64), (((vas.headD 0) / 4096 * 4096) % 2 ^ 57, 7)]) [k] false
    else s)
    (s.modSaggar k fun g => { g with sec := { g.sec with
      table := g.sec.table.map fun e => if hit e then { e with written := true } else e } })

/-- The home slice marks a written piece of a saggar that secures itself (17 R570). -/
def markDirty (s : State) (pa : Nat) : State :=
  let k := lineKey s pa
  if k < 4096 && (s.saggar k).sec.state != 0 then
    frozenWritten { s with ms := { s.ms with dirty := Tab.ins s.ms.dirty (pa / 4096) () } } k pa
  else s

/-- A write has changed [pa, pa + n): waits on its words are judged again (10 R365), tail words offer their values (11
R411). -/
def afterWrite (s : State) (pa n : Nat) : State :=
  let ws := (List.range ((n + pa % 4 + 3) / 4)).map fun j => pa / 4 * 4 + 4 * j
  markDirty (ws.foldl (fun s a => noteTail (judgeWord s a) a) s) pa

/-- Perform a write of bytes within one sector; one that covers the whole sector clears its poison (R321). The caller
has checked a partial write against poison. -/
def performWrite (s : State) (pa : Nat) (bs : List Byte) (cache : Nat) : State :=
  let s := if bs.length = 32 then { s with ms := { s.ms with poison := Tab.del s.ms.poison (pa / 32) } } else s
  afterWrite (touchLine (memPut s pa bs) pa true cache) pa bs.length

/-! ### Held ranges (05 R198) -/

/-- A copy of stream `n` is in flight: of its crews' copy engines, or of the tier mover for its commands. -/
def copiesLeft (s : State) (n : Nat) : Bool :=
  s.wheels.any (fun w => w.2.eng.copies.any fun e => e.stream == n) || s.front.tier.any fun e => e.2.stream == n

/-- A held range of some open layer of the saggar touches [va, va + len). Those of a FAULTED or aborted stream are held until every
copy of the stream has stopped (11 R405, R406). -/
def heldRange (s : State) (k : Nat) (va len : Nat) : Bool :=
  s.front.streams.any fun e =>
    e.2.saggar == k && e.2.st != 0 && ((e.2.st != 2 && !e.2.abort) || copiesLeft s e.1) &&
    match e.2.block with
    | none => false
    | some b => b.ranges.any fun r => decide (r.base < va + len) && decide (va < r.base + r.len)

/-! ### Watchpoints (18 R609, R610) -/

/-- Arm a global stop at `t` unless one is armed or in progress (18 R610). -/
def armByHit (s : State) (t : Nat) : State :=
  if s.dbg.stop = 0 then { s with dbg := { s.dbg with stop := 1, t := BitVec.ofNat 64 t } } else s

/-- One watchpoint against an access of `kind` by `source` for saggar `k`. -/
def watchOne (s : State) (i : Nat) (x : Watchpoint) (kind k stream source : Nat) (va len : Nat) : State :=
  if x.ctl.getLsbD 31 && x.ctl.toNat % 4096 == k && x.ctl.getLsbD (22 + kind) &&
     decide (x.base.toNat < va + len) && decide (va < x.limit.toNat) then
    let due := match x.last with
      | none => true
      | some t => decide (t + 256 ≤ s.gts)
    let rec_ := x.ctl.getLsbD 30 && due
    let stop := x.ctl.getLsbD 29 && !x.fired
    let s := { s with dbg := { s.dbg with
      watch := Tab.put {} s.dbg.watch i { x with
        hits := x.hits + 1, last := if rec_ then some s.gts else x.last, fired := x.fired || x.ctl.getLsbD 29 } } }
    let s := if rec_ then
        record s 0xE2 source k (payload [(i, 122), (kind, 119), (stream, 99), (Nat.log2 (min len 32), 96), (va, 0)])
          [k] true
      else s
    let s := if source < 192 then tally s source 0x0EA k 0xFFFFF 0xFFF else s
    if stop then armByHit s (s.gts + 256) else s
  else s

/-- Check an access against every watchpoint. Kinds: 0 load, 1 store, 2 atomic, 3 signal, 4 engine read, 5 engine
write, 6 remote write. -/
def watchAccess (s : State) (kind k stream source : Nat) (va : DWord) (len : Nat) : State :=
  s.dbg.watch.foldl (fun s e => watchOne s e.1 e.2 kind k stream source va.toNat len) s

/-- No line of a range waits: each address translates to a line that is not busy, or to none. -/
def settled (s : State) (k : Nat) (va : DWord) (n : Nat) : Bool :=
  (List.range ((va.toNat % 128 + n + 127) / 128)).all fun i => match translate s k (BitVec.ofNat 64 (va.toNat / 128 * 128 + 128 * i)) with
    | none => true
    | some (pa, _) => !lineBusy s pa

/-! ### Cached translations (08 R310, R313) -/

/-- An entry of a cache is used: it is the most recent, and the least recent leaves a full one (log entry 82). -/
def recent {α : Type} [DecidableEq α] (n : Nat) (x : α) (l : List α) : List α := (x :: l.filter (· ≠ x)).take n

/-- Lowest index bit of a level of the table tree. -/
def levelShift : Nat → Nat
  | 0 => 16 | 1 => 21 | 2 => 30 | 3 => 39 | _ => 48

/-- The level of a page size's leaves. -/
def leafLevel (size : Nat) : Nat := if size = 2 ^ 16 then 0 else if size = 2 ^ 21 then 1 else 2

/-- The entries above a leaf that a walk reads, from the top. -/
def upperEntries (k base size : Nat) : List WalkEntry :=
  ([4, 3, 2, 1].filter fun l => decide (leafLevel size < l)).map fun l => { saggar := k, level := l, idx := base / 2 ^ levelShift l }

/-- A lookup in die `d`'s shared TLB, which a walk fills on a miss; whether it missed. -/
def dieXlat (s : State) (d : Nat) (x : Xlat) (size : Nat) : Bool × State :=
  let set := 512 * d + x.base / 65536 % 512
  let l := Tab.get [] s.ms.dieTlb set
  let s := { s with ms := { s.ms with dieTlb := Tab.ins s.ms.dieTlb set (recent 8 x l) } }
  if l.contains x then (false, s)
  else (true, { s with ms := { s.ms with
    walks := Tab.ins s.ms.walks d ((upperEntries x.saggar x.base size).foldl (fun c e => recent 256 e c) (Tab.get [] s.ms.walks d)) } })

/-- Wheel `w` translates an address of a saggar through its own translations, its die's, or a walk; misses and walks count in its tallies
(18 R605). An address with no leaf is looked for everywhere and held nowhere. -/
def wheelXlat (s : State) (w k layer op : Nat) (va : DWord) : State :=
  let miss := fun (s : State) (l : List Nat) => l.foldl (fun s e => tally s w e k layer op) s
  match mappingOf (s.saggar k).maps va.toNat with
  | none => miss s [0x0E0, 0x0E1, 0x0E2]
  | some (base, m) =>
    let x : Xlat := { saggar := k, base }
    let held := (s.wheel w).mem.tlb.contains x
    let s := s.modWheel w fun y => { y with mem := { y.mem with tlb := recent 64 x y.mem.tlb } }
    if held then s else
    let (walked, s) := dieXlat s (State.wheelDie w) x m.size
    miss s (if walked then [0x0E0, 0x0E1, 0x0E2] else [0x0E0])

/-- The hub translates an address for one of its engines. -/
def hubXlat (s : State) (k : Nat) (va : DWord) : State :=
  match mappingOf (s.saggar k).maps va.toNat with
  | none => s
  | some (base, _) => { s with ms := { s.ms with hubTlb := recent 8192 { saggar := k, base } s.ms.hubTlb } }

/-- Cached translations go: the leaves `p` names, and the upper entries of the saggars `q` names (R314). -/
def dropXlats (s : State) (p : Xlat → Bool) (q : Nat → Bool) : State :=
  let keep := fun (l : List Xlat) => l.filter fun x => !p x
  let t := { s with ms := { s.ms with
    hubTlb := keep s.ms.hubTlb
    dieTlb := (Tab.mapv s.ms.dieTlb fun _ l => keep l).filter fun e => e.2 != []
    walks := (Tab.mapv s.ms.walks fun _ (l : List WalkEntry) => l.filter fun (x : WalkEntry) => !q x.saggar).filter fun e => e.2 != [] } }
  { t with wheels := Tab.mapv t.wheels fun _ (x : Wheel) => { x with mem := { x.mem with tlb := keep x.mem.tlb } } }

/-! ### Accesses of engines, at home slices (09 R335) -/

/-- Why an access fails. -/
inductive AccErr where
  /-- Translation or rights. -/
  | translation
  | poison
  | held
  /-- The line is in transfer: the access waits, and nothing is done (R323, R325). -/
  | busy
  deriving DecidableEq, Repr

/-- Who makes an engine access. -/
structure Who where
  saggar : Nat
  stream : Nat := 0xFFFFF
  source : Nat
  /-- Writes the module makes on its own account skip WRITE, held ranges and watchpoints (08 R312). -/
  own : Bool := false
  cache : Nat := 0
  layer : Nat := 0xFFFFF
  oper : Nat := 0xFFF
  /-- Its accesses wait for lines in transfer. -/
  waits : Bool := true

/-- The translation of an access: by the wheel for its own engines, by the hub for the others (R313). -/
def engXlat (s : State) (a : Who) (va : DWord) : State :=
  if a.source < 192 then wheelXlat s a.source a.saggar a.layer a.oper va else hubXlat s a.saggar va

/-- A read within one sector. -/
def engRead (s : State) (a : Who) (va : DWord) (n : Nat) : (Except AccErr (List Byte)) × State :=
  let s := engXlat s a va
  let s := if a.own then s else watchAccess s 4 a.saggar a.stream a.source va n
  match translate s a.saggar va with
  | none => (.error .translation, s)
  | some (pa, _) =>
    if a.waits && lineBusy s pa then (.error .busy, s)
    else if poisoned s pa then (.error .poison, s)
    else (.ok (memBytes s pa n), touchLine s pa false a.cache)

/-- A read that may cross sectors: each sector in turn. `fuel` bounds the sectors. -/
def engReadN (s : State) (a : Who) (va : DWord) (n : Nat) : Nat → (Except AccErr (List Byte)) × State
  | 0 => (.ok [], s)
  | fuel + 1 =>
    if n = 0 then (.ok [], s) else
    let m := min n (32 - va.toNat % 32)
    match engRead s a va m with
    | (.error e, s) => (.error e, s)
    | (.ok l, s) =>
      match engReadN s a (va + BitVec.ofNat 64 m) (n - m) fuel with
      | (.error e, s) => (.error e, s)
      | (.ok l', s) => (.ok (l ++ l'), s)

/-- A write within one sector. -/
def engWrite (s : State) (a : Who) (va : DWord) (bs : List Byte) : Option AccErr × State :=
  let s := engXlat s a va
  let s := if a.own then s else watchAccess s 5 a.saggar a.stream a.source va bs.length
  match translate s a.saggar va with
  | none => (some .translation, s)
  | some (pa, m) =>
    if !a.own && !m.write then (some .translation, s)
    else if !a.own && heldRange s a.saggar va.toNat bs.length then (some .held, s)
    else if a.waits && lineBusy s pa then (some .busy, s)
    else if poisoned s pa && bs.length != 32 then (some .poison, s)
    else (none, performWrite s pa bs a.cache)

/-- A write that may cross sectors; it stops at the first failing sector. -/
def engWriteN (s : State) (a : Who) (va : DWord) (bs : List Byte) : Nat → Option AccErr × State
  | 0 => (none, s)
  | fuel + 1 =>
    if bs = [] then (none, s) else
    let m := min bs.length (32 - va.toNat % 32)
    match engWrite s a va (bs.take m) with
    | (some e, s) => (some e, s)
    | (none, s) => engWriteN s a (va + BitVec.ofNat 64 m) (bs.drop m) fuel

/-- Copy `n` bytes from `src` to `dst`, destination sector by destination sector, stopping at the failing one
(03 R102). -/
def engCopy (s : State) (a : Who) (src dst : DWord) (n : Nat) : Nat → Option AccErr × State
  | 0 => (none, s)
  | fuel + 1 =>
    if n = 0 then (none, s) else
    let m := min n (32 - dst.toNat % 32)
    match engReadN s a src m 2 with
    | (.error e, s) => (some e, s)
    | (.ok l, s) =>
      match engWrite s a dst l with
      | (some e, s) => (some e, s)
      | (none, s) => engCopy s a (src + BitVec.ofNat 64 m) (dst + BitVec.ofNat 64 m) (n - m) fuel

/-- Fuel that covers every sector of `n` bytes. -/
def sectors (n : Nat) : Nat := n / 32 + 2

/-! ### L1 (09 R332, R338, R343) -/

/-- An acquire of saggar `k` on wheel `w`: its L1 lines go, and its fills in flight are not installed (09 R343). -/
def acquire (s : State) (w k : Nat) (layer : Nat := 0xFFFFF) (op : Nat := 0xFFF) : State :=
  let s := tally (tally s w 0x0E4 k layer op) w 0x0E6 k layer op ((s.wheel w).mem.l1.filter fun e => e.2.saggar == k).length
  s.modWheel w fun x => { x with mem := { x.mem with
    l1 := x.mem.l1.filter fun e => e.2.saggar != k
    reads := x.mem.reads.map fun r => if r.saggar = k then { r with noInstall := true } else r } }

/-- Invalidate the saggar's lines in every wheel of its rights (09 R349, 07 R284). -/
def acquireRights (s : State) (k : Nat) : State :=
  (Tab.keys s.wheels).foldl (fun s w => if (s.saggar k).cfg.rights.getLsbD w then acquire s w k else s) s

/-- A sector of a wheel's L1. -/
def l1Sector (s : State) (w pa : Nat) : Option L1Sector := Tab.find (s.wheel w).mem.l1 (pa / 32)

/-- Put bytes into a list at an offset. -/
def patch (l : List Byte) (off : Nat) (bs : List Byte) : List Byte := l.take off ++ bs ++ l.drop (off + bs.length)

/-- Sectors that L1 has room for beside `split` × 64 KiB of local store (03 R80). -/
def l1Room (split : Nat) : Nat := 32 * (512 - 64 * split)

/-- L1 takes a sector; where it is full a sector leaves, which one is not stated (log entry 24). -/
def l1Install (s : State) (w key : Nat) (e : L1Sector) : State :=
  let x := s.wheel w
  if Tab.has x.mem.l1 key || decide (x.mem.l1.length < l1Room x.ctl.split) then
    s.modWheel w fun x => { x with mem := { x.mem with l1 := Tab.ins x.mem.l1 key e } }
  else
    let (v, s) := s.free
    s.modWheel w fun x => { x with mem := { x.mem with l1 := Tab.ins (x.mem.l1.eraseIdx (v.toNat % x.mem.l1.length)) key e } }

/-- A store updates the wheel's copy of its sector when present, and the sector that an earlier read is bringing (09 R332, R338). -/
def l1Store (s : State) (w pa : Nat) (bs : List Byte) : State :=
  s.modWheel w fun x => { x with mem := { x.mem with
    l1 := Tab.modify x.mem.l1 (pa / 32) fun e => { e with bytes := patch e.bytes (pa % 32) bs }
    reads := x.mem.reads.map fun r =>
      if r.pa / 32 = pa / 32 ∧ r.sector ≠ [] then { r with sector := patch r.sector (pa % 32) bs } else r } }

/-- An atomic invalidates its sector in the issuing wheel's L1 (09 R338). -/
def l1Drop (s : State) (w pa : Nat) : State :=
  s.modWheel w fun x => { x with mem := { x.mem with
    l1 := Tab.del x.mem.l1 (pa / 32)
    reads := x.mem.reads.map fun r => if r.pa / 32 = pa / 32 then { r with noInstall := true } else r } }

end Sys2Proof.Machine
end

