-- ==== Sys2Proof/Machine/Faults.lean ====
section
/-!
DEFINITION. What many commands share on the stream side: tails and HEAD (11 R409, R410), signals that hub engines
advance (10 R356, R361, R674), group bell releases (10 R380, R381), stopping crews, stream faults (11 R406) and crew
faults (03 R120).
-/
namespace Sys2Proof.Machine

/-! ### Signals of hub engines -/

/-- Apply a signal operation at the word's home slice and judge the waits on it (10 R356, R365, R368). -/
def applySignal (s : State) (pa op : Nat) (v : Word) : State :=
  performWrite s pa (leBytes 4 (sigValue op (memWord s pa) v).toNat) 0

/-- A hub engine signals a word of the saggar it works for (10 R361): nothing is applied where the word fails translation or WRITE, or
is poisoned (10 R674). -/
def engSignal (s : State) (a : Who) (va : DWord) (op : Nat) (v : Word) : Option AccErr × State :=
  let s := watchAccess (engXlat s a va) 3 a.saggar a.stream a.source va 4
  match translate s a.saggar va with
  | none => (some .translation, s)
  | some (pa, m) =>
    if !m.write then (some .translation, s)
    else if poisoned s pa then (some .poison, s)
    else (none, applySignal s pa op v)

/-! ### Collectors -/

/-- Records of a source that wait toward collectors (10 R388). -/
def outstanding (s : State) (source : Nat) : Nat :=
  (s.crier.colls.map fun (e : Nat × Collector) => (e.2.offered.filter fun r => r.source == source).length).sum

/-- Offer a record to collector `c` (10 R386, R388). -/
def offerRec (s : State) (c : Nat) (r : CRec) : State :=
  let x := s.coll c
  if x.bound && x.unbinding.isNone then s.setColl c { x with offered := x.offered ++ [r] } else s

/-- Records of hub engines go on to their collectors, each behind the earlier ones of its source, while that source has fewer than 4
outstanding (10 R388). -/
def sendBehind (s : State) : State :=
  s.crier.behind.foldl (fun s e =>
    if outstanding s e.2.source < 4 && !(s.crier.behind.any fun q => q.2.source == e.2.source) then offerRec s e.1 e.2
    else { s with crier := { s.crier with behind := s.crier.behind ++ [e] } })
    { s with crier := { s.crier with behind := [] } }

/-- A hub engine reports completed work to collector `c` (10 R386), under its own source number (log entry 99). -/
def hubRec (s : State) (c : Nat) (r : CRec) : State :=
  if (s.coll c).bound then sendBehind { s with crier := { s.crier with behind := s.crier.behind ++ [(c, r)] } } else s

/-- Records waiting at hub engines for collector `c` are discarded (10 R675). -/
def dropBehind (s : State) (c : Nat) : State :=
  sendBehind { s with crier := { s.crier with behind := s.crier.behind.filter fun e => e.1 != c } }

/-- A function writes bytes to host memory, or the write waits for its Bus Master Enable (19 R624, R625). -/
def hostWrite (s : State) (fn : Nat) (addr : DWord) (bs : List Byte) : State :=
  if fnOpen s fn then s.emit (.hostWrite fn addr bs)
  else { s with host := { s.host with writes := s.host.writes ++ [(fn, addr, bs)] } }

/-! ### Group bells (10 R380, R381) -/

def gbell (s : State) (k h : Nat) : GBell := Tab.get {} (s.saggar k).gbells h
def setGbell (s : State) (k h : Nat) (g : GBell) : State :=
  s.modSaggar k fun x => { x with gbells := Tab.put {} x.gbells h g }

/-- Paths of resident crews that wait at bell `h` of saggar `k` for a phase that `phase` has passed: (wheel, slot, uid,
path). -/
def gWaiters (s : State) (k h : Nat) (phase : Word) : List GWake :=
  s.wheels.flatMap fun we => we.2.crews.flatMap fun ce =>
    if ce.2.saggar = k then ce.2.paths.filterMap fun pe =>
      match pe.2.wait with
      | .gbell h' p => if h' = h && reached phase (p + 1) then some { wheel := we.1, slot := ce.1, uid := ce.2.uid, path := pe.1 } else none
      | _ => none
    else []

/-- Wakes leave the bell (10 R382). -/
def addGWakes (s : State) (l : List GWake) : State :=
  l.foldl (fun s g =>
    if s.crier.gwakes.any fun e => e.2.uid == g.uid && e.2.path == g.path then s else
    let (id, s) := s.fresh
    { s with crier := { s.crier with gwakes := Tab.ins s.crier.gwakes id g } }) s

/-- Release the phase if every member has arrived (10 R380). -/
def gRelease (s : State) (k h : Nat) : State :=
  let g := gbell s k h
  if g.members != [] && g.arrived.length == g.members.length && !g.broken then
    let s := setGbell s k h { g with arrived := [], phase := g.phase + 1, since := none }
    addGWakes s (gWaiters s k h (g.phase + 1))
  else s

/-- A crew leaves a bell; its arrival in the phase is withdrawn, and the leave is counted first (10 R379, R381). -/
def gLeave (s : State) (k h uid : Nat) : State :=
  let g := gbell s k h
  let arrived := g.arrived.filter (· != uid)
  gRelease (setGbell s k h { g with
    members := g.members.filter (· != uid), arrived, since := if arrived = [] then none else g.since }) k h

/-- A crew leaves every bell of which it is a member (10 R381); arrivals on their way go with it. -/
def leaveBells (s : State) (k uid : Nat) : State :=
  let s := { s with crier := { s.crier with arrivals := s.crier.arrivals.filter fun e => e.2.uid != uid } }
  (s.saggar k).gbells.foldl (fun s e => if uid ∈ e.2.members then gLeave s k e.1 uid else s) s

/-! ### Stopping crews (03 R120, 11 R400) -/

/-- Bytes a crew's context takes in the save area (11 R399). -/
def contextBytes (r : Res) : Nat :=
  (1024 + 128 * r.g + 1024 * r.t + 1024 * r.a + 1024 * r.s + 4095) / 4096 * 4096

/-- A copy that touches neither local store nor accumulators: it outlives its crew's exit (log entry 12). -/
def deviceOnly : CopyKind → Bool
  | .copy1 2 .. => true
  | .copy2 2 .. => true
  | .rput .. => true
  | _ => false

/-- Withdraw what crew `uid` has in the wheel's engines: entries, copies, reads. Stores already issued stay. -/
def withdraw (x : Wheel) (uid : Nat) (keepDev : Bool := false) : Wheel :=
  let gone := (x.eng.mxq.filter fun e => e.uid == uid).map MxEntry.id
  { x with
    eng := { x.eng with
      mxq := (x.eng.mxq.filter fun e => e.uid != uid).map fun e =>
        match e.partner with
        | some p => if p ∈ gone then { e with partner := none } else e
        | none => e
      mvq := x.eng.mvq.filter fun e => e.uid != uid
      vecq := x.eng.vecq.filter fun e => e.uid != uid
      copies := x.eng.copies.filter fun e => e.uid != uid || (keepDev && deviceOnly e.kind) }
    mem := { x.mem with reads := x.mem.reads.filter fun e => e.uid != uid } }

/-- A queue that a withdrawal has emptied lingers from now (14 R495). -/
def lingers (x y : Wheel) (now : Nat) : Wheel :=
  if x.eng.mxq != [] && y.eng.mxq == [] then { y with eng := { y.eng with lingerSince := some now } } else y

/-- The wait belongs to the crew in this slot. -/
def waitOf (w slot uid : Nat) (x : Wait) : Bool :=
  match x.who with
  | .thread w' sl u _ _ => w' == w && sl == slot && u == uid
  | _ => false

/-- The slot is empty: its paths wait for no turn (03 R83, R88). -/
def leaveSlot (x : Wheel) (slot : Nat) : Wheel :=
  { x with crews := Tab.del x.crews slot
           sched := { x.sched with ages := x.sched.ages.filter fun e => e.1 / 32 != slot, stalled := x.sched.stalled.filter fun k => k / 32 != slot } }

/-- A crew leaves its slot: its resources are free at once (03 R88), its save bytes return (11 R400), it leaves its
group bells (10 R381) and everything it had in flight but its issued stores goes. -/
def dropCrew (s : State) (w slot : Nat) (keepDev : Bool := false) : State :=
  match s.crew? w slot with
  | none => s
  | some c =>
    let s := s.modWheel w fun x => lingers x (withdraw (leaveSlot x slot) c.uid keepDev) s.watch
    let s := { s with crier := { s.crier with
      waits := s.crier.waits.filter fun e => !waitOf w slot c.uid e.2
      gwakes := s.crier.gwakes.filter fun e => e.2.uid != c.uid } }
    let s := s.modSaggar c.saggar fun x => { x with saved := x.saved - contextBytes c.res }
    let s := leaveBells s c.saggar c.uid
    s.modWheel w fun x => if x.crews = [] && x.work.deque = [] then
      { x with ctl := { x.ctl with idleSince := some s.watch } } else x

/-- Stop every resident crew that satisfies `p`. -/
def stopCrews (s : State) (p : Crew → Bool) : State :=
  (s.wheels.flatMap fun we => we.2.crews.filterMap fun ce => if p ce.2 then some (we.1, ce.1) else none).foldl
    (fun s e => dropCrew s e.1 e.2) s

/-- Tasks of the launches that satisfy `p` leave the market and every deque. -/
def dropTasks (s : State) (p : Nat → Launch → Bool) : State :=
  let ids := (s.front.launches.filter fun e => p e.1 e.2).map Prod.fst
  let s := s.mapWheels fun _ x => if !(x.work.deque.any fun (r : TaskRange) => ids.contains r.launch) then x else
    { x with ctl := { x.ctl with idleSince := some s.watch } }
  let s := s.mapWheels fun _ x => { x with work := { x.work with
    deque := x.work.deque.filter fun (r : TaskRange) => !(ids.contains r.launch)
    kept := x.work.kept.filter fun (r : TaskRange) => !(ids.contains r.launch)
    probeGave := x.work.probeGave.map fun o => o.filter fun (r : TaskRange) => !(ids.contains r.launch) } }
  { s with front := { s.front with launches := s.front.launches.filter fun e => !(p e.1 e.2) } }

/-- The saggar's save bytes of resumable tasks that are dropped return with their launch, and their crews leave their group
bells (10 R381). -/
def releaseSaves (s : State) (p : Nat → Launch → Bool) : State :=
  (s.front.launches.filter fun e => p e.1 e.2).foldl (fun s e =>
    let waiting := s.wheels.flatMap fun w => (w.2.work.deque ++ w.2.work.kept).filterMap fun (r : TaskRange) =>
      if r.launch = e.1 then r.saved else none
    let left := e.2.resumables ++ waiting
    let s := left.foldl (fun s r => leaveBells s e.2.saggar r.crew.uid) s
    s.modSaggar e.2.saggar fun x =>
      { x with saved := x.saved - (left.map fun r => contextBytes r.crew.res).sum }) s

/-- Every crew of the stream stops and its tasks leave the market and every deque (03 R120). -/
def stopStream (s : State) (n : Nat) : State :=
  let s := stopCrews s fun c => c.stream == n
  dropTasks (releaseSaves s fun _ l => l.stream == n) fun _ l => l.stream == n

/-- A stream fault (11 R406): the stream is FAULTED with its code and GTS, its crews stop, its waits end, and its function's mailbox
posts the event (19 R635). Its held ranges end with its copies (`heldRange`). -/
def streamFault (s : State) (n code : Nat) : State :=
  let x := s.stream n
  if x.st = 1 ∨ ((x.st = 3 ∨ x.st = 4) ∧ x.abort = false) then
    let s := stopStream s n
    let x := s.stream n
    let s := s.setStream n { x with
      st := if x.st = 1 then 2 else x.st, abort := x.abort || x.st != 1, faultCode := code, faultGts := s.time.gts }
    let s := { s with crier := { s.crier with waits := s.crier.waits.filter fun e =>
      match e.2.who with
      | .command m _ => m != n
      | _ => true } }
    postEvent s (s.saggar x.saggar).cfg.fn 3 (leBytes 4 n ++ [BitVec.ofNat 8 code])
  else s

/-- A fault the stream scheduler front end raises on a command (11 R415): the record carries no address (18 R597). -/
def frontFault (s : State) (n code : Nat) (layer op : Nat) : State :=
  let x := s.stream n
  let s := record s 0x20 518 x.saggar (payload [(code, 120), (n, 100)]) [x.saggar] false layer op
  streamFault s n code

/-! Crew fault codes (03 R121, 04 R166, 05 R215, 06 R254). -/
def fIllegal : Nat := 0x10
def fRange : Nat := 0x11
def fMisaligned : Nat := 0x12
def fTranslation : Nat := 0x13
def fCopy : Nat := 0x14
def fLocal : Nat := 0x15
def fBellTimeout : Nat := 0x16
def fBellMask : Nat := 0x17
def fDivergent : Nat := 0x18
def fUnitAbsent : Nat := 0x19
def fLaunch : Nat := 0x1A
def fMxFormat : Nat := 0x20
def fWindowUnset : Nat := 0x21
def fAccRange : Nat := 0x22
def fWeightConflict : Nat := 0x23
def fOperand : Nat := 0x24
def fLayerOverflow : Nat := 0x30
def fReplayScope : Nat := 0x31
def fReplayVariant : Nat := 0x32
def fHeldWrite : Nat := 0x33
def fOptDescriptor : Nat := 0x34
def fScaleRange : Nat := 0x35
def fDunobFormat : Nat := 0x36
def fChain : Nat := 0x40
def fVectorFormat : Nat := 0x41
def fTravNode : Nat := 0x48
def fTravStack : Nat := 0x49

/-- The stream fault code of a failed access (10 R674, 16 R547; 05 R198). -/
def engCode : AccErr → Nat
  | .translation => fTranslation
  | .poison => fOperand
  | .held => fHeldWrite
  | .busy => fTranslation

/-- A hub engine's signal that reports work of a stream's command: where it is not applied the stream faults (10 R674, 16 R547). -/
def reportWork (s : State) (a : Who) (va : DWord) (op : Nat) (v : Word) (layer oper : Nat) : State :=
  match engSignal s a va op v with
  | (none, s) => s
  | (some e, s) => frontFault s a.stream (engCode e) layer oper

/-! ### HEAD (11 R409) -/

/-- HEAD_WORD of stream `n` takes its HEAD. -/
def headSignal (s : State) (n : Nat) (y : Stream) : State :=
  reportWork s { saggar := y.saggar, stream := n, source := 518 } y.headWord 1 y.head 0xFFFFF 0xFFF

/-- Drop the commands at the ring's head that are complete. -/
def popDone (x : Stream) : List Begun → Stream
  | [] => { x with begun := [] }
  | b :: l =>
    if b.done && !(b.opcode == 2 && (x.block.map Block.replayable).getD false) then
      popDone { x with head := b.pos + BitVec.ofNat 32 b.size } l
    else { x with begun := b :: l }

/-- Advance HEAD past every command that is complete with all before it, and write HEAD_WORD (11 R409). -/
def advanceHead (s : State) (n : Nat) : State :=
  let x := s.stream n
  let y := popDone x x.begun
  let s := s.setStream n y
  if y.head = x.head ∨ y.headWord = 0 then s
  else if y.headHost then hostWrite s y.fn y.headWord (leBytes 4 y.head.toNat)
  else headSignal s n y

/-- The command of stream `n` at ring position `pos` is complete, which hub engine `source` reports: its record goes to its collector (10
R386, 11 R414) and HEAD advances; a faulted stream keeps its HEAD (R406). -/
def completeCmd (s : State) (n : Nat) (pos : Word) (source : Nat := 518) : State :=
  let x := s.stream n
  match x.begun.find? (fun b => b.pos == pos && !b.done) with
  | none => s
  | some b =>
    if x.st = 2 then s else
    let s := s.setStream n { x with begun := x.begun.map fun c => if c.pos = pos then { c with done := true } else c }
    let s := match b.collect with
      | none => s
      | some c => hubRec s c { gts := s.time.gts, tag := b.tag, stream := n, source, kind := true }
    advanceHead s n

/-- WHL_LAST_FAULT as a crew fault writes it (03 R119). -/
def lastFaultWord (code saggar stream slot : Nat) : DWord :=
  BitVec.ofNat 64 (code * 2 ^ 56 + saggar * 2 ^ 44 + stream * 2 ^ 24 + slot * 2 ^ 18 + 1)

/-- The record of a crew fault, to the saggar's ledger and to WHL_LAST_FAULT (03 R119, R120). -/
def faultRecord (s : State) (w slot code saggar stream part live layer op : Nat) (addr : DWord) : State :=
  let s := recordWheel s w 0x20 saggar (payload [(code, 120), (stream, 100), (slot, 94), (part, 92), (live, 60),
    (addr.toNat % 2 ^ 57, 0)]) false layer op
  s.modWheel w fun x => { x with ctl := { x.ctl with lastFault := lastFaultWord code saggar stream slot } }

/-- TAKE A CREW FAULT (03 R120), with what it counts (18 R605; log entry 51): the record goes to the saggar's ledger and to WHL_LAST_FAULT, and the stream of the
crew faults with every crew of it. `addr` is the address of the faulting instruction. -/
def crewFault (s : State) (w slot code : Nat) (addr : DWord) : State :=
  match s.crew? w slot with
  | none => s
  | some c =>
    let s := if code = fTranslation then tallyCrew s w c 0x0CF else if code = fHeldWrite then tallyCrew s w c 0x0E9 else s
    streamFault (faultRecord s w slot code c.saggar c.stream c.part c.live.toNat c.layer c.operator addr) c.stream code

/-- The crew of an entry. -/
def entryCrew (s : State) (w slot uid : Nat) : Option Crew :=
  match s.crew? w slot with
  | none => none
  | some c => if c.uid = uid then some c else none

end Sys2Proof.Machine
end

