-- ==== Sys2Proof/Machine/Operands.lean ====
section
/-!
DEFINITION. How a Nelol instruction reaches its operands: when it issues (03 R83 to R87), its guard (R75, R122), its
registers (R74, R76), the lane of 04 R140, and how its path goes on.
-/
namespace Sys2Proof.Machine

/-- The lanes of a mask, lowest first. -/
def lanesOf (m : Word) : List Nat := (List.range 32).filter fun l => m.getLsbD l

/-- The mask of one lane. -/
def laneBit (l : Nat) : Word := 1#32 <<< l

/-- Threads in a mask. -/
def count (m : Word) : Nat := (lanesOf m).length

/-! ### Registers (03 R74, R75) -/

def reg (c : Crew) (lane r : Nat) : Word := Tab.get 0 c.regs (lane * 256 + r)
def setReg (c : Crew) (lane r : Nat) (v : Word) : Crew := { c with regs := Tab.put 0 c.regs (lane * 256 + r) v }
/-- A 64-bit operand: the low half in register `r`, the high half in `r + 1` (03 R74). -/
def pair (c : Crew) (lane r : Nat) : DWord := reg c lane (r + 1) ++ reg c lane r
def setPair (c : Crew) (lane r : Nat) (v : DWord) : Crew :=
  setReg (setReg c lane r (v.setWidth 32)) lane (r + 1) ((v >>> 32).setWidth 32)
/-- Predicate `p` of a lane; p7 reads 1 (03 R75). -/
def predOf (c : Crew) (lane p : Nat) : Bool := p == 7 || (Tab.get 0 c.preds lane).getLsbD p
/-- Write predicate `p`; a write to p7 is ignored (03 R75). -/
def setPred (c : Crew) (lane p : Nat) (v : Bool) : Crew :=
  if 7 ≤ p then c else
  let b := Tab.get 0 c.preds lane
  let m : Byte := 1#8 <<< p
  { c with preds := Tab.put 0 c.preds lane (if v then b ||| m else b &&& ~~~m) }

/-! ### Paths -/

def path? (c : Crew) (p : Nat) : Option CPath := Tab.find c.paths p
def setPath (c : Crew) (p : Nat) (x : CPath) : Crew := { c with paths := Tab.ins c.paths p x }
def modPath (c : Crew) (p : Nat) (f : CPath → CPath) : Crew := { c with paths := Tab.modify c.paths p f }

/-- The path goes on after the instruction. -/
def pathNext (c : Crew) (p : Nat) : Crew := modPath c p fun x => { x with pc := x.pc + 8 }

/-- The path of the issue goes on after the instruction. -/
def next (s : State) (i : Issue) : State := s.modCrew i.wheel i.slot fun c => pathNext c i.path

/-- The path waits. -/
def waitPath (c : Crew) (p : Nat) (w : PathWait) : Crew := modPath c p fun x => { x with wait := w }

/-- Threads of the path whose guard is true (03 R75, R122). -/
def guardMask (c : Crew) (x : CPath) (i : Issue) : Word :=
  (lanesOf (x.mask &&& c.live)).foldl (fun m l => if predOf c l i.pg.toNat != i.pn then m ||| laneBit l else m) 0

/-- The lowest-numbered lane that is live with a true guard (04 R140, 06 R221). -/
def leadLane (m : Word) : Option Nat := (lanesOf m).head?

/-- The address of the issuing path. -/
def pathPc (s : State) (i : Issue) : DWord :=
  match s.crew? i.wheel i.slot with
  | none => 0
  | some c => ((path? c i.path).map CPath.pc).getD 0

/-! ### Issue -/

/-- A wheel that may issue: ON or letting its crews run out (03 R115), with its clock running, in a module that serves
and is not stopped (18 R613). -/
def wheelRuns (s : State) (w : Nat) : Bool :=
  s.serving && !s.frozen && s.present w &&
  (let x := (s.wheel w).ctl
   (x.state == .on || x.state == .draining || x.state == .pendingOn) && x.stopGts.isNone)

/-- The instruction can be fetched: its page allows it (08 R312) and its address is aligned (03 R122). -/
def fetchOk (s : State) (c : Crew) (x : CPath) : Bool :=
  x.pc.toNat % 8 == 0 &&
  match translate s c.saggar x.pc with
  | some (_, m) => m.exec
  | none => false

/-- The crew is being evicted (03 R117, 11 R422, 12 R441): it issues nothing more on this wheel. -/
def evicting (s : State) (w : Nat) (c : Crew) : Bool :=
  let x := (s.wheel w).ctl
  let cls := ((s.launch? c.launch).map Launch.cls).getD 0
  x.evict || (x.preempt.isSome && cls == 0) || (x.resv.isSome && cls != 2)

/-- The number of a path on its wheel. -/
def pathKey (slot path : Nat) : Nat := 32 * slot + path

/-- The path counts as ready (03 R83, R86): it waits for nothing, and its instruction has not met a full queue. -/
def countsReady (x : Wheel) (slot path : Nat) (y : CPath) : Bool := y.wait == .ready && !x.sched.stalled.contains (pathKey slot path)

/-- The path has issued 256 instructions of its crew in a row, and yields while another path of the crew is ready (03 R85). -/
def yields (x : Wheel) (slot path : Nat) (c : Crew) (y : CPath) : Bool :=
  c.lastPath == some path && decide (256 ≤ y.run) && c.paths.any fun e => e.1 != path && countsReady x slot e.1 e.2

/-- A path of the partition that may issue has waited longer (03 R83). -/
def waitedLonger (s : State) (w slot path part : Nat) : Bool :=
  let x := s.wheel w
  x.crews.any fun e => e.2.part == part && !evicting s w e.2 && e.2.paths.any fun p =>
    countsReady x e.1 p.1 p.2 && !yields x e.1 p.1 e.2 p.2 &&
      decide (Tab.get 0 x.sched.ages (pathKey slot path) < Tab.get 0 x.sched.ages (pathKey e.1 p.1))

/-- The crew and path of an issue, when the path is ready in the sense of `ok`, R85 does not make it yield, and the partition
chooses it (R83): a path that counts as ready does not issue before one that has waited longer. -/
def issuer (s : State) (i : Issue) (ok : PathWait → Bool) : Option (Crew × CPath) :=
  if wheelRuns s i.wheel then
    match s.crew? i.wheel i.slot with
    | none => none
    | some c =>
      match path? c i.path with
      | none => none
      | some y =>
        let x := s.wheel i.wheel
        if ok y.wait && !evicting s i.wheel c && !yields x i.slot i.path c y &&
            !(countsReady x i.slot i.path y && waitedLonger s i.wheel i.slot i.path c.part) then some (c, y) else none
  else none

/-- Instruction cache of partition `part` after a fetch (03 R72; log entry 98). -/
def cacheLine (x : Sched) (part saggar : Nat) (pc : DWord) : Tab (List (Nat × Nat)) :=
  let line := (saggar, pc.toNat % 2 ^ 57 / 128)
  Tab.put [] x.icache part ((line :: (Tab.get [] x.icache part).filter (· != line)).take 256)

/-- The partition has issued from this path: its wait starts anew, every other ready path of the partition has waited through one
more issue (03 R83). -/
def takeTurn (x : Wheel) (slot path : Nat) (c : Crew) (pc : DWord) : Wheel :=
  let stalled := x.sched.stalled.filter (· != pathKey slot path)
  let mine := fun (k : Nat) => ((Tab.find x.crews (k / 32)).map fun d => d.part == c.part).getD true
  let count := fun (t : Tab Nat) (k : Nat) (y : CPath) =>
    if k = pathKey slot path ∨ y.wait ≠ .ready ∨ k ∈ stalled then t else Tab.put 0 t k (Tab.get 0 x.sched.ages k + 1)
  let ages := x.crews.foldl (fun (t : Tab Nat) (e : Nat × Crew) =>
    if e.2.part = c.part then e.2.paths.foldl (fun t p => count t (pathKey e.1 p.1) p.2) t else t)
    (x.sched.ages.filter fun e => !mine e.1)
  { x with sched := { ages, stalled, icache := cacheLine x.sched c.part c.saggar pc } }

/-- The turn of an issue. -/
def turn (s : State) (i : Issue) (c : Crew) (x : CPath) : State := s.modWheel i.wheel fun w => takeTurn w i.slot i.path c x.pc

/-- The path's instruction waits for room or for a result: it does not count as ready until it issues or an entry frees (04 R141; log
entry 90). -/
def stallPath (s : State) (w slot path : Nat) : State :=
  s.modWheel w fun x => if x.sched.stalled.contains (pathKey slot path) then x else
    { x with sched := { x.sched with stalled := pathKey slot path :: x.sched.stalled, ages := Tab.del x.sched.ages (pathKey slot path) } }

/-- A path of the crew that could have issued again has yielded after 256 instructions to this one (03 R85). -/
def forcedYield (s : State) (i : Issue) (c : Crew) : Bool :=
  match c.lastPath with
  | none => false
  | some q => q != i.path && (path? c q).any fun y => countsReady (s.wheel i.wheel) i.slot q y && decide (256 ≤ y.run)

/-- The crew has issued from this path: the partition's turn (03 R83), and the run of consecutive instructions (03 R85), which
starts anew for another path. -/
def noteIssue (s : State) (i : Issue) (c : Crew) (x : CPath) : State :=
  let t := tallyCrew ((turn s i c x).setCrew i.wheel i.slot (modPath { c with lastPath := some i.path } i.path fun y =>
    { y with run := if c.lastPath = some i.path then x.run + 1 else 1 })) i.wheel c (0x001 + 16 * c.part)
  if forcedYield s i c then tallyCrew t i.wheel c (0x00B + 16 * c.part) else t

/-- What an instruction's definition makes of its fields, checked at issue in this order: reserved bits and unassigned
codes (03 R670), register pairs (R74), registers in range (R76). -/
structure Form where
  legal : Bool
  /-- Registers named as the base of a pair. -/
  pairs : List Nat := []
  /-- Registers named as the base of four (03 R124). -/
  quads : List Nat := []
  /-- Registers named. -/
  regs : List Nat := []
  /-- Tile registers named. -/
  tiles : List Nat := []
  /-- Issued with no executing thread it does nothing at all, and raises no fault (04 R140, 06 R221). -/
  guarded : Bool := false
  /-- It reads device memory: an acquire of its crew that has not ended holds it (09 R343, R344). -/
  reads : Bool := false
  /-- An MX-class instruction: it is judged with the last arrival (04 R137). -/
  late : Bool := false

/-- The fault a form raises on a crew, if any. -/
def formFault (c : Crew) (f : Form) : Option Nat :=
  if !f.legal then some fIllegal
  else if (f.pairs.any fun r => r % 2 == 1) || (f.quads.any fun r => r % 4 != 0) then some fMisaligned
  else if (f.regs.any fun r => c.res.g ≤ r) || (f.pairs.any fun r => c.res.g ≤ r + 1) ||
      (f.quads.any fun r => c.res.g ≤ r + 3) || (f.tiles.any fun t => c.res.t ≤ t) then
    some fRange
  else none

/-- A register the form names is a result of a traversal query still in flight for a thread of the path (06 R242): the
instruction waits. -/
def resultPending (c : Crew) (x : CPath) (f : Form) : Bool :=
  let rs := f.regs ++ f.pairs ++ f.pairs.map (· + 1) ++ f.quads ++ f.quads.map (· + 1) ++ f.quads.map (· + 2) ++
    f.quads.map (· + 3)
  c.queries.any fun q => x.mask.getLsbD q.lane && rs.any fun r => decide (q.da ≤ r) && decide (r < q.da + 4)

/-- An acquire of the crew has not ended: a load-acquire, an acquire atomic, or a FENCE both whose release part is under way (09 R343,
R344). -/
def acquiring (s : State) (w : Nat) (c : Crew) : Bool :=
  ((s.wheel w).mem.reads.any fun r => r.uid == c.uid && r.acq) || c.paths.any fun p => match p.2.wait with
    | .fence _ => true
    | _ => false

/-- The instruction waits before it is looked at: for a result in flight (06 R242), or for an acquire of its crew (09 R343). -/
def heldBack (s : State) (w : Nat) (c : Crew) (x : CPath) (f : Form) : Bool := resultPending c x f || (f.reads && acquiring s w c)

/-- The fault the form raises at issue with the executing threads `m`. -/
def issueFault (c : Crew) (f : Form) (m : Word) : Option Nat := if f.late || (f.guarded && m == 0) then none else formFault c f

/-- Issue an instruction of a path that waits in the sense of `ok`: while `go` says that it stalls the path no longer counts as
ready; then checks, then `body` with the crew and path as they stand and the threads whose guard is true. -/
def issueIf (ok : PathWait → Bool) (go : State → Crew → CPath → Word → Bool) (i : Issue) (f : Form)
    (body : State → Crew → CPath → Word → State) (s : State) : Out :=
  act (decide (i.wheel < 192) && decide (i.slot < 64) && decide (i.path < 32)) (fun s =>
    match issuer s i ok with
    | none => s
    | some (c, x) =>
      if heldBack s i.wheel c x f then stallPath s i.wheel i.slot i.path
      else if !fetchOk s c x then crewFault s i.wheel i.slot fTranslation x.pc
      else
        match issueFault c f (guardMask c x i) with
        | some code => crewFault (noteIssue s i c x) i.wheel i.slot code x.pc
        | none =>
          if go s c x (guardMask c x i) then
            let s := noteIssue s i c x
            match s.crew? i.wheel i.slot with
            | none => s
            | some c => body s c x (guardMask c x i)
          else stallPath s i.wheel i.slot i.path) s

/-- The path is ready. -/
def isReady (w : PathWait) : Bool := w == .ready

/-- Issue an instruction that never stalls. -/
def issue (i : Issue) (f : Form) (body : State → Crew → CPath → Word → State) (s : State) : Out :=
  issueIf isReady (fun _ _ _ _ => true) i f body s

/-- Issue an instruction that stalls until `go`. -/
def issueStall (i : Issue) (f : Form) (go : State → Crew → CPath → Word → Bool)
    (body : State → Crew → CPath → Word → State) (s : State) : Out :=
  issueIf isReady go i f body s

/-- Change the crew of the issue lane by lane over the executing threads, reading operands from the crew as it stood,
and go on. -/
def lanewise (i : Issue) (g : Crew → Crew → Nat → Crew) : State → Crew → CPath → Word → State :=
  fun s c _ m => s.setCrew i.wheel i.slot (pathNext ((lanesOf m).foldl (fun d l => g c d l) c) i.path)

/-- Traversal queries the wheel's unit holds (06 R250). -/
def queriesOn (x : Wheel) : Nat := (x.crews.map fun (e : Nat × Crew) => e.2.queries.length).sum

/-! ### Fields of the word -/

/-- Bits [lo + n - 1 : lo] of X. -/
def xf (i : Issue) (lo n : Nat) : Nat := bits i.x.toNat lo n
def da (i : Issue) : Nat := i.da.toNat
def sa (i : Issue) : Nat := i.sa.toNat
def sb (i : Issue) : Nat := i.sb.toNat
/-- X as a signed immediate (03 R124). -/
def imm (i : Issue) : Word := i.x.signExtend 32

/-- A crew fault raised by the issuing instruction. -/
def faultAt (s : State) (i : Issue) (code : Nat) : State := crewFault s i.wheel i.slot code (pathPc s i)

end Sys2Proof.Machine
end

