-- ==== Sys2Proof/Machine/Overflow.lean ====
section
/-!
DEFINITION. Overflow of an operation (05 R180, R200, R202, R208) and the counts of narrowing conversions (R203, R204).
-/
namespace Sys2Proof.Machine

/-- The open block a crew's launch belongs to (05 R197): a launch placed while the stream's layer was open. -/
def blockOf (s : State) (c : Crew) : Option Block :=
  let x := s.stream c.stream
  match s.launch? c.launch with
  | some l => if l.inBlock && x.layerOpen then x.block else none
  | none => none

/-- The block's attempt saturates every conversion (05 R208). -/
def forcedSat (s : State) (c : Crew) : Bool := ((blockOf s c).map Block.saturating).getD false

/-- The crew's block sets GRADIENT (05 R204). -/
def inGradient (s : State) (c : Crew) : Bool := ((blockOf s c).map Block.gradient).getD false

/-- The crew's numerics layer (05 R191): its block's layer, or its launch's own. -/
def numericsLayer (c : Crew) : Nat := c.layer

/-- Stop every crew of the stream's block, and drop its unstarted tasks (05 R200). -/
def stopBlock (s : State) (n : Nat) : State :=
  let inB := fun (c : Crew) => c.stream == n && ((s.launch? c.launch).map Launch.inBlock).getD false
  let p := fun (_ : Nat) (l : Launch) => l.stream == n && l.inBlock
  dropTasks (releaseSaves (stopCrews s inB) p) p

/-- An operation of crew `c` on wheel `w` overflowed (05 R180). In a replayable block the flag is set with the first
overflow, and the block stops (R200); at level 2 the stream faults, but in re-warm only where a saturating attempt meets
an overflow that no saturation can prevent (`hard`; R202, R208). In any other block, and in Dunob mode, one OVERFLOW_SEEN
record is written per layer and step (R202); elsewhere the value stands. -/
def overflow (s : State) (w : Nat) (c : Crew) (nan hard : Bool) : State :=
  let x := s.stream c.stream
  let blk := blockOf s c
  let seen (s : State) : State :=
    let g := s.saggar c.saggar
    if c.layer ∈ g.ovfSeen then s
    else
      let s := s.modSaggar c.saggar fun g => { g with ovfSeen := c.layer :: g.ovfSeen }
      recordWheel s w 0x41 c.saggar (payload [(c.layer, 108), (c.operator, 96), (g.step.toNat, 64), (w, 22)]) false
        c.layer c.operator
  if x.dunob then seen s
  else match blk with
    | none => s
    | some b =>
      if !b.replayable then seen s
      else if b.ovf.isSome then s
      else if b.saturating then (if hard then frontFault s c.stream fLayerOverflow c.layer c.operator else s)
      else if x.level = 2 && (s.saggar c.saggar).rewarm.isNone then frontFault s c.stream fLayerOverflow c.layer c.operator
      else
        let s := s.setStream c.stream { x with
          overflow := true
          block := some { b with ovf := some {
            layer := c.layer, op := c.operator, gts := s.time.gts, source := w, nan, hard } } }
        stopBlock s c.stream

/-- Run `overflow` for a crew in a slot if it is still there. -/
def overflowAt (s : State) (w slot : Nat) (nan hard : Bool) : State :=
  match s.crew? w slot with
  | none => s
  | some c => overflow s w c nan hard

/-- Count examined and flushed elements of a crew: in the stream's pending counts inside a block, else in the crew
until it exits (05 R203). -/
def countNarrow (s : State) (w slot : Nat) (examined flushed : Nat) : State :=
  if examined = 0 then s else
  match s.crew? w slot with
  | none => s
  | some c =>
    let s := tallyCrew (tallyCrew s w c 0x180 examined) w c 0x181 flushed
    match blockOf s c with
    | some b => s.modStream c.stream fun x => { x with
        block := some { b with flushed := b.flushed + flushed, examined := b.examined + examined } }
    | none => s.setCrew w slot { c with flushed := c.flushed + flushed, examined := c.examined + examined }

end Sys2Proof.Machine
end

