-- ==== Sys2Proof/Machine/LayerTable.lean ====
section
/-!
DEFINITION. The layer table of a saggar (05 R189 to R192): entries of 32 bytes in device memory that the module alone
writes.
-/
namespace Sys2Proof.Machine

/-- One entry of the layer table (R189). -/
structure LayerEntry where
  flushed : Nat := 0
  examined : Nat := 0
  stepFlushed : Nat := 0
  stepExamined : Nat := 0
  scale : Int := 0
  quietRun : Nat := 0
  tallyOvf : Bool := false
  pendingValid : Bool := false
  satSeen : Bool := false
  replays : Nat := 0
  level : Nat := 0
  pending : Int := 0
  deriving DecidableEq, Repr

/-- A signed byte. -/
def sbyte (b : Byte) : Int := b.toInt

/-- The entry's bytes read as fields. -/
def LayerEntry.ofBytes (l : List Byte) : LayerEntry :=
  let b := l.getD 30 0
  { flushed := leNat (l.take 8), examined := leNat ((l.drop 8).take 8), stepFlushed := leNat ((l.drop 16).take 6)
    stepExamined := leNat ((l.drop 22).take 6), scale := sbyte (l.getD 28 0), quietRun := (l.getD 29 0).toNat
    tallyOvf := b.getLsbD 7, pendingValid := b.getLsbD 5, satSeen := b.getLsbD 4
    replays := bits b.toNat 2 2, level := bits b.toNat 0 2, pending := sbyte (l.getD 31 0) }

/-- The fields as the entry's bytes. -/
def LayerEntry.toBytes (e : LayerEntry) : List Byte :=
  leBytes 8 e.flushed ++ leBytes 8 e.examined ++ leBytes 6 e.stepFlushed ++ leBytes 6 e.stepExamined ++
  [BitVec.ofInt 8 e.scale, BitVec.ofNat 8 e.quietRun,
   BitVec.ofNat 8 ((if e.tallyOvf then 128 else 0) + (if e.pendingValid then 32 else 0) + (if e.satSeen then 16 else 0) +
     e.replays % 4 * 4 + e.level % 4),
   BitVec.ofInt 8 e.pending]

/-- The module's own access to the saggar's memory. -/
def ownWho (k : Nat) : Who := { saggar := k, source := 518, own := true, waits := false }

/-- Device-virtual address of a layer's entry. -/
def layerVa (s : State) (k layer : Nat) : DWord := (s.saggar k).cfg.layerTable + BitVec.ofNat 64 (32 * layer)

/-- The layer ID selects an entry (R191). -/
def layerOk (s : State) (k layer : Nat) : Bool := decide (layer < (s.saggar k).cfg.layerCount)

/-- Read a layer's entry; the module's own read of a table it keeps. -/
def layerGet (s : State) (k layer : Nat) : LayerEntry :=
  match translate s k (layerVa s k layer) with
  | none => {}
  | some (pa, _) => LayerEntry.ofBytes (memBytes s pa 32)

/-- Write a layer's entry. -/
def layerPut (s : State) (k layer : Nat) (e : LayerEntry) : State :=
  (engWrite s (ownWho k) (layerVa s k layer) e.toBytes).2

/-- Change a layer's entry in the current step. -/
def layerMod (s : State) (k layer : Nat) (f : LayerEntry → LayerEntry) : State :=
  let s := layerPut s k layer (f (layerGet s k layer))
  s.modSaggar k fun g => if layer ∈ g.touched then g else { g with touched := layer :: g.touched }

/-- Set SAT_SEEN of a layer (05 R180). -/
def layerSat (s : State) (k layer : Nat) : State := layerMod s k layer fun e => { e with satSeen := true }

/-- The step scale of a layer (R192). -/
def stepScale (s : State) (k layer : Nat) : Int := (layerGet s k layer).scale

/-- A saturating conversion of a crew sets SAT_SEEN of the layer its command selects, its block's or its launch's own (05 R180, R191). -/
def markSat (s : State) (w slot : Nat) : State :=
  match s.crew? w slot with
  | none => s
  | some c =>
    let s := tallyCrew s w c 0x182
    if layerOk s c.saggar c.layer then layerSat s c.saggar c.layer else s

end Sys2Proof.Machine
end

