-- ==== Sys2Proof/Machine/CrewEnd.lean ====
section
/-!
DEFINITION. The end of a crew and of its task (03 R88, 05 R203, 11 R409): counts enter the layer table, the launch
completes with its last task.
-/
namespace Sys2Proof.Machine

/-- Add counts to a layer's entry; each of FLUSHED and EXAMINED that wraps raises a tally-overflow event, with its value and the event code
that counts its elements (05 R203, R189; log entry 86). -/
def layerCount (s : State) (k layer flushed examined : Nat) : State :=
  if examined = 0 || !layerOk s k layer then s else
  let e := layerGet s k layer
  let past := fun (n : Nat) => decide (2 ^ 64 ≤ n)
  let s := layerMod s k layer fun e => { e with
    flushed := (e.flushed + flushed) % 2 ^ 64, examined := (e.examined + examined) % 2 ^ 64
    stepFlushed := min (e.stepFlushed + flushed) (2 ^ 48 - 1)
    stepExamined := min (e.stepExamined + examined) (2 ^ 48 - 1)
    tallyOvf := e.tallyOvf || past (e.flushed + flushed) || past (e.examined + examined) }
  let wrapped := fun (s : State) (n event : Nat) =>
    if past n then record s 0xE1 518 k (payload [(n % 2 ^ 64, 64), (event, 41), (1, 40)]) [k] false layer 0xFFF else s
  wrapped (wrapped s (e.flushed + flushed) 0x181) (e.examined + examined) 0x180

/-- Writes of the launch's crews are on their way. -/
def launchStores (s : State) (id : Nat) : Bool := s.wheels.any fun w => w.2.mem.store.any fun e => e.launch == id && e.op != .fence

/-- A launch is complete once its tasks have exited and their writes have been acknowledged: its completion is a release (09 R349, R350; 11
R409). -/
def finishLaunch (s : State) (id : Nat) : State :=
  match s.launch? id with
  | none => s
  | some l => if l.left = 0 && !launchStores s id then completeCmd (s.dropLaunch id) l.stream l.pos else s

/-- One task of a launch has ended. -/
def taskDone (s : State) (id : Nat) : State := finishLaunch (s.modLaunch id fun l => { l with left := l.left - 1 }) id

/-- Every thread of the crew has exited (03 R88). -/
def crewExit (s : State) (w slot : Nat) : State :=
  match s.crew? w slot with
  | none => s
  | some c =>
    let s := layerCount s c.saggar c.layer c.flushed c.examined
    let s := tallyCrew s w c (0x00D + 16 * c.part)
    taskDone (dropCrew s w slot true) c.launch

end Sys2Proof.Machine
end

