-- ==== Sys2Proof/Machine/Leave.lean ====
section
/-!
DEFINITION. Asking the reeve for leave (14 R493, R494) and what a unit knows of its permit.
-/
namespace Sys2Proof.Machine

/-- The permit of a unit's work, held or asked for. -/
def permitOf (s : State) (kind unit key : Nat) : Option (Nat × Permit) :=
  s.rve.permits.find? fun e => e.2.kind == kind && e.2.unit == unit && e.2.key == key

/-- Full charge of a permit code, in units of 0.0025 W (R493). -/
def chargeOf (s : State) (kind : Nat) : Nat := 100 * (s.img.charges.getD kind 0)

/-- A unit sends a request, unless it holds or awaits the permit; an entry that arrives while a release waits withdraws
the release (R496); a permit held at half rate then has its upgrade pending again (R497). -/
def askLeave (s : State) (kind unit key cls saggar : Nat) : State :=
  match permitOf s kind unit key with
  | some (id, p) =>
    if !p.releasing then s else
    let up := decide (kind ≤ 1) && decide (p.held < p.full) && p.pend == 0
    let q := { p with releasing := false, pend := if up then 2 else p.pend, arrived := if up then some s.gts else p.arrived }
    { s with rve := { s.rve with permits := Tab.ins s.rve.permits id q } }
  | none =>
    let (id, s) := s.fresh
    { s with rve := { s.rve with permits := Tab.ins s.rve.permits id { kind, unit, key, cls, saggar, full := chargeOf s kind, pend := 1 } } }

/-- Leave as the unit knows it: 0 none, 1 HALF, 2 FULL. -/
def leaveKnown (s : State) (kind unit key : Nat) : Nat :=
  match permitOf s kind unit key with
  | some (_, p) => p.known
  | none => 0

/-- The permit leaves at once, outside the buckets (R504, R510). -/
def dropPermits (s : State) (p : Permit → Bool) : State :=
  { s with rve := { s.rve with permits := s.rve.permits.filter fun e => !p e.2 } }

/-- Give permits back: a held one waits for the fall allowance, a pending request or renewal is dropped (14 R496, R510). -/
def giveBack (s : State) (p : Permit → Bool) : State :=
  { s with rve := { s.rve with
    permits := (Tab.mapv (s.rve.permits.filter fun e => !(p e.2 && e.2.held == 0)) fun _ (q : Permit) =>
      if p q then { q with releasing := true, pend := 0, arrived := none, renew := none, next := none } else q) } }

/-- The class of a stream in the reeve's ranks. -/
def streamCls (s : State) (n : Nat) : Nat := (s.stream n).cls

end Sys2Proof.Machine
end

