-- ==== Sys2Proof/Machine/StorePath.lean ====
section
/-!
DEFINITION. The store path of a wheel (09 R333, R342, R346), releases, and what waits for one: fences, crew bells
(03 R90 to R92), group bells (10 R382), COLLECT with REL (10 R360).
-/
namespace Sys2Proof.Machine

/-- Entries issued before entry `id`. -/
def before (l : List StoreEntry) (id : Nat) : List StoreEntry := l.takeWhile fun e => e.id != id

/-- The release that entry `e` is or carries has completed: every earlier entry of its crew has been acknowledged
(R342). -/
def releaseDone (l : List StoreEntry) (e : StoreEntry) : Bool := (before l e.id).all fun f => f.uid != e.uid

/-- A read of the sector that was issued before entry `e` has not taken its value: the two keep their order (R338). -/
def readAhead (rs : List ReadTxn) (e : StoreEntry) : Bool :=
  rs.any fun r => decide (r.id < e.id) && r.order != 3 && r.value.isNone && decide (r.pa / 32 = e.pa / 32)

/-- A release after entry `e` has not completed: what is issued now does not leave with `e` (R333, R342). -/
def relAfter (l : List StoreEntry) (e : StoreEntry) : Bool :=
  (l.dropWhile fun f => f.id != e.id).any fun f => f.id != e.id && f.rel && !releaseDone l f

/-- Entry `e` may be performed (R333, R338, R342, R346, R359). -/
def mayPerform (s : State) (l : List StoreEntry) (rs : List ReadTxn) (e : StoreEntry) : Bool :=
  !e.combining && !e.performed && (!e.rel || releaseDone l e) && !readAhead rs e &&
  (before l e.id).all fun f =>
    (!f.rel || releaseDone l f) &&
    (f.op == .fence || f.performed || homeSlice s f.pa != homeSlice s e.pa)

/-- Entries of the combining buffer that hold the crew's stores leave at once (R342). -/
def flushCombining (s : State) (w uid : Nat) : State :=
  s.modWheel w fun x => { x with mem := { x.mem with
    store := x.mem.store.map fun e => if e.uid = uid then { e with combining := false } else e } }

/-- Append an entry to the store path; one that is or carries a release counts (18 R605). -/
def pushStore (s : State) (w : Nat) (e : StoreEntry) : State :=
  let s := match entryCrew s w e.slot e.uid with
    | some c => if e.rel then tallyCrew s w c 0x0E7 else s
    | none => s
  s.modWheel w fun x => { x with mem := { x.mem with store := x.mem.store ++ [e] } }

/-- The crew releases: a fence entry with a fresh identity joins the store path. -/
def issueRelease (s : State) (w slot uid : Nat) : Nat × State :=
  let s := flushCombining s w uid
  let (id, s) := s.fresh
  (id, pushStore s w { id, slot, uid, op := .fence, rel := true })

/-- The release with this identity has completed. -/
def released (s : State) (w id : Nat) : Bool := !((s.wheel w).mem.store.any fun e => e.id == id && e.op == .fence)

/-! ### Crew bells (03 R90 to R93) -/

def crewBell (c : Crew) (b : Nat) : CrewBell := Tab.get {} c.bells b

/-- Release bell `b` when every member that has not exited has arrived (R90, R92); the release is an acquire (09
R347). -/
def bellCheck (s : State) (w slot b : Nat) : State :=
  match s.crew? w slot with
  | none => s
  | some c =>
    let x := crewBell c b
    if x.arrived != 0 && (x.mask &&& c.live &&& ~~~x.arrived) == 0 then
      acquire (s.setCrew w slot { c with
        bells := Tab.del c.bells b
        paths := Tab.mapv c.paths fun _ p => if p.wait = .bell b then { p with wait := .ready, pc := p.pc + 8 } else p })
        w c.saggar c.layer c.operator
    else s

/-- The threads `lanes` of path `p` arrive at bell `b`. -/
def bellArrive (s : State) (w slot p b : Nat) (lanes : Word) : State :=
  match s.crew? w slot with
  | none => s
  | some c =>
    let x := crewBell c b
    bellCheck (s.setCrew w slot (waitPath { c with bells := Tab.ins c.bells b { x with
      arrived := x.arrived ||| lanes, since := match x.since with
        | none => some s.watch
        | some t => some t } } p (.bell b))) w slot b

/-! ### Completed releases -/

/-- What waits for the release of entry `e` goes on: a FENCE both acquires (R344), a crew bell takes the arrival, a
COLLECT leaves. -/
def fireRelease (s : State) (w : Nat) (e : StoreEntry) : State :=
  let s := { s with crier := { s.crier with colls := Tab.mapv s.crier.colls fun _ (x : Collector) => { x with
    offered := x.offered.map fun (r : CRec) => if r.rel = some e.id then { r with rel := none } else r } } }
  match s.crew? w e.slot with
  | none => s
  | some c =>
    if c.uid ≠ e.uid then s else
    c.paths.foldl (fun s (p : Nat × CPath) =>
      match p.2.wait with
      | .fence id => if id = e.id then
          acquire (s.modCrew w e.slot fun c => pathNext (waitPath c p.1 .ready) p.1) w c.saggar c.layer c.operator else s
      | .arrive id b lanes => if id = e.id then bellArrive s w e.slot p.1 b lanes else s
      | _ => s) s

/-- Complete every release whose covered writes have all been acknowledged; `fuel` bounds them. -/
def settle (s : State) (w : Nat) : Nat → State
  | 0 => s
  | fuel + 1 =>
    let l := (s.wheel w).mem.store
    match l.find? (fun e => e.op == .fence && releaseDone l e) with
    | none => s
    | some e =>
      let s := s.modWheel w fun x => { x with mem := { x.mem with store := x.mem.store.filter fun f => f.id != e.id } }
      settle (fireRelease s w e) w fuel

def settleAll (s : State) (w : Nat) : State := settle s w ((s.wheel w).mem.store.length + 1)

/-! ### JOIN (03 R86) -/

/-- The innermost split that recorded this address for threads of the mask. -/
def splitAt (c : Crew) (addr : DWord) (m : Word) : Option Nat :=
  (c.splits.reverse.find? fun (e : Nat × Split) => e.2.addr == addr && (e.2.members &&& m) != 0).map Prod.fst

/-- Merge split `k` if every thread of it has arrived or exited. Its threads stand at JOIN as one path: where a split around it
recorded the same address, they wait for that one (`fuel` bounds the splits), else they go on. -/
def joinFrom (c : Crew) (k : Nat) : Nat → Crew
  | 0 => c
  | fuel + 1 =>
    match Tab.find c.splits k with
    | none => c
    | some sp =>
      let here := c.paths.filter fun e => e.2.wait == .join k
      let got := here.foldl (fun m e => m ||| e.2.mask) (0 : Word)
      if (sp.members &&& c.live &&& ~~~got) != 0 then c else
      let c := { c with splits := Tab.del c.splits k }
      match here with
      | [] => c
      | (p, _) :: _ =>
        let rest := c.paths.filter fun e => e.2.wait != .join k
        match splitAt c sp.addr got with
        | none => { c with paths := Tab.ins rest p { pc := sp.addr + 8, mask := got } }
        | some j => joinFrom { c with paths := Tab.ins rest p { pc := sp.addr, mask := got, wait := .join j } } j fuel

def joinCheck (c : Crew) (k : Nat) : Crew := joinFrom c k 32

/-- Threads of a mask have exited: joins and bells are judged again (R86, R92). -/
def afterExit (s : State) (w slot : Nat) : State :=
  let s := s.modCrew w slot fun c => (Tab.keys c.splits).foldl joinCheck c
  (List.range 4).foldl (fun s b => bellCheck s w slot b) s

end Sys2Proof.Machine
end

