-- ==== Sys2Proof/Machine/Arrays.lean ====
section
/-!
DEFINITION. Matrix instructions, class 0x10, and the array and matrix-vector queues (04 R127 to R151, R159, R160, R167).
-/
namespace Sys2Proof.Machine

/-! ### Windows and blocks (04 R152, R153) -/

/-- The window and the first accumulator word of block `b` of window `w` of a crew. -/
def blockAt (c : Crew) (w b : Nat) : Except Nat (Window × Nat) :=
  match Tab.find c.wins w with
  | none => .error fWindowUnset
  | some x => if x.size ≤ b then .error fAccRange else .ok (x, (x.base + b) * 1024)

/-- ROLE of a latched weight: an ID beyond the table, a reserved ROLE or none latched is TRAINED (07 R258, R260). -/
def roleOf (s : State) (k wid : Nat) : Nat :=
  match Tab.find (s.saggar k).weights wid with
  | none => 0
  | some l => let r := bits (l.getD 34 0).toNat 0 4; if 2 < r then 0 else r

/-- The window is a pass-through window (07 R261). -/
def passThrough (s : State) (k : Nat) (x : Window) : Bool :=
  match x.weight with
  | none => false
  | some wid => roleOf s k wid == 1

/-! ### Hazards (04 R144, 06 R235) -/

/-- Accumulator words an engine operation touches, as (low, high). -/
def copyWords : CopyKind → List (Nat × Nat)
  | .accRd w .. => [(w, w + 1024)]
  | .accWr w .. => [(w, w + 1024)]
  | .gacc w .. => [(w, w + 1024)]
  | _ => []

def overlaps (lo hi : Nat) (l : List (Nat × Nat)) : Bool := l.any fun p => decide (p.1 < hi) && decide (lo < p.2)

/-- A copy or chain of the crew, earlier than `id`, touches the words [lo, hi). -/
def accBusy (x : Wheel) (uid lo hi id : Nat) : Bool :=
  (x.eng.copies.any fun e => e.uid == uid && decide (e.id < id) && overlaps lo hi (copyWords e.kind)) ||
  (x.eng.vecq.any fun e => e.uid == uid && decide (e.id < id) && overlaps lo hi e.accWords)

/-- A matrix entry of the crew, earlier than `id`, commits into [lo, hi). -/
def mxInto (x : Wheel) (uid lo hi id : Nat) : Bool :=
  (x.eng.mxq.any fun e => e.uid == uid && decide (e.id < id) && decide (e.word < hi) && decide (lo < e.word + 1024)) ||
  (x.eng.mvq.any fun e => e.uid == uid && decide (e.id < id) && decide (e.word < hi) && decide (lo < e.word + 16))

/-- An accumulator instruction on the words [lo, hi) waits (R144). -/
def accWaits (x : Wheel) (uid lo hi nextId : Nat) : Bool := mxInto x uid lo hi nextId || accBusy x uid lo hi nextId

/-- Tile registers a matrix entry reads. -/
def entryTiles (e : MxEntry) : List Nat :=
  [e.ta0, e.ta0 + 1, e.ta0 + 2, e.ta0 + 3, e.tw] ++ (if e.fmtA = 0 || e.fmtB = 0 then [e.scaleTile] else [])

/-- A write to tile `t` waits for the operand read of a queued entry or for a chain that uses it (R144, 06 R235). -/
def tileHeld (x : Wheel) (uid t : Nat) : Bool :=
  (x.eng.mxq.any fun e => e.uid == uid && !e.started && (entryTiles e).contains t) ||
  (x.eng.vecq.any fun e => e.uid == uid && (e.tilesRead.contains t || e.tilesWritten.contains t))

/-- A read of tile `t` waits for a chain that writes it. -/
def tileComing (x : Wheel) (uid t : Nat) : Bool := x.eng.vecq.any fun e => e.uid == uid && e.tilesWritten.contains t

/-! ### Convergence (04 R137 to R139) -/

/-- Ready, or waiting at an MX-class instruction. -/
def readyOrMx (w : PathWait) : Bool := w == .ready || w == .mx

/-- Threads that wait at MX-class instructions, those of path `p` included. -/
def arrivedMx (c : Crew) (p : Nat) : Word :=
  c.paths.foldl (fun m e => if e.2.wait = .mx ∨ e.1 = p then m ||| e.2.mask else m) 0

/-- Every live thread has arrived. -/
def converged (c : Crew) (p : Nat) : Bool := (c.live &&& ~~~(arrivedMx c p)) == 0

/-- All waiting paths go on past the instruction. -/
def leaveMx (c : Crew) : Crew :=
  { c with
    mxSince := none
    paths := Tab.mapv c.paths fun _ x => if x.wait = .mx then { x with wait := .ready, pc := x.pc + 8 } else x }

/-- An MX-class instruction (R137 to R139): the path arrives; with the last live thread `body` runs for the whole crew,
with its lanes live with a true guard; with no such lane it does nothing and faults on nothing (R138, R140). `stall` holds the
crew while an engine has no room. -/
def mxClass (i : Issue) (f : Form) (stall : State → Crew → Bool) (body : State → Crew → CPath → Word → State)
    (s : State) : Out :=
  issueIf readyOrMx (fun s c x _ => x.wait != .mx || (converged c i.path && !stall s c)) i { f with late := true } (fun s c x _ =>
    let c := if x.wait = .mx then c else { waitPath c i.path .mx with
      mxSince := match c.mxSince with
        | none => some s.watch
        | some t => some t }
    let s := s.setCrew i.wheel i.slot c
    if c.paths.any fun e => e.2.wait == .mx && e.2.pc != x.pc then faultAt s i fDivergent
    else if !converged c i.path then s
    else
      let m := guardMask c { x with mask := c.live } i
      if m = 0 then s.setCrew i.wheel i.slot (leaveMx c)
      else match formFault c f with
        | some code => faultAt s i code
        | none => if stall s c then s else body s c x m) s

/-- The watchdog of the convergence wait expires while a live thread has not arrived (R139); an arrival in the expiry tick is taken. -/
def execMxConvergenceTimeout (wheel slot : Nat) (s : State) : Out :=
  act (decide (wheel < 192) && decide (slot < 64)) (fun s =>
    match s.crew? wheel slot with
    | none => s
    | some c =>
      match c.mxSince with
      | none => s
      | some t =>
        match c.paths.find? fun e => e.2.wait == .mx with
        | none => s
        | some (p, x) =>
          if t + 2 ^ (s.saggar c.saggar).cfg.bellExp / 4 < s.watch && !converged c p then crewFault s wheel slot fDivergent x.pc
          else s) s

/-! ### MX and MXH -/

/-- FP8 formats. -/
def isFp8 (f : Nat) : Bool := f == 1 || f == 2

/-- The wheel asks for matrix leave when an entry finds none held (R145). -/
def askMatrix (s : State) (w : Nat) (c : Crew) : State :=
  askLeave (if (permitOf s 0 w 0).isNone then tallyCrew s w c 0x079 else s) 0 w 0 (streamCls s c.stream) c.saggar

/-- An entry joins the array queue. -/
def pushMx (s : State) (w : Nat) (c : Crew) (e : MxEntry) : State :=
  askMatrix (s.modWheel w fun x => { x with eng := { x.eng with mxq := x.eng.mxq ++ [e], lingerSince := none } }) w c

/-- MX and MXH (R131, R135, R138, R141, R147; 05 R213; 07 R261). An entry that has started leaves its place in the queue (log entry 93). -/
def mx (half : Bool) (i : Issue) (s : State) : Out :=
  let fa := xf i 21 3
  let fb := xf i 18 3
  let fp4 := fa == 0 || fb == 0
  let st := xf i 11 4
  let base := xf i 7 4
  mxClass i { legal := decide (sa i < 16) && decide (sb i < 16) && xf i 0 (if half then 6 else 7) == 0
              tiles := [sa i, sa i + 1, sa i + 2, sa i + 3, sb i] ++ (if fp4 then [st] else []) }
    (fun s c =>
      let x := s.wheel i.wheel
      decide (8 ≤ (x.eng.mxq.filter fun e => !e.started).length) ||
      ([sa i, sa i + 1, sa i + 2, sa i + 3, sb i, st].any fun t => tileComing x c.uid t))
    (fun s c x m =>
      let dunob := (s.stream c.stream).dunob
      if dunob && (half || fp4) then faultAt s i fDunobFormat else
      match blockAt c (da i % 4) (da i / 4) with
      | .error e => faultAt s i e
      | .ok (win, word) =>
        let okF := fa != 7 && fb != 7 && (fa == fb || (isFp8 fa && isFp8 fb)) && (win.isInt == (fa == 3))
        let okS := if fp4 then decide (base ≤ 11) && !([sa i, sa i + 1, sa i + 2, sa i + 3, sb i].contains st)
          else st == 0 && base == 0
        if !okF || !okS then faultAt s i fMxFormat
        else if passThrough s c.saggar win then tallyCrew (s.setCrew i.wheel i.slot (leaveMx c)) i.wheel c 0x07D
        else
          let (id, s) := s.fresh
          let s := if half then s else tallyCrew s i.wheel c (0x040 + 8 * fa)
          pushMx (s.setCrew i.wheel i.slot (leaveMx c)) i.wheel c
            { id, slot := i.slot, uid := c.uid, saggar := c.saggar, pc := x.pc, since := s.watch, half, h := half && i.x.getLsbD 6, word
              isInt := win.isInt, longSum := win.longSum, ta0 := sa i, tw := sb i, fmtA := fa, fmtB := fb
              transA := i.x.getLsbD 17, transB := i.x.getLsbD 16, acc := i.x.getLsbD 15, scaleTile := st, scaleBase := base
              lanes := m, dunob, layer := c.layer, operator := c.operator }) s

/-- MX (R136, R162). -/
def execMx (i : Issue) (s : State) : Out := mx false i s
/-- MXH (R147, R162). -/
def execMxh (i : Issue) (s : State) : Out := mx true i s

/-! ### Starting entries (R142, R145, R148, R149) -/

/-- The tile bytes an entry reads (operand read). -/
def readOperands (c : Crew) (e : MxEntry) : Tab Byte :=
  let ts := entryTiles e
  Tab.keep c.tiles fun k _ => ts.contains (k / 1024)

/-- The partner of a head MXH (R148). -/
def partnerOf (h : MxEntry) : List MxEntry → List MxEntry → Option MxEntry
  | _, [] => none
  | between, e :: l =>
    if e.half && e.saggar == h.saggar && e.fmtA == h.fmtA && e.fmtB == h.fmtB &&
       (e.uid != h.uid || !(between.any fun b => b.uid == h.uid)) then some e
    else partnerOf h (between ++ [e]) l

/-- Operand read of an entry. -/
def startEntry (s : State) (w : Nat) (e : MxEntry) (bad : Bool) (partner : Option Nat) : MxEntry :=
  { e with started := true, bad, partner, tiles := match entryCrew s w e.slot e.uid with
    | some c => readOperands c e
    | none => [] }

/-- An entry of the wheel's engines has gone: paths that met a full queue count as ready again (R141). -/
def entryFrees (x : Wheel) : Wheel := { x with sched := { x.sched with stalled := [] } }

/-- The crew of an entry is being evicted: the entry, which has not begun, is withdrawn and starts no more (R167). -/
def goingOut (s : State) (w slot uid : Nat) : Bool :=
  match entryCrew s w slot uid with
  | none => false
  | some c => evicting s w c

/-- Entries of the array queue that wait to start, in queue order. -/
def waitingMx (s : State) (w : Nat) : List MxEntry :=
  (s.wheel w).eng.mxq.filter fun e => !e.started && !goingOut s w e.slot e.uid

/-- What a started entry counts (18 R605): an MXH paired or alone, a start at half rate, Dunob mode. -/
def tallyStart (s : State) (w : Nat) (paired slow : Bool) (e : MxEntry) : State :=
  match entryCrew s w e.slot e.uid with
  | none => s
  | some c =>
    let s := if e.half then tallyCrew s w c (0x040 + 8 * e.fmtA + if paired then 1 else 2) else s
    let s := if slow then tallyCrew s w c (0x044 + 8 * e.fmtA) else s
    if e.dunob then tallyCrew s w c (0x045 + 8 * e.fmtA) else s

/-- The queue with head `h` (and its partner next to it) started. -/
def startHead (s : State) (w : Nat) (h : MxEntry) (p : Option MxEntry) (badH badP : Bool) : State :=
  let s := (h :: p.toList).foldl (fun s e => tallyStart s w p.isSome (leaveKnown s 0 w 0 == 1) e) s
  s.modWheel w fun x =>
    let q := x.eng.mxq
    let ran := q.filter fun e => e.started
    let rest := q.filter fun e => !e.started && e.id != h.id && some e.id != p.map MxEntry.id
    let pair := startEntry s w h badH (p.map MxEntry.id) :: (match p with
      | some e => [startEntry s w e badP (some h.id)]
      | none => [])
    entryFrees { x with eng := { x.eng with mxq := ran ++ pair ++ rest, lastStart := s.watch } }

/-- The wheel may start an entry: it runs and holds matrix leave (R145). -/
def mayStart (s : State) (w : Nat) : Bool :=
  wheelRuns s w && decide (0 < leaveKnown s 0 w 0)

/-- The head entry begins its operand read; an MXH pairs, or runs alone when another entry waits behind it (R148, R149).
`badHead` and `badPartner`: an uncorrectable error met on the read (R151). -/
def execArrayEntryStart (wheel : Nat) (badHead badPartner : Bool) (s : State) : Out :=
  act (decide (wheel < 192)) (fun s =>
    if !mayStart s wheel then s else
    match waitingMx s wheel with
    | [] => s
    | h :: rest =>
      if !h.half then startHead s wheel h none badHead false
      else
        match partnerOf h [] rest with
        | some p => startHead s wheel h (some p) badHead badPartner
        | none => if rest = [] then s else startHead s wheel h none badHead false) s

/-- Since when the head of the array queue has found nothing else in it: its arrival, or the start of the entry before it. -/
def aloneSince (s : State) (w : Nat) (h : MxEntry) : Nat := max h.since (s.wheel w).eng.lastStart

/-- An MXH that found nothing else in the queue for 8 CORE cycles, 2 ticks (02 R40), runs alone (R149). -/
def execMxhPartnerTimeout (wheel : Nat) (s : State) : Out :=
  act (decide (wheel < 192)) (fun s =>
    if !mayStart s wheel then s else
    match waitingMx s wheel with
    | [h] => if h.half && decide (aloneSince s wheel h + 2 ≤ s.watch) then startHead s wheel h none false false else s
    | _ => s) s

/-! ### Commits (R142, R143, R151) -/

def tileByte (t : Tab Byte) (tile b : Nat) : Byte := Tab.get 0 t (tile * 1024 + b)

/-- Scale code of index r, K block b from a slot (R135). -/
def scaleOf (e : MxEntry) (slot r b : Nat) : Nat := (tileByte e.tiles e.scaleTile (64 * slot + 4 * r + b)).toNat

/-- Activation and weight codes and values along K for output (row, col) of an entry. -/
def operandsOf (e : MxEntry) (row col : Nat) : List (Nat × Nat × FV × FV) :=
  (List.range (kDepth e.fmtA)).map fun k =>
    let q := row / 16
    let a := tileElem e.fmtA e.transA (tileByte e.tiles (e.ta0 + q)) (row % 16) k
    let b := tileElem e.fmtB e.transB (tileByte e.tiles e.tw) col k
    (a, b, elemValue e.fmtA a (scaleOf e (e.scaleBase + q) (row % 16) (k / 32)),
      elemValue e.fmtB b (scaleOf e (e.scaleBase + 4) col (k / 32)))

/-- Result of one output word, with its overflow and NaN (R132; 05 R180 to R183, R211); `q` is the draw of a stochastic
rounding. -/
def mxWord (e : MxEntry) (row col : Nat) (w : Word) (q : Option Nat) : Word × Bool × Bool :=
  let l := operandsOf e row col
  if e.isInt then
    (intCell (l.map fun o => intElem o.1 * intElem o.2.1) (if e.acc then some w else none), false, false)
  else if e.dunob then
    let f := fun (code : Nat) (v : FV) => match fmtOf code with
      | some g => daz g v
      | none => v
    let r := dunobSum 64 (if e.acc then w else 0) (l.map fun o => (f e.fmtA o.2.2.1).mul (f e.fmtB o.2.2.2))
    let fin := (l.all fun o => o.2.2.1.finite && o.2.2.2.finite) && (!e.acc || (f32 w).finite)
    (r, fin && !(f32 r).finite, (f32 r).isNan)
  else
    let p := cellSum (l.map fun o => o.2.2.1.mul o.2.2.2) (if e.acc then some (f32 w) else none)
    let r := match q with
      | some d => roundCellStoch p d
      | none => roundCell p
    let fin := (l.all fun o => o.2.2.1.finite && o.2.2.2.finite) && (!e.acc || (f32 w).finite)
    (r, fin && !(f32 r).finite, (f32 r).isNan)

/-- A draw from lane `l`'s generator (05 R186, R187). -/
def drawLane (c : Crew) (l : Nat) : Nat × Crew :=
  let (q, g) := draw (Tab.get 0 c.gens l)
  (q, { c with gens := Tab.put 0 c.gens l g })

/-- An accumulator word of the crew, zero until the crew writes it (03 R77; log entry 95). -/
def accWord (c : Crew) (n : Nat) : Word := Tab.get 0 c.acc n
def setAcc (c : Crew) (n : Nat) (v : Word) : Crew := { c with acc := Tab.put 0 c.acc n v }

/-- Write one word of a commit, drawing when the window rounds stochastically. -/
def commitWord (e : MxEntry) (st : Crew × Bool × Bool) (row col : Nat) : Crew × Bool × Bool :=
  let (c, ov, nan) := st
  let n := e.word + row * 16 + col + (if e.h then 8 else 0)
  let stoch := e.longSum && !e.isInt && !e.dunob
  let (q, c) := if stoch then (let (q, c) := drawLane c (row / 2); (some q, c)) else (none, c)
  let (v, o, isNan) := mxWord e row col (accWord c n) q
  (setAcc c n v, ov || o, nan || (o && isNan))

/-- Commit an entry into its crew's accumulators: the rows of its lanes, in lane order (R138; 05 R187). -/
def commitEntry (s : State) (w : Nat) (e : MxEntry) : State :=
  match entryCrew s w e.slot e.uid with
  | none => s
  | some c =>
    let cols := if e.half then 8 else 16
    let (c, ov, nan) := (lanesOf e.lanes).foldl (fun st l =>
      [2 * l, 2 * l + 1].foldl (fun st row => (List.range cols).foldl (fun st col => commitWord e st row col) st) st)
      (c, false, false)
    let s := s.setCrew w e.slot c
    let s := if e.longSum && !e.isInt && !e.dunob then tallyCrew s w c 0x07F (2 * cols * (lanesOf e.lanes).length) else s
    if ov then overflowAt (tallyCrew s w c (0x047 + 8 * e.fmtA)) w e.slot nan true else s

/-- A wheel commits what it has started; also while a stop drains (18 R613). -/
def memWheel (s : State) (w : Nat) : Bool := s.serving && s.dbg.stop != 3 && s.present w

/-! ### MV (R159, R160) -/

/-- The bytes of a tile. -/
def tileBytes (c : Crew) (t : Nat) : List Byte := getBytes c.tiles (t * 1024) 1024

/-- MV: 16 outputs of a thin product. -/
def execMv (i : Issue) (s : State) : Out :=
  let fw := xf i 21 3
  let fx := xf i 18 3
  mxClass i { legal := decide (da i < 4) && decide (sb i < 16) && !i.x.getLsbD 16 && xf i 0 7 == 0
              regs := [sa i], tiles := [sb i, xf i 11 4] }
    (fun s c => let x := s.wheel i.wheel
      decide (4 ≤ x.eng.mvq.length) || tileComing x c.uid (sb i) || tileComing x c.uid (xf i 11 4))
    (fun s c x m =>
      let dunob := (s.stream c.stream).dunob
      let lane := (leadLane m).getD 0
      let off := (reg c lane (sa i)).toNat % 4096
      if dunob && (fw == 0 || fx == 0) then faultAt s i fDunobFormat else
      match Tab.find c.wins (da i) with
      | none => faultAt s i fWindowUnset
      | some win =>
        if win.size * 1024 < off * 16 + 16 then faultAt s i fAccRange
        else if win.isInt || !((isFp8 fw && isFp8 fx) || (fw == 4 && fx == 4)) then faultAt s i fMxFormat
        else if passThrough s c.saggar win then s.setCrew i.wheel i.slot (leaveMx c)
        else
          let (id, s) := s.fresh
          let s := tallyCrew s i.wheel c (0x046 + 8 * fw)
          let e : MvEntry := { id, slot := i.slot, uid := c.uid, pc := x.pc, begun := (s.wheel i.wheel).eng.mvq == [], word := win.base * 1024 + off * 16
                               longSum := win.longSum, fmtW := fw, fmtX := fx, transW := i.x.getLsbD 17
                               acc := i.x.getLsbD 15, lane, row := xf i 7 4, dunob, layer := c.layer
                               operator := c.operator, wTile := tileBytes c (sb i), xTile := tileBytes c (xf i 11 4) }
          (s.setCrew i.wheel i.slot (leaveMx c)).modWheel i.wheel fun y =>
            { y with eng := { y.eng with mvq := y.eng.mvq ++ [e] } }) s

/-- The entry of the matrix-vector queue that goes next: the oldest but for entries withdrawn before they began (R160, R167). -/
def nextMv (s : State) (w : Nat) : Option MvEntry := (s.wheel w).eng.mvq.find? fun e => e.begun || !goingOut s w e.slot e.uid

/-- Entry `id` leaves the matrix-vector queue, and the next one begins its operand read. -/
def popMv (s : State) (w id : Nat) : State :=
  let s := s.modWheel w fun x => entryFrees { x with eng := { x.eng with mvq := x.eng.mvq.filter fun e => e.id != id } }
  match nextMv s w with
  | none => s
  | some n => s.modWheel w fun x => { x with eng := { x.eng with mvq := x.eng.mvq.map fun e => if e.id = n.id then { e with begun := true } else e } }

/-- Output j of an MV entry (R159; 05 R180, R181, R211). -/
def mvWord (e : MvEntry) (j : Nat) (w : Word) (q : Option Nat) : Word × Bool × Bool :=
  let l := (List.range (kDepth e.fmtW)).map fun k =>
    (elemValue e.fmtW (tileElem e.fmtW e.transW (fun b => e.wTile.getD b 0) j k) 127,
     elemValue e.fmtX (tileElem e.fmtX false (fun b => e.xTile.getD b 0) e.row k) 127)
  let f := fun (code : Nat) (v : FV) => match fmtOf code with
    | some g => if e.dunob then daz g v else v
    | none => v
  let ps := l.map fun o => (f e.fmtW o.1).mul (f e.fmtX o.2)
  let r := if e.dunob then dunobSum 64 (if e.acc then w else 0) ps
    else
      let p := cellSum ps (if e.acc then some (f32 w) else none)
      match q with
      | some d => roundCellStoch p d
      | none => roundCell p
  let fin := (l.all fun o => o.1.finite && o.2.finite) && (!e.acc || (f32 w).finite)
  (r, fin && !(f32 r).finite, (f32 r).isNan)

/-- Commit the 16 outputs of an MV, drawing from its lane (05 R187). -/
def commitMv (s : State) (w : Nat) (e : MvEntry) : State :=
  match entryCrew s w e.slot e.uid with
  | none => s
  | some c =>
    let (c, ov, nan) := (List.range 16).foldl (fun (st : Crew × Bool × Bool) j =>
      let (c, ov, nan) := st
      let (q, c) := if e.longSum && !e.dunob then (let (q, c) := drawLane c e.lane; (some q, c)) else (none, c)
      let (v, o, isNan) := mvWord e j (accWord c (e.word + j)) q
      (setAcc c (e.word + j) v, ov || o, nan || (o && isNan))) (c, false, false)
    let s := s.setCrew w e.slot c
    let s := if e.longSum && !e.dunob then tallyCrew s w c 0x07F 16 else s
    if ov then overflowAt (tallyCrew s w c (0x047 + 8 * e.fmtW)) w e.slot nan true else s

end Sys2Proof.Machine
end

