-- ==== Sys2Proof/Machine/LoadStore.lean ====
section
/-!
DEFINITION. Loads, stores, atomics and fences, classes 0x06, 0x07 and 0x09 (03 R124, R670 to R672; 09).
-/
namespace Sys2Proof.Machine

/-! ### Registers by width -/

/-- Deliver `n` little-endian bytes into DA: zero-extended, a pair, or four registers (R124, R671). -/
def putVal (c : Crew) (lane da : Nat) (bs : List Byte) : Crew :=
  let v := leNat bs
  if bs.length ≤ 4 then setReg c lane da (BitVec.ofNat 32 v)
  else if bs.length = 8 then setPair c lane da (BitVec.ofNat 64 v)
  else setPair (setPair c lane da (BitVec.ofNat 64 v)) lane (da + 2) (BitVec.ofNat 64 (v / 2 ^ 64))

/-- The `n` bytes of a store's data register(s). -/
def getVal (c : Crew) (lane r n : Nat) : List Byte :=
  if n ≤ 4 then leBytes n (reg c lane r).toNat
  else if n = 8 then leBytes 8 (pair c lane r).toNat
  else leBytes 8 (pair c lane r).toNat ++ leBytes 8 (pair c lane (r + 2)).toNat

/-! ### Addresses -/

/-- The range touches the saggar's layer table, which its threads may not write (05 R189). -/
def inLayerTable (s : State) (k va len : Nat) : Bool :=
  let g := (s.saggar k).cfg
  decide (g.layerTable.toNat < va + len) && decide (va < g.layerTable.toNat + 32 * g.layerCount) && g.layerCount != 0

/-- What an access of a crew to device memory meets (08 R312, 05 R189, R198). -/
def crewAccess (s : State) (k : Nat) (write : Bool) (va : DWord) (n : Nat) : Except Nat Nat :=
  match translate s k va with
  | none => .error fTranslation
  | some (pa, m) =>
    if write && (!m.write || inLayerTable s k va.toNat n) then .error fTranslation
    else if write && heldRange s k va.toNat n then .error fHeldWrite
    else .ok pa

/-- The first fault of a crew's accesses, if any. -/
def firstFault (s : State) (k : Nat) (write : Bool) (n : Nat) (vas : List DWord) : Option Nat :=
  vas.findSome? fun va => match crewAccess s k write va n with
    | .error e => some e
    | .ok _ => none

def paOf (s : State) (k : Nat) (va : DWord) : Nat := ((translate s k va).map Prod.fst).getD 0

/-- Signed byte offset X[15:0]. -/
def offset (i : Issue) : DWord := (i.x.setWidth 16).signExtend 64

def devAddr (i : Issue) (c : Crew) (l : Nat) : DWord := pair c l (sa i) + offset i
/-- A local store address as an integer: register plus signed offset. -/
def lsAddr (i : Issue) (c : Crew) (l : Nat) : Int := (reg c l (sa i)).toNat + (offset i).toInt

/-- The fault of local store accesses of `n` bytes, if any: alignment, then the allocation (R121). -/
def lsFault (c : Crew) (n : Nat) (as : List Int) : Option Nat :=
  if as.any fun a => a % n != 0 then some fMisaligned
  else if as.any fun a => decide (a < 0) || decide ((c.res.s * 1024 : Nat) < a + n) then some fLocal
  else none

def lsGet (c : Crew) (a n : Nat) : List Byte := getBytes c.ls a n
def lsPut (c : Crew) (a : Nat) (bs : List Byte) : Crew := { c with ls := putBytes c.ls a bs }

/-- Every access of a crew is translated by its wheel (08 R313), and watched there (18 R609). -/
def watchAll (s : State) (i : Issue) (c : Crew) (kind n : Nat) (vas : List DWord) : State :=
  vas.foldl (fun s va => watchAccess (wheelXlat s i.wheel c.saggar c.layer c.operator va) kind c.saggar c.stream i.wheel va n) s

/-- Which die (0 own, 1 other) the home of an address lies on, for the tallies of 18 R605. -/
def memEvent (s : State) (w pa e : Nat) : Nat := 0x0C0 + 16 * (if homeSlice s pa / 64 = State.wheelDie w then 0 else 1) + e

/-! ### Store path entries of a crew -/

/-- The entry of a crew, in issue order. -/
def crewEntry (c : Crew) (i : Issue) (pc va : DWord) (pa cache : Nat) (op : StoreOp) (rel combining : Bool) (id : Nat) :
    StoreEntry :=
  { id, slot := i.slot, uid := c.uid, saggar := c.saggar, launch := c.launch, va, pa, op, rel, combining, cache, pc }

/-- Bytes of one sector, by offset in it. -/
def sectorBytes (pa : Nat) (bs : List Byte) : Tab Byte :=
  ((List.range bs.length).zip bs).map fun e => (pa % 32 + e.1, e.2)

/-- A store of a crew joins the store path. A plain one of less than a sector waits in the combining buffer, and merges into the buffer's
youngest entry for its home slice when that holds the same sector of the same crew, and neither a release nor a read of the sector
stands between them (09 R333, R338, R342). -/
def storeBytes (s : State) (i : Issue) (c : Crew) (pc va : DWord) (pa cache : Nat) (bs : List Byte) (plain rel : Bool) :
    State :=
  let s := l1Store s i.wheel pa bs
  let l := (s.wheel i.wheel).mem.store
  let youngest := l.reverse.find? fun e => e.op != .fence && homeSlice s e.pa == homeSlice s pa
  let combine := plain && bs.length != 32
  match youngest with
  | some e =>
    match e.op with
    | .bytes t =>
      if combine && e.combining && e.uid == c.uid && e.pa / 32 == pa / 32 && !relAfter l e &&
          !((s.wheel i.wheel).mem.reads.any fun r => decide (e.id < r.id) && r.value.isNone && decide (r.pa / 32 = pa / 32)) then
        let t := (sectorBytes pa bs).foldl (fun t b => Tab.ins t b.1 b.2) t
        let e' := { e with op := .bytes t, combining := t.length != 32 }
        let s := tallyCrew s i.wheel c (memEvent s i.wheel pa 11)
        s.modWheel i.wheel fun x => { x with mem := { x.mem with store := x.mem.store.map fun f => if f.id = e.id then e' else f } }
      else
        let (id, s) := s.fresh
        pushStore s i.wheel (crewEntry c i pc va pa cache (.bytes (sectorBytes pa bs)) rel combine id)
    | _ =>
      let (id, s) := s.fresh
      pushStore s i.wheel (crewEntry c i pc va pa cache (.bytes (sectorBytes pa bs)) rel combine id)
  | none =>
    let (id, s) := s.fresh
    pushStore s i.wheel (crewEntry c i pc va pa cache (.bytes (sectorBytes pa bs)) rel combine id)

/-! ### LD -/

/-- Bytes of a width code (R124). -/
def widthOf (code : Nat) : Nat := 2 ^ code

/-- Registers a datum of a width names. -/
def dataForm (f : Form) (code r : Nat) : Form :=
  if code = 4 then { f with quads := r :: f.quads } else if code = 3 then { f with pairs := r :: f.pairs }
  else { f with regs := r :: f.regs }

/-- A plain load of one lane: an L1 hit delivers at once, a miss is a read in flight (09 R340). -/
def loadLane (s : State) (i : Issue) (c : Crew) (n order cache l : Nat) (va : DWord) : State :=
  let pa := paOf s c.saggar va
  let s := tallyCrew s i.wheel c (memEvent s i.wheel pa (if order = 1 then 5 else if order = 2 then 6 else 0))
  let miss (s : State) : State :=
    let (id, s) := s.fresh
    s.modWheel i.wheel fun x => { x with mem := { x.mem with reads := x.mem.reads ++ [
      { id, slot := i.slot, uid := c.uid, path := i.path, saggar := c.saggar, pa, len := n, dest := .reg l (da i), order,
        acq := order == 2, cache }] } }
  match l1Sector s i.wheel pa with
  | some e =>
    if order = 0 && e.saggar == c.saggar then
      let s := tallyCrew s i.wheel c (memEvent s i.wheel pa 1)
      s.modCrew i.wheel i.slot fun d => putVal d l (da i) ((e.bytes.drop (pa % 32)).take n)
    else miss s
  | none => miss s

/-- The path waits for its reads, or goes on when none is in flight. -/
def waitReads (s : State) (i : Issue) (uid : Nat) : State :=
  if (s.wheel i.wheel).mem.reads.any fun r => r.uid == uid && r.path == i.path then
    s.modCrew i.wheel i.slot fun c => waitPath c i.path .reads
  else next s i

/-- DA ← memory (R124). -/
def execLd (i : Issue) (s : State) : Out :=
  let w := xf i 21 3
  let n := widthOf w
  let order := xf i 19 2
  let loc := i.x.getLsbD 18
  let f : Form := { legal := decide (w ≤ 4) && order != 3 && xf i 16 2 != 3 && i.sb == 0, reads := !loc }
  issue i (dataForm (if loc then { f with regs := [sa i] } else { f with pairs := [sa i] }) w (da i)) (fun s c _ m =>
    if loc then
      match lsFault c n ((lanesOf m).map (lsAddr i c)) with
      | some code => faultAt s i code
      | none => s.setCrew i.wheel i.slot (pathNext ((lanesOf m).foldl (fun d l =>
          putVal d l (da i) (lsGet c (lsAddr i c l).toNat n)) c) i.path)
    else
      let vas := (lanesOf m).map (devAddr i c)
      if vas.any fun a => a.toNat % n != 0 then faultAt s i fMisaligned
      else
        let s := watchAll s i c 0 n vas
        match firstFault s c.saggar false n vas with
        | some code => faultAt s i code
        | none =>
          waitReads ((lanesOf m).foldl (fun s l => loadLane s i c n order (xf i 16 2) l (devAddr i c l)) s) i c.uid) s

/-! ### ST -/

/-- Memory ← SB (R124). -/
def execSt (i : Issue) (s : State) : Out :=
  let w := xf i 21 3
  let n := widthOf w
  let order := xf i 19 2
  let loc := i.x.getLsbD 18
  let f : Form := { legal := decide (w ≤ 4) && order != 3 && xf i 16 2 != 3 && i.da == 0 }
  issue i (dataForm (if loc then { f with regs := [sa i] } else { f with pairs := [sa i] }) w (sb i)) (fun s c x m =>
    if loc then
      match lsFault c n ((lanesOf m).map (lsAddr i c)) with
      | some code => faultAt s i code
      | none => s.setCrew i.wheel i.slot (pathNext ((lanesOf m).foldl (fun d l =>
          lsPut d (lsAddr i c l).toNat (getVal c l (sb i) n)) c) i.path)
    else
      let vas := (lanesOf m).map (devAddr i c)
      if vas.any fun a => a.toNat % n != 0 then faultAt s i fMisaligned
      else
        let s := watchAll s i c 1 n vas
        match firstFault s c.saggar true n vas with
        | some code => faultAt s i code
        | none =>
          let s := if order = 2 then flushCombining s i.wheel c.uid else s
          next ((lanesOf m).foldl (fun s l =>
            let va := devAddr i c l
            let pa := paOf s c.saggar va
            let s := tallyCrew s i.wheel c (memEvent s i.wheel pa (if order = 2 then 8 else 7))
            storeBytes s i c x.pc va pa (xf i 16 2) (getVal c l (sb i) n) (order == 0) (order == 2)) s) i) s

/-! ### Atomics -/

/-- New value of an atomic (R124, R671): `a` the operand, `b` the value CAS stores. -/
def atomValue (op : AtomOp) (wide : Bool) (old a b : DWord) : DWord :=
  let lt := if wide then a.slt old else (a.setWidth 32).slt (old.setWidth 32)
  match op with
  | .add => old + a
  | .fadd => (fadd (old.setWidth 32) (a.setWidth 32)).setWidth 64
  | .min => if lt then a else old
  | .max => if lt then old else a
  | .and => old &&& a
  | .or => old ||| a
  | .exch => a
  | .cas => if old = a then b else old

/-- An atomic: DA ← old value; ordered as X[20:19] says (R124; 09 R338, R340). -/
def atomic (op : AtomOp) (i : Issue) (s : State) : Out :=
  let wide := xf i 21 3 == 3
  let order := xf i 19 2
  let cas := op == .cas
  let rs := if cas then (if wide then [sb i, sb i + 2] else []) else if wide then [sb i] else []
  let ns := if cas then (if wide then [] else [sb i, sb i + 1]) else if wide then [] else [sb i]
  issue i { legal := xf i 0 19 == 0 && (xf i 21 3 == 2 || (wide && op != .fadd))
            pairs := sa i :: (if wide then [da i] else []) ++ rs, regs := (if wide then [] else [da i]) ++ ns }
    (fun s c x m =>
      let n := if wide then 8 else 4
      let vas := (lanesOf m).map fun l => pair c l (sa i)
      if vas.any fun a => a.toNat % n != 0 then faultAt s i fMisaligned
      else
        let s := watchAll s i c 2 n vas
        match firstFault s c.saggar true n vas with
        | some code => faultAt s i code
        | none =>
          let rel := order == 2 || order == 3
          let acq := order == 1 || order == 3
          let s := if rel then flushCombining s i.wheel c.uid else s
          waitReads ((lanesOf m).foldl (fun s l =>
            let va := pair c l (sa i)
            let pa := paOf s c.saggar va
            let a := if wide then pair c l (sb i) else (reg c l (sb i)).setWidth 64
            let b := if wide then pair c l (sb i + 2) else (reg c l (sb i + 1)).setWidth 64
            let s := l1Drop (tallyCrew s i.wheel c (memEvent s i.wheel pa 9)) i.wheel pa
            let (id, s) := s.fresh
            let s := pushStore s i.wheel (crewEntry c i x.pc va pa 0 (.atom op wide a b i.path l (da i) acq) rel false id)
            s.modWheel i.wheel fun y => { y with mem := { y.mem with reads := y.mem.reads ++ [
              { id, slot := i.slot, uid := c.uid, path := i.path, saggar := c.saggar, pa, len := n, dest := .reg l (da i)
                order := 3, acq }] } }) s) i c.uid) s

/-- Add (R124). -/
def execAtomAdd (i : Issue) (s : State) : Out := atomic .add i s
/-- FP32 add, rounded once by RNE at the home slice (09 R355). -/
def execAtomFadd (i : Issue) (s : State) : Out := atomic .fadd i s
/-- Signed minimum (R671). -/
def execAtomMin (i : Issue) (s : State) : Out := atomic .min i s
/-- Signed maximum (R671). -/
def execAtomMax (i : Issue) (s : State) : Out := atomic .max i s
/-- AND. -/
def execAtomAnd (i : Issue) (s : State) : Out := atomic .and i s
/-- OR. -/
def execAtomOr (i : Issue) (s : State) : Out := atomic .or i s
/-- Exchange. -/
def execAtomExch (i : Issue) (s : State) : Out := atomic .exch i s
/-- Compare and swap (R671). -/
def execAtomCas (i : Issue) (s : State) : Out := atomic .cas i s

/-! ### FENCE -/

/-- FENCE acquire, release or both (R124; 09 R340, R342 to R344). -/
def execFence (i : Issue) (s : State) : Out :=
  issue i { legal := i.da == 0 && i.sa == 0 && i.sb == 0 && decide (0 < i.x.toNat) && decide (i.x.toNat < 4) }
    (fun s c _ m =>
      if m = 0 then next s i
      else if i.x.toNat = 1 then next (acquire s i.wheel c.saggar c.layer c.operator) i
      else
        let (id, s) := issueRelease s i.wheel i.slot c.uid
        if i.x.toNat = 2 then settleAll (next s i) i.wheel
        else settleAll (s.modCrew i.wheel i.slot fun c => waitPath c i.path (.fence id)) i.wheel) s

end Sys2Proof.Machine
end

