-- ==== Sys2Proof/Machine/Acc.lean ====
section
/-!
DEFINITION. Accumulator windows, ACC.ZERO and ACC.RED of class 0x12 (04 R152 to R156, R164), and the tile instructions
of class 0x11 (04 R161, R163).
-/
namespace Sys2Proof.Machine

/-! ### Latched weight table entries (07 R258, R259) -/

/-- A table entry as memory holds it; one that is not mapped is empty. -/
def tableEntry (s : State) (k wid : Nat) : List Byte :=
  match translate s k ((s.saggar k).cfg.wgtTable + BitVec.ofNat 64 (64 * wid)) with
  | none => []
  | some (pa, _) => memBytes s pa 64

/-- A step begins: nothing is latched, and the table stands for the step as memory holds it now (R259, R272). -/
def newTable (s : State) (k : Nat) : State :=
  let l := (List.range (s.saggar k).cfg.wgtCount).map fun i => (i, tableEntry s k i)
  s.modSaggar k fun g => { g with weights := [], table := some l }

/-- Latch the entry of weight `wid` unless it is latched since the last STEP, or lies beyond the table. Before the saggar's first STEP it
is read as memory holds it (log entry 81). -/
def latchWeight (s : State) (k wid : Nat) : State :=
  let g := s.saggar k
  if g.cfg.wgtCount ≤ wid || Tab.has g.weights wid then s else
  s.modSaggar k fun x => { x with weights := Tab.ins x.weights wid (match g.table with
    | some t => Tab.get [] t wid
    | none => tableEntry s k wid) }

/-- The wheel's role cache takes a weight ID (07 R262). -/
def cacheRole (s : State) (w wid : Nat) : State :=
  s.modWheel w fun x => { x with eng := { x.eng with roles := (wid :: x.eng.roles.filter (· != wid)).take 256 } }

/-! ### ACC.WIN (04 R152 to R155) -/

/-- What an ACC.WIN of window `n` sets, or its fault. -/
def windowOf (c : Crew) (n ty : Nat) (long : Bool) (base size : Nat) (wid : Option Nat) : Except Nat Window :=
  if 1 < ty || (ty == 1 && long) then .error fMxFormat else
  let earlier := match wid with
    | none => none
    | some v => c.wins.find? fun (e : Nat × Window) => e.1 != n && e.2.weight == some v
  let base := match earlier with
    | none => base
    | some e => e.2.base
  if size = 0 || decide (c.res.a / 4 < base + size) then .error fAccRange else
  let x : Window := { base, size, isInt := ty == 1, longSum := long, weight := wid }
  match earlier with
  | none => .ok x
  | some e => if e.2.size != size || e.2.isInt != (ty == 1) then .error fWeightConflict else .ok x

/-- ACC.WIN: base, size, type and weight of a window. -/
def execAccWin (i : Issue) (s : State) : Out :=
  issue i { guarded := true, legal := decide (da i < 4) && xf i 3 21 == 0, regs := [sa i, sb i] } (fun s c _ m =>
    match leadLane m with
    | none => next s i
    | some l =>
      let a := (reg c l (sa i)).toNat
      let b := (reg c l (sb i)).toNat
      let wid := if b / 65536 % 2 = 1 then some (b % 65536) else none
      match windowOf c (da i) (xf i 0 2) (i.x.getLsbD 2) (a % 64) (a / 256 % 128) wid with
      | .error e => faultAt s i e
      | .ok x =>
        let s := match wid with
          | none => s
          | some v => cacheRole (latchWeight s c.saggar v) i.wheel v
        next (s.modCrew i.wheel i.slot fun c => { c with wins := Tab.ins c.wins (da i) x }) i) s

/-! ### ACC.ZERO -/

/-- The instruction may go on: no earlier work of the crew holds the words. -/
def accFree (s : State) (i : Issue) (c : Crew) (lo hi : Nat) : Bool :=
  !accWaits (s.wheel i.wheel) c.uid lo hi s.nextId

/-- Block number and window of an operand field of 04 R164. -/
def blockField (c : Crew) (f : Nat) : Except Nat (Window × Nat) := blockAt c (f % 4) (f / 4)

/-- The block an operand names is free, or names no block. -/
def blockFree (s : State) (i : Issue) (c : Crew) (f n : Nat) : Bool :=
  match blockField c f with
  | .error _ => true
  | .ok (_, w) => accFree s i c w (w + 1024 * n)

/-- Clear words from `w` on. -/
def zeroAcc (c : Crew) (w n : Nat) : Crew := (List.range n).foldl (fun c j => setAcc c (w + j) 0) c

/-- ACC.ZERO: the block's words become zero. -/
def execAccZero (i : Issue) (s : State) : Out :=
  issueStall i { guarded := true, legal := i.sa == 0 && i.sb == 0 && i.x == 0 } (fun s c _ m => m == 0 || blockFree s i c (da i) 1)
    (fun s c _ m =>
      if m = 0 then next s i else
      match blockField c (da i) with
      | .error e => faultAt s i e
      | .ok (x, w) =>
        let s := tallyCrew s i.wheel c 0x0AB
        if passThrough s c.saggar x then next s i
        else next (s.modCrew i.wheel i.slot fun c => zeroAcc c w 1024) i) s

/-! ### ACC.RED (04 R156; 05 R180, R184, R187, R212) -/

/-- One addition of ACC.RED in FP32: RNE, or stochastic with a draw. -/
def redAdd (q : Option Nat) (a b : Word) : Word :=
  match q with
  | none => fadd a b
  | some d => roundCellStoch { v := (f32 a).add (f32 b) } d

/-- An FP32 addition of a Dunob-mode stream: RNE, subnormal operands and results flushed (05 R173, R212). -/
def dunobAdd (a b : Word) : Word := BitVec.ofNat 32 (rneDunob fp32 ((daz fp32 (f32 a)).add (daz fp32 (f32 b))))

/-- The sum of one word's source values, and its addition into the destination; one draw rounds every addition of the word (log entry
87). -/
def redWord (isInt dunob : Bool) (q : Option Nat) (src : List Word) (dst : Option Word) : Word :=
  let add := if isInt then satAdd
    else if dunob then dunobAdd
    else redAdd q
  let t := if dunob then (match src with
      | [] => 0
      | a :: l => l.foldl add (if isInt || l != [] then a else
          BitVec.ofNat 32 (rneDunob fp32 (daz fp32 (f32 a)))))
    else tree add 0 7 src
  match dst with
  | none => t
  | some d => add d t

/-- One word of an ACC.RED whose source and destination windows have different types: no value is stated for it. -/
def freeBlock (s : State) (w slot word : Nat) : State :=
  (List.range 128).foldl (fun s j =>
    let (v, s) := s.free
    s.modCrew w slot fun c => (List.range 8).foldl (fun c k => setAcc c (word + 8 * j + k) (v.extractLsb' (32 * k) 32)) c) s

/-- All words of an ACC.RED: overflow and NaN seen. -/
def redAll (c : Crew) (isInt long dunob acc : Bool) (src n dst : Nat) : Crew × Bool × Bool :=
  (List.range 1024).foldl (fun (st : Crew × Bool × Bool) j =>
    let (d, ov, nan) := st
    let (q, d) := if long && !isInt && !dunob then (let (q, d) := drawLane d (j / 32); (some q, d)) else (none, d)
    let l := (List.range n).map fun b => accWord c (src + 1024 * b + j)
    let old := accWord c (dst + j)
    let v := redWord isInt dunob q l (if acc then some old else none)
    let bad := !isInt && !(f32 v).finite && (l.all fun w => (f32 w).finite) && (!acc || (f32 old).finite)
    (setAcc d (dst + j) v, ov || bad, nan || (bad && (f32 v).isNan))) (c, false, false)

/-- Blocks an ACC.RED sums, as the lead lane's register gives them. -/
def redCount (c : Crew) (m : Word) (i : Issue) : Nat :=
  match leadLane m with
  | none => 0
  | some l => (reg c l (sb i)).toNat

/-- ACC.RED: the sum of n consecutive blocks into the destination block. -/
def execAccRed (i : Issue) (s : State) : Out :=
  issueStall i { guarded := true, legal := xf i 16 8 == 0 && xf i 0 15 == 0, regs := [sb i] }
    (fun s c _ m => m == 0 || 64 < redCount c m i ||
      (blockFree s i c (da i) 1 && blockFree s i c (sa i) (redCount c m i)))
    (fun s c _ m =>
      if m = 0 then next s i else
      let n := redCount c m i
      match blockField c (sa i), blockField c (da i) with
      | .error e, _ => faultAt s i e
      | _, .error e => faultAt s i e
      | .ok (x, src), .ok (y, dst) =>
        if n = 0 || 64 < n || x.size < sa i / 4 + n || (src < dst && dst < src + 1024 * n) then
          faultAt s i fAccRange
        else if passThrough s c.saggar y then next s i
        else
          let s := tallyCrew s i.wheel c 0x0A8 n
          if x.isInt != y.isInt then next (freeBlock s i.wheel i.slot dst) i
          else
            let (d, ov, nan) := redAll c y.isInt y.longSum (s.stream c.stream).dunob (i.x.getLsbD 15) src n dst
            let s := s.setCrew i.wheel i.slot (pathNext d i.path)
            let s := if y.longSum && !y.isInt && !(s.stream c.stream).dunob then tallyCrew s i.wheel c 0x07F 1024 else s
            if ov then overflowAt s i.wheel i.slot nan true else s) s

/-! ### TLD, TST, TZERO (04 R161, R163) -/

/-- Bytes of a chunk code. -/
def chunkOf (i : Issue) : Nat := 8 * 2 ^ xf i 21 2

/-- Form of a tile transfer of tile `t`. -/
def tileForm (i : Issue) (legal : Bool) (t : Nat) : Form :=
  { legal := legal && decide (t < 16) && xf i 18 2 != 3 && xf i 16 2 == 0 && xf i 0 8 == 0
    pairs := if i.x.getLsbD 23 then [] else [sa i]
    regs := (if i.x.getLsbD 23 then [sa i] else []) ++ [xf i 8 8], tiles := [t] }

/-- Chunks of a transfer. -/
def chunks (i : Issue) : List Nat := List.range ((if i.x.getLsbD 20 then 512 else 1024) / chunkOf i)

/-- Addresses of the chunks in the local store, or the fault. -/
def tileLs (i : Issue) (c : Crew) (l : Nat) : Except Nat (List Nat) :=
  let n := chunkOf i
  let b := (reg c l (sa i)).toNat
  let st := (reg c l (xf i 8 8)).toNat
  if b % n != 0 || st % n != 0 then .error fMisaligned
  else
    let as := (chunks i).map fun j => b + j * st
    if as.any fun a => decide (c.res.s * 1024 < a + n) then .error fLocal else .ok as

/-- Addresses of the chunks in device memory, or the fault. -/
def tileDev (i : Issue) (c : Crew) (l : Nat) : Except Nat (List DWord) :=
  let n := chunkOf i
  let b := pair c l (sa i)
  let st := reg c l (xf i 8 8)
  if b.toNat % n != 0 || st.toNat % n != 0 then .error fMisaligned
  else .ok ((chunks i).map fun j => b + BitVec.ofNat 64 j * st.setWidth 64)

/-- Split a chunk into its sectors: offset and length. -/
def chunkParts (n : Nat) : List (Nat × Nat) := if n = 64 then [(0, 32), (32, 32)] else [(0, n)]

/-- Read one part of a chunk into the tile, from L1 or as a read in flight (09 R340). -/
def tileRead (s : State) (i : Issue) (c : Crew) (off n : Nat) (va : DWord) : State :=
  let pa := paOf s c.saggar va
  let s := tallyCrew s i.wheel c (memEvent s i.wheel pa 0)
  match (l1Sector s i.wheel pa).filter fun e => e.saggar == c.saggar with
  | some e => (tallyCrew s i.wheel c (memEvent s i.wheel pa 1)).modCrew i.wheel i.slot fun d =>
      { d with tiles := putBytes d.tiles off ((e.bytes.drop (pa % 32)).take n) }
  | none =>
    let (id, s) := s.fresh
    let r : ReadTxn := { id, slot := i.slot, uid := c.uid, path := i.path, saggar := c.saggar, pa, len := n
                         dest := .tile off, cache := xf i 18 2 }
    s.modWheel i.wheel fun x => { x with mem := { x.mem with reads := x.mem.reads ++ [r] } }

/-- TLD: fill a tile. -/
def execTld (i : Issue) (s : State) : Out :=
  issueStall i { tileForm i (i.sb == 0) (da i) with reads := !i.x.getLsbD 23 } (fun s c _ _ => !tileHeld (s.wheel i.wheel) c.uid (da i)) (fun s c _ m =>
    match leadLane m with
    | none => next s i
    | some l =>
      let n := chunkOf i
      let t := da i * 1024
      let s := tallyCrew s i.wheel c 0x0BB (if i.x.getLsbD 20 then 512 else 1024)
      if i.x.getLsbD 23 then
        match tileLs i c l with
        | .error e => faultAt s i e
        | .ok as => next (s.modCrew i.wheel i.slot fun d => { d with
            tiles := (as.zip (chunks i)).foldl (fun ts e => putBytes ts (t + e.2 * n) (getBytes c.ls e.1 n)) d.tiles }) i
      else
        match tileDev i c l with
        | .error e => faultAt s i e
        | .ok vas =>
          let s := watchAll s i c 0 n vas
          match firstFault s c.saggar false n vas with
          | some e => faultAt s i e
          | none =>
            waitReads ((vas.zip (chunks i)).foldl (fun s e => (chunkParts n).foldl (fun s p =>
              tileRead s i c (t + e.2 * n + p.1) p.2 (e.1 + BitVec.ofNat 64 p.1)) s) s) i c.uid) s

/-- TST: store a tile; its pieces are plain stores. -/
def execTst (i : Issue) (s : State) : Out :=
  issueStall i (tileForm i (i.da == 0) (sb i)) (fun s c _ _ => !tileComing (s.wheel i.wheel) c.uid (sb i)) (fun s c x m =>
    match leadLane m with
    | none => next s i
    | some l =>
      let n := chunkOf i
      let t := sb i * 1024
      let s := tallyCrew s i.wheel c 0x0BC (if i.x.getLsbD 20 then 512 else 1024)
      if i.x.getLsbD 23 then
        match tileLs i c l with
        | .error e => faultAt s i e
        | .ok as => next (s.modCrew i.wheel i.slot fun d => { d with
            ls := (as.zip (chunks i)).foldl (fun ls e => putBytes ls e.1 (getBytes c.tiles (t + e.2 * n) n)) d.ls }) i
      else
        match tileDev i c l with
        | .error e => faultAt s i e
        | .ok vas =>
          let s := watchAll s i c 1 n vas
          match firstFault s c.saggar true n vas with
          | some e => faultAt s i e
          | none =>
            next ((vas.zip (chunks i)).foldl (fun s e => (chunkParts n).foldl (fun s p =>
              let va := e.1 + BitVec.ofNat 64 p.1
              let pa := paOf s c.saggar va
              storeBytes (tallyCrew s i.wheel c (memEvent s i.wheel pa 7)) i c x.pc va pa (xf i 18 2)
                (getBytes c.tiles (t + e.2 * n + p.1) p.2) true false) s) s) i) s

/-- TZERO: the tile's bytes become zero. -/
def execTzero (i : Issue) (s : State) : Out :=
  issueStall i { legal := decide (da i < 16) && i.sa == 0 && i.sb == 0 && i.x == 0, tiles := [da i] }
    (fun s c _ _ => !tileHeld (s.wheel i.wheel) c.uid (da i)) (fun s _ _ m =>
      if m = 0 then next s i
      else next (s.modCrew i.wheel i.slot fun d => { d with tiles := putBytes d.tiles (da i * 1024) (List.replicate 1024 0) }) i) s

end Sys2Proof.Machine
end

