-- ==== Sys2Proof/Machine/Flash.lean ====
section
/-!
DEFINITION. The configuration flash (15 R519): bytes, the directory (R521), the boot log (R542); CRC-32 of IEEE 802.3.
-/
namespace Sys2Proof.Machine

/-- CRC-32 of IEEE 802.3. -/
def crc32 (l : List Byte) : Nat :=
  let step := fun (c : BitVec 32) (_ : Nat) => if c.getLsbD 0 then (c >>> 1) ^^^ 0xEDB88320 else c >>> 1
  (~~~(l.foldl (fun (c : BitVec 32) b => (List.range 8).foldl step (c ^^^ b.setWidth 32)) 0xFFFFFFFF)).toNat

/-- Bytes of the flash; an erased byte reads 0xFF. -/
def flashBytes (s : State) (a : Nat) : Nat → List Byte
  | 0 => []
  | n + 1 => Tab.get 0xFF s.flash a :: flashBytes s (a + 1) n

def flashPutT (t : Tab Byte) (a : Nat) : List Byte → Tab Byte
  | [] => t
  | b :: l => flashPutT (Tab.put 0xFF t a b) (a + 1) l

/-- Program bytes of erased flash. -/
def flashPut (s : State) (a : Nat) (l : List Byte) : State := { s with flash := flashPutT s.flash a l }

/-- Erase [a, a + n). -/
def flashErase (s : State) (a n : Nat) : State :=
  { s with flash := s.flash.filter fun e => !(decide (a ≤ e.1) && decide (e.1 < a + n)) }

/-- Bytes `i` to `i + n − 1` of a list as a number. -/
def lf (l : List Byte) (i n : Nat) : Nat := leNat ((l.drop i).take n)

/-! ### The directory (R521) -/

/-- A directory: its copy, SEQ, PREFERRED, TRY_VALID and TRY_SLOT. -/
structure Dir where
  copy : Nat := 0
  seq : Word := 0
  preferred : Nat := 0
  tryValid : Bool := false
  trySlot : Nat := 0
  lost : Bool := false
  deriving DecidableEq, Repr

def dirBytes (s : State) (copy : Nat) : List Byte := flashBytes s (0x10000 * copy) 64

/-- Directory copy `copy` when its CRC holds. -/
def dirCopy (s : State) (copy : Nat) : Option Dir :=
  let l := dirBytes s copy
  if crc32 (l.take 60) ≠ lf l 60 4 then none
  else
    let b4 := (l.getD 4 0).toNat
    let b5 := (l.getD 5 0).toNat
    some { copy, seq := BitVec.ofNat 32 (lf l 0 4), preferred := b4 % 2, tryValid := b5 % 2 == 1, trySlot := b5 / 2 % 2 }

/-- The directory in use: the valid copy whose SEQ follows the other's (R364); PREFERRED 0 when both are lost. -/
def dirNow (s : State) : Dir :=
  match dirCopy s 0, dirCopy s 1 with
  | some a, some b => if 0 < (b.seq - a.seq).toNat ∧ (b.seq - a.seq).toNat < 2 ^ 31 then b else a
  | some a, none => a
  | none, some b => b
  | none, none => { lost := true }

/-- Write the directory to the other copy, SEQ one higher. -/
def writeDir (s : State) (preferred : Nat) (tryValid : Bool) (trySlot : Nat) : State :=
  let d := dirNow s
  let copy := if d.lost then 0 else 1 - d.copy
  let l := leBytes 4 (d.seq + 1).toNat ++ leBytes 1 preferred ++ leBytes 1 ((if tryValid then 1 else 0) + 2 * trySlot) ++
    List.replicate 54 0
  flashPut (flashErase s (0x10000 * copy) 0x10000) (0x10000 * copy) (l ++ leBytes 4 (crc32 l))

/-! ### The boot log (R542) -/

def bootBase : Nat := 0x20000
def bootSlots : Nat := 14336

/-- Boot log slots that hold an entry, with its SEQ. -/
def bootEntries (s : State) : List (Nat × Nat) :=
  ((s.flash.filterMap fun e => if bootBase ≤ e.1 ∧ e.1 < bootBase + 64 * bootSlots then some ((e.1 - bootBase) / 64) else none).eraseDups).filterMap
    fun i =>
      let l := flashBytes s (bootBase + 64 * i) 64
      if crc32 (l.take 60) = lf l 60 4 then some (i, lf l 0 4) else none

/-- The entry with the highest SEQ. -/
def bootLast (s : State) : Option (Nat × Nat) :=
  (bootEntries s).foldl (fun (a : Option (Nat × Nat)) e => match a with
    | none => some e
    | some b => if b.2 < e.2 then some e else a) none

/-- HUB_STATE's image results and entry times in one boot log entry, written in the slot after the last. A slot's 64 KiB unit is
erased when the log enters it. -/
def writeBoot (s : State) : State :=
  let (i, q) := match bootLast s with
    | none => (0, 0)
    | some (i, q) => ((i + 1) % bootSlots, q + 1)
  let h := s.hub
  let b := fun (c : Bool) => if c then 1 else 0
  let l := leBytes 4 q ++ leBytes 4 s.time.epoch.toNat ++ leBytes 1 h.startKind ++ leBytes 1 h.state.code ++ leBytes 1 h.cause ++
    leBytes 1 h.resultA ++ leBytes 1 h.resultB ++ leBytes 1 (b h.dirLost * 8 + b h.memtest * 4 + b h.fromTry * 2 + h.inForce) ++ [0, 0] ++
    ((List.range 4).flatMap fun k => leBytes 8 (Tab.get 0 h.entryGts k).toNat) ++ leBytes 4 h.selftest.toNat ++ leBytes 8 h.build.toNat
  let a := bootBase + 64 * i
  let s := if i % 1024 = 0 then flashErase s a 65536 else s
  flashPut s a (l ++ leBytes 4 (crc32 l))

end Sys2Proof.Machine
end

