-- ==== Sys2Proof/Machine/Layers.lean ====
section
/-!
DEFINITION. The layer table at a STEP, at a layer-commit and at a reset (05 R201 to R209), and the modes of layer groups
(07 R280).
-/
namespace Sys2Proof.Machine

/-- The mode of a layer's group (07 R280, 15 R532): 0 NONE, 1 OFFLOAD, 2 RECOMPUTE. -/
def layerMode (s : State) (layer : Nat) : Nat :=
  match s.img.groups.find? fun (g : List Byte) =>
      decide (leNat (g.take 4) % 2 ^ 20 ≤ layer) && decide (layer < leNat ((g.drop 4).take 4) % 2 ^ 21) with
  | none => 0
  | some g => bits (leNat ((g.drop 4).take 4)) 30 2

/-- A step's examined elements make the layer quiet (R205). -/
def quietStep (thr flushed examined : Nat) : Bool := flushed == examined || decide (thr * examined < flushed * 65536)

/-- Process one layer at a STEP (R205). -/
def stepLayer (s : State) (k layer : Nat) : State :=
  let g := s.saggar k
  let e := layerGet s k layer
  let quiet := quietStep g.cfg.quietThr e.stepFlushed e.stepExamined
  let run := if 0 < e.stepExamined then (if quiet then min (e.quietRun + 1) 255 else 0) else e.quietRun
  let fire := g.cfg.quietAlarm && decide (0 < e.stepExamined) && run == g.cfg.quietSteps
  let raise := !e.pendingValid && !e.satSeen && fire && g.cfg.autoRaise
  let frac := if e.stepExamined = 0 then 0 else min (e.stepFlushed * 2 ^ 32 / e.stepExamined) (2 ^ 32 - 1)
  let s := if fire then
      record s 0x42 518 k (payload [(layer, 108), (run, 100), (g.step.toNat, 64), (frac, 32), (if raise then 1 else 0, 0)]) [k] false
        layer 0xFFF
    else s
  let scale := if e.pendingValid then e.pending else if e.satSeen then max (e.scale - 4) (-64)
    else if raise then min (e.scale + 1) 63 else e.scale
  let cause := if e.pendingValid then 0 else if e.satSeen then 2 else 1
  let s := if scale != e.scale then
      record s 0x43 518 k (payload [(layer, 108), ((BitVec.ofInt 8 e.scale).toNat, 100), ((BitVec.ofInt 8 scale).toNat, 92),
        (cause, 90), (g.step.toNat, 32)]) [k] false layer 0xFFF
    else s
  layerPut s k layer { e with
    stepFlushed := 0, stepExamined := 0, scale, quietRun := if fire then 0 else run, pendingValid := false, satSeen := false
    replays := 0, level := 0 }

/-- Insert into a rising list. -/
def insNat (n : Nat) : List Nat → List Nat
  | [] => [n]
  | m :: l => if n < m then n :: m :: l else if n = m then m :: l else m :: insNat n l

/-- Every layer whose entry changed in the step is processed, in ascending order (R205). -/
def stepLayers (s : State) (k : Nat) : State :=
  let l := (s.saggar k).touched.foldl (fun a n => insNat n a) []
  (l.foldl (fun s n => stepLayer s k n) s).modSaggar k fun g => { g with touched := [] }

/-- Reset the whole table (R207): every layer's scale is the default; a changed scale is recorded. -/
def resetTable (s : State) (k : Nat) : State :=
  let g := s.saggar k
  let s := (List.range g.cfg.layerCount).foldl (fun s n =>
    let e := layerGet s k n
    let s := if e.scale != g.cfg.defScale then
        record s 0x43 518 k (payload [(n, 108), ((BitVec.ofInt 8 e.scale).toNat, 100), ((BitVec.ofInt 8 g.cfg.defScale).toNat, 92),
          (3, 90), (g.step.toNat, 32)]) [k] false n 0xFFF
      else s
    layerPut s k n { scale := g.cfg.defScale }) s
  s.modSaggar k fun g => { g with touched := [] }

/-- Reset the table and enter re-warm (R207). Causes: 0 Dunob snapshot restore, 1 restore without scale table, 2 mailbox. -/
def rewarmReset (s : State) (k cause : Nat) : State :=
  let s := resetTable s k
  let s := s.modSaggar k fun g => { g with rewarm := some 0 }
  record s 0x45 518 k (payload [((s.saggar k).step.toNat, 64), (cause, 0)]) [k] false

/-- The step counter has advanced: re-warm ends at the 256th advance (R209). -/
def rewarmStep (s : State) (k : Nat) : State :=
  match (s.saggar k).rewarm with
  | none => s
  | some n =>
    if n + 1 < 256 then s.modSaggar k fun g => { g with rewarm := some (n + 1) }
    else record (s.modSaggar k fun g => { g with rewarm := none }) 0x46 518 k (payload [((s.saggar k).step.toNat, 64)]) [k] false

/-- Replays a layer may have in one step (R202, R208). -/
def replayLimit (s : State) (k : Nat) : Nat := if (s.saggar k).rewarm.isSome then 3 else 2

/-- A committed block's counts and level enter the layer's entry (R201, R203). -/
def commitLayer (s : State) (k : Nat) (b : Block) (level : Nat) : State :=
  let s := layerCount s k b.layer b.flushed b.examined
  let e := layerGet s k b.layer
  if e.level < level then layerMod s k b.layer fun e => { e with level } else s

end Sys2Proof.Machine
end

