-- ==== Sys2Proof/Machine/MbxOps.lean ====
section
/-!
DEFINITION. The mailbox (19 R631 to R637, R676, R677): taking requests, the checks that every command shares, completions.
-/
namespace Sys2Proof.Machine

/-! Status codes (R636). -/
def stOk : Nat := 0x00
def stBusy : Nat := 0x01
def stInvalid : Nat := 0x02
def stAbsent : Nat := 0x03
def stNotOwner : Nat := 0x04
def stMisaligned : Nat := 0x05
def stMapped : Nat := 0x06
def stWrongDie : Nat := 0x07
def stUnmapped : Nat := 0x09
def stConflict : Nat := 0x0A
def stLost : Nat := 0x0B
def stNotPermitted : Nat := 0x0C
def stUnknown : Nat := 0x0D
def stNotReady : Nat := 0x0E
def stHostAccess : Nat := 0x0F
def stNoSpace : Nat := 0x10

/-- The host port answers: from the end of LOADING, and not in FAILED (R626). -/
def hostUp (s : State) : Bool :=
  (s.hub.state == .training || s.hub.state == .selfTest || s.hub.state == .ready || s.hub.state == .fencedHalf) && s.awake

/-- The function exists: VF i while VF Enable is set with NumVFs at or above i (R623, R627). -/
def fnExists (s : State) (fn : Nat) : Bool := fn == 0 || decide (fn ≤ s.hub.numVfs)

/-- `n` bits of a request from bit `lo` of the field at byte `b`. -/
def rf (r : Req) (b lo n : Nat) : Nat := bits (leNat r.body) (8 * b + lo) n

def reqCode (r : Req) : Nat := rf r 0 0 16
def reqData (r : Req) : DWord := BitVec.ofNat 64 (rf r 8 0 64)
def reqSag (r : Req) : Nat := rf r 16 0 12
def rAddr (r : Req) (b : Nat) : DWord := BitVec.ofNat 64 (rf r b 0 64)

/-- What the command table says of a command (R637). -/
structure MbxSpec where
  code : Nat
  /-- PF only. -/
  pf : Bool := false
  /-- Names a saggar in bytes 16 and 17. -/
  sag : Bool := false
  /-- SAGGAR_DESTROY and SAGGAR_QUERY follow the saggar's own states (R676). -/
  own : Bool := false
  /-- Used bits of the request from byte 16 on: first bit and width (R677). -/
  used : List (Nat × Nat) := []
  /-- A query, which the mailbox answers during a global stop (18 R616). -/
  query : Bool := false
  /-- Answered in every state (R633). -/
  always : Bool := false

/-- Bit range of a field: byte, low bit, width. -/
def fld (b lo n : Nat) : Nat × Nat := (8 * b + lo, n)

/-- No byte that the command does not use is nonzero (R677). -/
def reqClean (m : MbxSpec) (r : Req) : Bool :=
  let l := [(0, 16), (32, 96)] ++ (if m.sag then [fld 16 0 12] else []) ++ m.used
  let mask := l.foldl (fun (a : Nat) (f : Nat × Nat) => a ||| ((2 ^ f.2 - 1) * 2 ^ f.1)) 0
  (leNat r.body ||| mask) == mask

/-- The shared refusals, in order (R633, R636, R676, R677). -/
def mbxRefusal (s : State) (fn : Nat) (r : Req) (m : MbxSpec) : Option Nat :=
  let g := s.saggar (reqSag r)
  if !s.serving && !m.always then some stNotReady
  else if m.pf && fn != 0 then some stNotPermitted
  else if m.sag && fn != 0 && (g.st == .off || g.cfg.fn != fn) then some stNotPermitted
  else if m.sag && !m.own && (g.st == .draining || g.st == .pendingOn) then some stBusy
  else if m.sag && !m.own && g.st == .off then some stInvalid
  else if !reqClean m r then some stInvalid
  else none

/-- What a command's own rules answer: a status with its result, or nothing yet: it has begun and completes later (R637). -/
abbrev Reply := Option (Nat × List Byte)

def answer (st : Nat) : Reply := some (st, [])

def modReq (s : State) (fn n : Nat) (f : Req → Req) : State :=
  let m := s.mbx fn
  s.setMbx fn { m with inflight := m.inflight.map fun r => if r.n = n then f r else r }

/-- Request `n` of a function, when it begins now and none of the shared refusals answers it. -/
def begins (m : MbxSpec) (s : State) (fn n : Nat) : Option Req :=
  match (s.mbx fn).inflight.find? fun r => !r.begun with
  | none => none
  | some r =>
    if !hostUp s || r.n != n || reqCode r != m.code || (s.frozen && !m.query) || (mbxRefusal s fn r m).isSome then none else some r

/-- Begin the command with identity `n` of function `fn`, when it is the function's first that has not begun (R633), is one of
this row, and holds the host data it needs (`data`: bytes to be read from DATA_ADDR; R625). -/
def mbxBody (m : MbxSpec) (data : Req → Nat) (go : State → Nat → Req → Reply × State) (fn n : Nat) (s : State) : State :=
  whenD (hostUp s) (fun s =>
    match (s.mbx fn).inflight.find? fun r => !r.begun with
    | none => s
    | some r =>
      if r.n != n || reqCode r != m.code || (s.frozen && !m.query) then s else
      match mbxRefusal s fn r m with
      | some st => complete s fn n st
      | none =>
        if data r != 0 && r.noHost then complete s fn n stHostAccess
        else if data r != 0 && r.data.isNone && reqData r != 0 then s
        else
          match go s fn r with
          | (some (st, res), s) => complete s fn n st res
          | (none, s) => modReq s fn n fun r => { r with begun := true }) s

def mbxRun (m : MbxSpec) (data : Req → Nat) (go : State → Nat → Req → Reply × State) (fn n : Nat) (s : State) : Out :=
  act (decide (fn < 256)) (mbxBody m data go fn n) s

def noData (_ : Req) : Nat := 0

/-- Write a command's answer to its DATA_ADDR and complete (R625, R634); with no address nothing is written. -/
def dataOut (s : State) (fn : Nat) (r : Req) (bs : List Byte) (result : List Byte) : Reply × State :=
  if reqData r = 0 then (some (stOk, result), s)
  else if !fnOpen s fn then (answer stHostAccess, s)
  else (some (stOk, result), hostWrite s fn (reqData r) bs)

/-- Command codes of R637. -/
def listed (code : Nat) : Bool :=
  [0x01, 0x10, 0x11, 0x12, 0x13, 0x18, 0x19, 0x1A, 0x1B, 0x20, 0x21, 0x22, 0x23, 0x28, 0x29, 0x2A, 0x2B, 0x2C, 0x2D, 0x30, 0x31,
   0x34, 0x35, 0x36, 0x38, 0x39, 0x40, 0x41, 0x42, 0x48, 0x49, 0x4A, 0x4B, 0x4C, 0x4D, 0x4E].contains code

/-- Bytes a command reads from DATA_ADDR: the descriptor of SAGGAR_CREATE, the entries of ROUTE_LOAD (15 R529), the source of
CONFIG_WRITE. -/
def readsHost (r : Req) : Nat :=
  if reqCode r = 0x10 then 768 else if reqCode r = 0x35 then 16 * rf r 16 0 16
  else if reqCode r = 0x4B then rf r 24 0 32 else 0

/-- MBX_REQ_TAIL_WRITE: a tail offers requests (R632). -/
def execMbxReqTailWrite (fn : Nat) (value : Word) (s : State) : Out :=
  act (decide (fn < 256)) (whenD (hostUp s && fnExists s fn) fun s =>
    let m := s.mbx fn
    if reached value m.reqTail && decide ((value - m.reqHead).toNat ≤ 16) then s.setMbx fn { m with reqTail := value }
    else s.setMbx fn { m with rejected := true }) s

/-- MBX_TAKE: the next request slot is copied whole (R632); host data it needs is asked for (R624, R625). -/
def execMbxTake (fn : Nat) (s : State) : Out :=
  act (decide (fn < 256)) (whenD (hostUp s) fun s =>
    let m := s.mbx fn
    if m.reqHead = m.reqTail || 16 ≤ (m.inflight.filter fun r => !r.discard).length then s else
    let (id, s) := s.fresh
    let r : Req := { n := id, body := getBytes m.slots (0x80 * (m.reqHead.toNat % 16)) 0x80 }
    let ask := listed (reqCode r) && readsHost r != 0 && reqData r != 0 && decide (readsHost r ≤ 2 ^ 20)
    let r := { r with noHost := ask && !fnOpen s fn }
    let s := s.setMbx fn { m with reqHead := m.reqHead + 1, inflight := m.inflight ++ [r] }
    if !listed (reqCode r) then complete s fn id stUnknown
    else if ask && !r.noHost then
      let (rid, s) := s.fresh
      let s : State := { s with host := { s.host with reads := s.host.reads ++
        [{ id := rid, fn, addr := reqData r, len := readsHost r, why := .mbx fn id, sent := true }] } }
      s.emit (.hostRead rid fn (reqData r) (readsHost r))
    else s) s

/-- MBX_CPL_HEAD_WRITE: consumed completions free slots for waiting ones (R635). -/
def execMbxCplHeadWrite (fn : Nat) (value : Word) (s : State) : Out :=
  act (decide (fn < 256)) (whenD (hostUp s && fnExists s fn) fun s =>
    pushCpl (s.setMbx fn { s.mbx fn with cplHead := value }) fn 32) s

/-! ### Identity (00 R13 to R15) -/

/-- The frame engine is enabled on F768 alone, the traversal units and the granary on all but C384 (00 R3, R8, R9, R10). -/
def hubIdent0 (s : State) : Nat := 0x0D07 * 2 ^ 16 + s.fuse.variant * 2 ^ 12 + 2 ^ 8

def wheelCount (s : State) : Nat := ((List.range 192).filter fun w => s.present w).length

def hubIdent1 (s : State) : Nat :=
  wheelCount s * 2 ^ 16 + (if s.fuse.variant = 3 then 0 else 6) + (if s.fuse.variant = 1 then 1 else 0)

/-- HUB_WHEEL_PRESENT_k. -/
def wheelPresent (s : State) (k : Nat) : Nat := ((~~~s.fuse.absent).toNat / 2 ^ (32 * k)) % 2 ^ 32

/-- IDENTITY_QUERY. -/
def execIdentityQuery (fn req : Nat) (s : State) : Out :=
  mbxRun { code := 0x01, query := true, always := true } noData (fun s fn r =>
    dataOut s fn r ((List.range 6).flatMap fun k => leBytes 4 (wheelPresent s k))
      (leBytes 4 (hubIdent0 s) ++ leBytes 4 (hubIdent1 s))) fn req s

end Sys2Proof.Machine
end

