-- ==== Sys2Proof/Machine/FenceBase.lean ====
section
/-!
DEFINITION. Records of the error and fence controller and fences in progress (16 R545, R548, R549, R558, R559, R560).
-/
namespace Sys2Proof.Machine

/-! Classes (R544), unit kinds (R548) and error types (R559). -/
def ecCorrected : Nat := 0
def ecContained : Nat := 1
def ecUnit : Nat := 2
def ecHalf : Nat := 3

/-- A UNIT_ERROR record: `count` errors of this kind in the window (R559, R560). -/
def unitError (s : State) (source cls kind index etype : Nat) (saggar : Nat := 0xFFF) (stream : Nat := 0xFFFFF) (count : Nat := 1)
    (pa : Nat := 0) : State :=
  record s 0xC0 source saggar (payload [(cls, 125), (kind, 121), (index, 109), (etype, 104), (saggar, 92), (stream, 72),
    (min count 255, 64), (pa, 0)]) (if cls = ecContained ∧ saggar < 4096 then [saggar] else []) true

/-- The unit is fencing already. -/
def fencing (s : State) (kind index : Nat) : Bool :=
  s.fen.jobs.any fun (e : Nat × FenceJob) => e.2.kind == kind && e.2.index == index

/-- A fence starts. -/
def openFence (s : State) (j : FenceJob) : State :=
  let (id, s) := s.fresh
  { s with fen := { s.fen with jobs := Tab.ins s.fen.jobs id { j with since := s.watch } } }

def modFence (s : State) (kind index : Nat) (f : FenceJob → FenceJob) : State :=
  { s with fen := { s.fen with jobs := Tab.mapv s.fen.jobs fun _ (j : FenceJob) => if j.kind = kind ∧ j.index = index then f j else j } }

/-- Module state code after a fence (R559). -/
def stateCode (s : State) : Nat := s.hub.state.code

/-- A fence is complete: its FENCE record (R559, R560). -/
def closeFence (s : State) (id : Nat) (j : FenceJob) : State :=
  let s := { s with fen := { s.fen with jobs := Tab.del s.fen.jobs id } }
  record s 0xC1 514 0xFFF (payload [(j.kind, 124), (j.index, 112), (j.etype, 107), (stateCode s, 103), (min j.killed 4095, 88),
    (j.faulted, 68), (j.parent, 64), (s.gts, 0)]) j.dests true

/-- Every open fence of a unit is complete. -/
def closeUnit (s : State) (kind index : Nat) : State :=
  (s.fen.jobs.filter fun (e : Nat × FenceJob) => e.2.kind == kind && e.2.index == index).foldl (fun s e => closeFence s e.1 e.2) s

/-- A LNK_ port in kinds and indices of R548. -/
def portKind (n : Nat) : Nat × Nat := if n < 24 then (7, n) else (8, n - 24)

end Sys2Proof.Machine
end

