-- ==== Sys2Proof/Machine/MemEvents.lean ====
section
/-!
DEFINITION. What happens to stores and reads in flight: performance at the home slice, acknowledgements, fills (09 R331
to R346; 08 R302, R321; 10 R356 to R371).
-/
namespace Sys2Proof.Machine

/-- A memory command runs while the module serves and no global stop has drained (18 R613, R617). -/
def memRuns (s : State) : Bool := s.serving && decide (s.dbg.stop < 3)

def storeOf (s : State) (w id : Nat) : Option StoreEntry := (s.wheel w).mem.store.find? fun e => e.id == id
def readOf (s : State) (w id : Nat) : Option ReadTxn := (s.wheel w).mem.reads.find? fun e => e.id == id

def modStore (s : State) (w id : Nat) (f : StoreEntry → StoreEntry) : State :=
  s.modWheel w fun x => { x with mem := { x.mem with store := x.mem.store.map fun e => if e.id = id then f e else e } }
def modRead (s : State) (w id : Nat) (f : ReadTxn → ReadTxn) : State :=
  s.modWheel w fun x => { x with mem := { x.mem with reads := x.mem.reads.map fun e => if e.id = id then f e else e } }
def dropRead (s : State) (w id : Nat) : State :=
  s.modWheel w fun x => { x with mem := { x.mem with reads := x.mem.reads.filter fun e => e.id != id } }

/-- Fault the crew `uid` if it is still in the slot. -/
def faultUid (s : State) (w slot uid code : Nat) (pc : DWord) : State :=
  match s.crew? w slot with
  | none => s
  | some c => if c.uid = uid then crewFault s w slot code pc else s

/-- Fault the crew of a store path entry; one that has exited leaves the fault to its stream (08 R321; log entry 103). -/
def faultEntry (s : State) (w : Nat) (e : StoreEntry) (code : Nat) : State :=
  match entryCrew s w e.slot e.uid with
  | some _ => crewFault s w e.slot code e.pc
  | none =>
    match s.launch? e.launch with
    | some l => streamFault (faultRecord s w e.slot code l.saggar l.stream 0 0 l.layer l.op e.pc) l.stream code
    | none => s

/-- An ATOM.FADD overflowed at the home slice: its crew's overflow, or its launch's once that crew has exited (05 R180). -/
def entryOverflow (s : State) (w : Nat) (e : StoreEntry) (nan : Bool) : State :=
  match entryCrew s w e.slot e.uid with
  | some c => overflow s w c nan true
  | none =>
    match s.launch? e.launch with
    | some l => overflow s w { saggar := l.saggar, stream := l.stream, launch := e.launch, layer := l.layer, operator := l.op } nan true
    | none => s

/-- The address of a crew's path. -/
def pcOfPath (s : State) (w slot path : Nat) : DWord :=
  match s.crew? w slot with
  | none => 0
  | some c => ((path? c path).map CPath.pc).getD 0

/-! ### Stores and atomics (R331, R346) -/

/-- A store or atomic is performed at its home slice. A write of part of a poisoned sector is discarded and its writer
faults (08 R321). -/
def execHomeSliceWrite (wheel id : Nat) (s : State) : Out :=
  act (decide (wheel < 192)) (fun s =>
    match storeOf s wheel id with
    | none => s
    | some e =>
      if !memRuns s || !mayPerform s (s.wheel wheel).mem.store (s.wheel wheel).mem.reads e || lineBusy s e.pa then s else
      match e.op with
      | .fence => s
      | .signal .. => s
      | .bytes t =>
        let s := modStore s wheel id fun e => { e with performed := true }
        if t.length != 32 && poisoned s e.pa then faultEntry s wheel e fOperand
        else
          let base := e.pa / 32 * 32
          if t.length = 32 then performWrite s base (t.map Prod.snd) e.cache
          else
            let s := t.foldl (fun s b => memPut1 s (base + b.1) b.2) s
            afterWrite (touchLine s base true e.cache) base 32
      | .atom op wide a b _ _ _ _ =>
        let n := if wide then 8 else 4
        let s := modStore s wheel id fun e => { e with performed := true }
        if poisoned s e.pa then modRead s wheel id fun r => { r with value := some [], poisoned := true }
        else
          let old := memBytes s e.pa n
          let s := modRead s wheel id fun r => { r with value := some old }
          let o : DWord := BitVec.ofNat 64 (leNat old)
          let v := atomValue op wide o a b
          if op == .cas && o != a then touchLine s e.pa false e.cache
          else
            let s := performWrite s e.pa (leBytes n v.toNat) e.cache
            if op == .fadd && addBeyond (o.setWidth 32) (a.setWidth 32) (v.setWidth 32) then
              entryOverflow s wheel e (f32 (v.setWidth 32)).isNan else s) s

/-- A crier signal of a wheel is applied at the word's home slice (10 R356, R359, R363, R674). -/
def execSignalApply (wheel id : Nat) (s : State) : Out :=
  act (decide (wheel < 192)) (fun s =>
    match storeOf s wheel id with
    | none => s
    | some e =>
      if !memRuns s || !mayPerform s (s.wheel wheel).mem.store (s.wheel wheel).mem.reads e || lineBusy s e.pa then s else
      match e.op with
      | .signal op v =>
        let s := modStore s wheel id fun e => { e with performed := true }
        let s := if homeSlice s e.pa / 64 = State.wheelDie wheel then s else gtally s 0x009 (some e.saggar)
        if poisoned s e.pa then faultEntry s wheel e fOperand else applySignal s e.pa op v
      | _ => s) s

/-- The acknowledgement of a performed write returns (R334): releases that waited for it may complete, and a launch
whose tasks have all exited (R350). -/
def execWriteAck (wheel id : Nat) (s : State) : Out :=
  act (decide (wheel < 192)) (fun s =>
    match storeOf s wheel id with
    | none => s
    | some e =>
      if !memRuns s || !e.performed then s else
      finishLaunch (settleAll (s.modWheel wheel fun x => { x with mem := { x.mem with store := x.mem.store.filter fun e => e.id != id } })
        wheel) e.launch) s

/-- A store has waited its time in the combining buffer (R333). -/
def execCombineTimeout (wheel id : Nat) (s : State) : Out :=
  act (decide (wheel < 192)) (whenD (memRuns s) fun s => modStore s wheel id fun e => { e with combining := false }) s

/-! ### Reads (R331, R334, R338) -/

/-- An earlier store of the wheel to the sector has not been performed: the read takes its place after it (R338). -/
def storeAhead (l : List StoreEntry) (r : ReadTxn) : Bool :=
  l.any fun e => decide (e.id < r.id) && !e.performed && e.op != .fence && decide (e.pa / 32 = r.pa / 32)

/-- An earlier read of the wheel of the sector has not taken its value (R338). -/
def olderRead (l : List ReadTxn) (r : ReadTxn) : Bool :=
  l.any fun q => decide (q.id < r.id) && q.order != 3 && q.value.isNone && decide (q.pa / 32 = r.pa / 32)

/-- A sector with the wheel's own stores that were issued after a read laid over it (R338). -/
def laterStores (l : List StoreEntry) (r : ReadTxn) (sector : List Byte) : List Byte :=
  l.foldl (fun (bs : List Byte) e => match e.op with
    | .bytes t => if r.id < e.id ∧ e.pa / 32 = r.pa / 32 ∧ !e.performed then t.foldl (fun bs b => bs.set b.1 b.2) bs else bs
    | _ => bs) sector

/-- Where the line of a load was: in the commons (2), the near tier (3) or the granary (4), as tallies number them (18 R605). -/
def lineFrom (s : State) (pa : Nat) : Nat :=
  if (Tab.get [] (s.slice (servingSlice s pa)).sets (commonsSet pa)).any fun x => x.line == pa / 128 then 2
  else if nearTier pa then 3 else 4

/-- The tallies of a load's arrival at the home slice. -/
def tallyFill (s : State) (wheel : Nat) (r : ReadTxn) : State :=
  match r.dest, entryCrew s wheel r.slot r.uid with
  | .wait _, _ => s
  | _, some c => tallyCrew s wheel c (memEvent s wheel r.pa (lineFrom s r.pa))
  | _, none => s

/-- A read takes its value at the home slice; a wait is judged against the word (10 R366). -/
def execHomeSliceRead (wheel id : Nat) (s : State) : Out :=
  act (decide (wheel < 192)) (fun s =>
    match readOf s wheel id with
    | none => s
    | some r =>
      if !memRuns s || r.order = 3 || r.value.isSome || lineBusy s r.pa || storeAhead (s.wheel wheel).mem.store r ||
         olderRead (s.wheel wheel).mem.reads r then s else
      if poisoned s r.pa then modRead s wheel id fun r => { r with value := some [], poisoned := true }
      else
        let (n, s) := (tallyFill s wheel r).fresh
        let s := touchLine (modRead s wheel id fun q => { q with
          value := some (memBytes s q.pa q.len), taken := n
          sector := laterStores (s.wheel wheel).mem.store q (memBytes s (q.pa / 32 * 32) 32) }) r.pa false r.cache
        match r.dest with
        | .wait wid =>
          match Tab.find s.crier.waits wid with
          | none => s
          | some w =>
            if w.st != .reading then s else
            judgeWait s wid w (memWord s w.pa) (placeOf s w.pa)
        | _ => s) s

/-- The path has no read left in flight: it goes on. -/
def readsDone (s : State) (w slot uid path : Nat) : State :=
  if (s.wheel w).mem.reads.any fun r => r.uid == uid && r.path == path then s else
  match s.crew? w slot with
  | none => s
  | some c =>
    match path? c path with
    | some x => if c.uid = uid && x.wait == .reads then s.setCrew w slot (pathNext (waitPath c path .ready) path) else s
    | none => s

/-- A read has returned: of the reads of its sector that took their values before it none fills L1 any more (R338). -/
def barOlder (s : State) (w : Nat) (r : ReadTxn) : State :=
  s.modWheel w fun x => { x with mem := { x.mem with reads := x.mem.reads.map fun q =>
    if q.pa / 32 = r.pa / 32 ∧ q.value.isSome ∧ q.taken < r.taken then { q with noInstall := true } else q } }

/-- L1 after a fill (R332, R338, R343): a line present takes the newer sector, a plain miss installs it. -/
def fillL1 (s : State) (w : Nat) (r : ReadTxn) : State :=
  if r.noInstall || r.sector = [] then s else
  match l1Sector s w r.pa with
  | some _ => l1Install s w (r.pa / 32) { saggar := r.saggar, bytes := r.sector }
  | none => if r.order = 0 then l1Install s w (r.pa / 32) { saggar := r.saggar, bytes := r.sector } else s

/-- A read's value reaches the wheel: delivered to its register or tile, L1 filled, an acquire performed (R338, R343);
a poisoned sector faults the crew (08 R321, 10 R674), and one that a tile load met is reported (04 R166). -/
def execFillReturn (wheel id : Nat) (s : State) : Out :=
  act (decide (wheel < 192)) (fun s =>
    match readOf s wheel id with
    | none => s
    | some r =>
      match r.value with
      | none => s
      | some bs =>
        if !memRuns s then s else
        let s := dropRead s wheel id
        let pc := pcOfPath s wheel r.slot r.path
        if r.poisoned then
          let s := match entryCrew s wheel r.slot r.uid with
            | some c => tallyCrew s wheel c (memEvent s wheel r.pa 14)
            | none => s
          let n := ((s.crew? wheel r.slot).map Crew.stream).getD 0xFFFFF
          let s := faultUid s wheel r.slot r.uid fOperand pc
          (match r.dest with
           | .tile _ => unitError s wheel ecContained 0 wheel 3 r.saggar n 1 r.pa
           | _ => s) else
        let s := fillL1 (barOlder s wheel r) wheel r
        let s := match r.dest with
          | .reg lane d => s.modCrew wheel r.slot fun c => putVal c lane d bs
          | .tile off => s.modCrew wheel r.slot fun c => { c with tiles := putBytes c.tiles off bs }
          | .wait _ => s
        let c := (s.crew? wheel r.slot).getD {}
        let s := if r.acq then acquire s wheel r.saggar c.layer c.operator else s
        readsDone s wheel r.slot r.uid r.path) s

end Sys2Proof.Machine
end

