-- ==== Sys2Proof/Machine/MarketOps.lean ====
section
/-!
DEFINITION. Rights, room and order in the market (03 R79 to R82, R104, R105, R112, R113; 11 R400, R419 to R422).
-/
namespace Sys2Proof.Machine

/-! ### Room on a wheel (03 R79 to R82) -/

/-- Register bytes of a crew (R79). -/
def footprint (r : Res) : Nat := 128 * r.g + 1024 * r.t

/-- Register bytes and crews in use in partition `p`. -/
def partUsed (x : Wheel) (p : Nat) : Nat × Nat :=
  x.crews.foldl (fun (a : Nat × Nat) e => if e.2.part = p then (a.1 + footprint e.2.res, a.2 + 1) else a) (0, 0)

/-- Crews of one footprint a partition can still hold. -/
def partRoom (x : Wheel) (fp p : Nat) : Nat :=
  let (b, n) := partUsed x p
  min ((65536 - b) / fp) (16 - n)

/-- Local store and accumulator KiB in use. -/
def lsUsed (x : Wheel) : Nat := (x.crews.map fun (e : Nat × Crew) => e.2.res.s).sum
def accUsed (x : Wheel) : Nat := (x.crews.map fun (e : Nat × Crew) => e.2.res.a).sum

/-- Further crews of a launch the wheel can hold (R81). -/
def furtherCrews (x : Wheel) (r : Res) : Nat :=
  let regs := ((List.range 4).map fun p => partRoom x (footprint r) p).sum
  let n := min (64 - x.crews.length) regs
  let n := if 0 < r.s then min n ((r.l - lsUsed x) / r.s) else n
  if 0 < r.a then min n ((256 - accUsed x) / r.a) else n

/-- The partition a new crew takes (R82): most free register space, lowest number on a tie. -/
def bestPart (x : Wheel) (r : Res) : Option Nat :=
  [0, 1, 2, 3].foldl (fun (best : Option Nat) p =>
    if partRoom x (footprint r) p = 0 then best else
    match best with
    | none => some p
    | some q => if (partUsed x p).1 < (partUsed x q).1 then some p else best) none

/-- The wheel counts as empty for R80: no crew and no task in its deque; while reserved, no crew (12 R443). -/
def wheelEmpty (x : Wheel) : Bool := x.crews == [] && (x.work.deque == [] || x.ctl.resv.isSome)

/-- R80: the wheel accepts tasks of this split. -/
def splitOk (x : Wheel) (r : Res) : Bool := wheelEmpty x || x.ctl.split == r.l / 64

/-- Some further crew could be held. -/
def anyRoom (x : Wheel) : Bool := 0 < furtherCrews x {}

/-! ### Reservations (12 R441 to R445) -/

/-- The flow of a reservation (15 R531; FRM_RES_CFG_r). -/
def resFlow (s : State) (r : Nat) : Nat := bits (leNat ((s.img.res.getD r []).take 4)) 27 3

/-- The saggar whose deadline work the reservation serves. -/
def resSaggar (s : State) (r : Nat) : Option Nat := ((Tab.get {} s.frm.flows (resFlow s r)).bind).map FlowBind.saggar

/-- The window of the reservation is open at this tick. -/
def resOpen (s : State) (r : Nat) : Bool :=
  let x := Tab.get {} s.frm.res r
  (x.st == 1 || x.st == 2) && (match x.cur with
    | some w => decide (w.s ≤ s.gts) && decide (s.gts < w.e)
    | none => false)

/-- Work of this saggar and class may run on the wheel now (11 R419, 01 R29). -/
def classOk (s : State) (x : Wheel) (k cls : Nat) : Bool :=
  match x.ctl.resv with
  | none => cls != 2
  | some r => cls == 2 && resSaggar s r == some k && resOpen s r

/-! ### The market (11 R413, R420, R421) -/

/-- A launch with tasks in the market's shared pool. -/
def marketHas (l : Launch) : Bool := decide (l.next < l.total) || l.returned != [] || l.resumables != []

/-- Launches in the market (SAG_MARKET_LAUNCHES). -/
def marketLaunches (s : State) : Nat := (s.front.launches.filter fun (e : Nat × Launch) => !e.2.pinned && marketHas e.2).length

/-- The saggar has work in the class. -/
def saggarWork (s : State) (k cls : Nat) : Bool :=
  s.front.launches.any fun e => e.2.saggar == k && e.2.cls == cls && marketHas e.2

def passOf (s : State) (k cls : Nat) : Nat := Tab.get 0 s.front.passes (4 * k + cls)
def setPass (s : State) (k cls v : Nat) : State :=
  { s with front := { s.front with passes := Tab.put 0 s.front.passes (4 * k + cls) (v % 2 ^ 64) } }

/-- A saggar that had no work in the class gets some (R420). -/
def wakePass (s : State) (k cls : Nat) : State :=
  if saggarWork s k cls then s else
  let others := (s.front.launches.filter fun (e : Nat × Launch) => e.2.cls == cls && marketHas e.2).map fun e => passOf s e.2.saggar cls
  match others with
  | [] => s
  | p :: l => setPass s k cls (max (passOf s k cls) (l.foldl min p))

/-- A ready launch is announced to the wheels in its rights: one that waits for work asks again (03 R111); a gated one is
asked to restart (02 R39). -/
def announceWork (s : State) (k : Nat) : State :=
  let g := s.saggar k
  let s := s.mapWheels fun w x => if g.cfg.rights.getLsbD w && x.work.retry then
      { x with work := { x.work with retry := false, gotEmpty := false, nextProbe := 0, probe := none } } else x
  s.mapWheels fun w x => if g.cfg.rights.getLsbD w && x.ctl.gated && x.ctl.state == .on then
      { x with ctl := { x.ctl with waking := true } } else x

/-- The pin set of a stream as a list of wheels. -/
def pinWheels (s : State) (n : Nat) : List Nat :=
  let x := s.stream n
  (List.range 192).filter fun w => ((s.saggar x.saggar).cfg.pinSets.getD x.pinSet 0).getLsbD w

/-- Tasks of ranges. -/
def taskCount (l : List TaskRange) : Nat := (l.map TaskRange.count).sum

/-- Ranges and tasks in the deque, those kept during a reservation among them: at most 64 and 512 (03 R106, R113). -/
def rangesHeld (x : Wheel) : Nat := x.work.deque.length + x.work.kept.length
def tasksHeld (x : Wheel) : Nat := taskCount x.work.deque + taskCount x.work.kept

/-- The wheel store is split anew, with `split` × 64 KiB of local store; L1 keeps what it has room for (03 R80). -/
def takeSplit (x : Wheel) (split : Nat) (now : Nat) : Wheel :=
  { x with ctl := { x.ctl with split, idleSince := some now }, mem := { x.mem with l1 := x.mem.l1.take (l1Room split) } }

/-- The wheel takes a range at the tail of its deque, a resumable task ahead of its launch's unstarted ones (R114); an empty wheel takes
the split of the launch (03 R80, R106). -/
def acceptRange (s : State) (w : Nat) (l : Launch) (r : TaskRange) : State :=
  s.modWheel w fun x =>
    let ahead := fun (q : TaskRange) => !(r.saved.isSome && q.launch == r.launch && q.saved.isNone)
    { takeSplit x (if wheelEmpty x then l.res.l / 64 else x.ctl.split) s.watch with
      work := { x.work with deque := x.work.deque.takeWhile ahead ++ r :: x.work.deque.dropWhile ahead } }

/-- Place pinned tasks in the wheel's deque while it accepts them, a launch's resumable tasks first (03 R80, R106, R112, R114); `fuel`
bounds the places. -/
def placePinned (s : State) (w : Nat) : Nat → State
  | 0 => s
  | fuel + 1 =>
    let x := s.wheel w
    if x.ctl.state != .on || x.ctl.resv.isSome || 64 ≤ rangesHeld x || 512 ≤ tasksHeld x then s else
    let backOn := fun (l : Launch) => l.resumables.find? fun r => r.wheel == w
    match s.front.launches.find? fun (e : Nat × Launch) => e.2.pinned && splitOk x e.2.res &&
        ((Tab.get (0, 0) e.2.pins w).2 != 0 || (backOn e.2).isSome) with
    | none => s
    | some (id, l) =>
      match backOn l with
      | some q =>
        let s := acceptRange s w l { launch := id, first := q.task, count := 1, saved := some q }
        placePinned (s.modLaunch id fun l => { l with resumables := l.resumables.filter (· != q) }) w fuel
      | none =>
        let (i, n) := Tab.get (0, 0) l.pins w
        let m := if l.pinStep = 1 then min n (512 - tasksHeld x) else 1
        let s := acceptRange s w l { launch := id, first := i, count := m }
        placePinned (s.modLaunch id fun l => { l with pins := Tab.put (0, 0) l.pins w (i + m * l.pinStep, n - m) }) w fuel

/-- Tasks `j`, `j + n`, ... of `total`: how many. -/
def pinCount (total j n : Nat) : Nat := if j < total then (total - j + n - 1) / n else 0

/-- A launch enters the market (R112, R413, R420). -/
def enterMarket (s : State) (l : Launch) : State :=
  let (id, s) := s.fresh
  if l.pinned then
    let ws := pinWheels s l.stream
    let n := ws.length
    let pins := (List.range n).foldl (fun (t : Tab (Nat × Nat)) j => Tab.put (0, 0) t (ws.getD j 0) (j, pinCount l.total j n)) []
    let s := { s with front := { s.front with launches := Tab.ins s.front.launches id { l with pins, pinStep := n, next := l.total } } }
    ws.foldl (fun s w => placePinned s w 64) (ws.foldl (fun s w => s.modWheel w fun x =>
      if x.ctl.gated && x.ctl.state == .on then { x with ctl := { x.ctl with waking := true } } else x) s)
  else
    let s := wakePass s l.saggar l.cls
    announceWork { s with front := { s.front with launches := Tab.ins s.front.launches id l } } l.saggar

end Sys2Proof.Machine
end

