-- ==== Sys2Proof/Machine/CopyIssue.lean ====
section
/-!
DEFINITION. Instructions that the copy engine executes, as they issue (03 R95 to R103; 04 R157, R164; 05 R193, R194,
R214; 07 R279, R287, R288), arrival counters, and LSTAT and USCALE.SET (05 R196).
-/
namespace Sys2Proof.Machine

/-! ### Arrival counters (03 R97, R100) -/

def acOf (c : Crew) (n : Nat) : Word := Tab.get 0 c.ac n

/-- Paths that wait on counter `n` for a target it has reached go on. -/
def wakeAcwait (c : Crew) (n : Nat) : Crew :=
  { c with paths := Tab.mapv c.paths fun _ x => match x.wait with
      | .acwait k target => if k = n && reached (acOf c n) target then { x with wait := .ready, pc := x.pc + 8 } else x
      | _ => x }

/-- The counter advances by one. -/
def advanceAc (c : Crew) (n : Nat) : Crew := wakeAcwait { c with ac := Tab.put 0 c.ac n (acOf c n + 1) } n

/-- Copies and chains of the crew on a counter that have not completed. -/
def openOn (x : Wheel) (uid n : Nat) : Nat :=
  (x.eng.copies.filter fun e => e.uid == uid && e.counter == n).length +
  (x.eng.vecq.filter fun e => e.uid == uid && e.counter == n).length

/-! ### Joining the engine -/

/-- A copy slot is free (R95). -/
def copyRoom (s : State) (i : Issue) (c : Crew) : Bool :=
  let l := (s.wheel i.wheel).eng.copies
  decide (l.length < 256) && decide ((l.filter fun e => e.uid == c.uid).length < 32)

/-- The crew's operation takes a copy slot; one above the bulk threshold asks the reeve for leave (R99). -/
def pushCopy (s : State) (i : Issue) (c : Crew) (pc : DWord) (counter cache : Nat) (kind : CopyKind) (bytes : Nat)
    (after : Option Nat := none) : State :=
  let (id, s) := s.fresh
  let leave := decide (1024 * s.img.bulkKib < bytes)
  let e : Copy := { id, slot := i.slot, uid := c.uid, counter, kind, saggar := c.saggar, stream := c.stream, part := c.part
                    layer := c.layer, operator := c.operator, pc, cache, leave, after }
  let s := s.modWheel i.wheel fun x => { x with eng := { x.eng with copies := x.eng.copies ++ [e] } }
  if leave then askLeave s 1 i.wheel id (streamCls s c.stream) c.saggar else s

/-- The local store range lies in the crew's allocation (R103). -/
def lsIn (c : Crew) (a len : Nat) : Bool := decide (a + len ≤ 1024 * c.res.s)

/-- The low register of an address operand as a local store offset. -/
def lsOff (c : Crew) (l r : Nat) : Nat := (reg c l r).toNat

/-! ### ACOPY (R96, R103) -/

/-- ACOPY.1D. -/
def execAcopy1d (i : Issue) (s : State) : Out :=
  let dir := xf i 22 2
  issueStall i { guarded := true, reads := dir == 0 || dir == 2, legal := i.da == 0 && xf i 16 2 != 3 && xf i 0 8 == 0
                 pairs := [sa i, sb i], regs := [xf i 8 8] }
    (fun s c _ m => m == 0 || copyRoom s i c) (fun s c x m =>
    match leadLane m with
    | none => next s i
    | some l =>
      let len := (reg c l (xf i 8 8)).toNat
      if ((dir == 1 || dir == 3) && !lsIn c (lsOff c l (sa i)) len) || ((dir == 0 || dir == 3) && !lsIn c (lsOff c l (sb i)) len) then
        faultAt s i fLocal
      else if dir == 2 && decide (2 ^ 28 < len) then faultAt s i fCopy
      else
        let s := tallyCrew s i.wheel c 0x0B0
        next (pushCopy s i c x.pc (xf i 18 4) (xf i 16 2) (.copy1 dir (pair c l (sa i)) (pair c l (sb i)) len)
          (if dir = 2 then len else 0)) i) s

/-- Bytes from the first to the end of the last row. -/
def span (rows rowBytes stride : Nat) : Nat := if rows = 0 || rowBytes = 0 then 0 else (rows - 1) * stride + rowBytes

/-- ACOPY.2D. -/
def execAcopy2d (i : Issue) (s : State) : Out :=
  let dir := xf i 22 2
  let r := xf i 8 8
  issueStall i { guarded := true, legal := i.da == 0 && dir != 3 && xf i 16 2 != 3 && xf i 0 8 == 0, pairs := [sa i, sb i]
                 reads := dir == 0 || dir == 2, regs := [r, r + 1, r + 2, r + 3] }
    (fun s c _ m => m == 0 || copyRoom s i c) (fun s c x m =>
    match leadLane m with
    | none => next s i
    | some l =>
      let rows := (reg c l r).toNat
      let rb := (reg c l (r + 1)).toNat
      let ss := (reg c l (r + 2)).toNat
      let ds := (reg c l (r + 3)).toNat
      if (dir == 1 && !lsIn c (lsOff c l (sa i)) (span rows rb ss)) || (dir == 0 && !lsIn c (lsOff c l (sb i)) (span rows rb ds)) then
        faultAt s i fLocal
      else if dir == 2 && decide (2 ^ 28 < rows * rb) then faultAt s i fCopy
      else
        let s := tallyCrew s i.wheel c 0x0B0
        next (pushCopy s i c x.pc (xf i 18 4) (xf i 16 2) (.copy2 dir (pair c l (sa i)) (pair c l (sb i)) rows rb ss ds)
          (if dir = 2 then rows * rb else 0)) i) s

/-! ### ACWAIT and ACREAD (R100) -/

/-- ACWAIT: wait until the counter has reached the target. -/
def execAcwait (i : Issue) (s : State) : Out :=
  issue i { guarded := true, legal := i.da == 0 && i.sb == 0 && xf i 22 2 == 0 && xf i 0 18 == 0, regs := [sa i] } (fun s c _ m =>
    match leadLane m with
    | none => next s i
    | some l =>
      let n := xf i 18 4
      let target := reg c l (sa i)
      let cur := acOf c n
      if reached cur target then next s i
      else if (target - cur).toNat ≤ openOn (s.wheel i.wheel) c.uid n then
        s.modCrew i.wheel i.slot fun c => waitPath c i.path (.acwait n target)
      else
        let s := tallyCrew s i.wheel c 0x0B5
        next (recordWheel s i.wheel 0x21 c.saggar (payload [(cur.toNat, 96), (target.toNat, 64), (n, 0)]) false c.layer
          c.operator) i) s

/-- ACREAD: DA ← the counter. -/
def execAcread (i : Issue) (s : State) : Out :=
  issue i { guarded := true, legal := i.sa == 0 && i.sb == 0 && xf i 22 2 == 0 && xf i 0 18 == 0, regs := [da i] }
    (lanewise i fun c d l => setReg d l (da i) (acOf c (xf i 18 4))) s

/-! ### ACC.RD and ACC.WR (04 R157) -/

/-- Bytes of one element of an output format of ACC.RD. -/
def outBytes : Nat → Option Nat
  | 1 => some 1 | 2 => some 1 | 4 => some 2 | 5 => some 2 | 6 => some 4 | _ => none

/-- Address operand: a pair, or one register with a local store offset. -/
def spaceForm (ls : Bool) (f : Form) (r : Nat) : Form :=
  if ls then { f with regs := r :: f.regs } else { f with pairs := r :: f.pairs }

def spaceAddr (c : Crew) (l r : Nat) (ls : Bool) : DWord := if ls then (reg c l r).setWidth 64 else pair c l r

/-- The instruction stalls: no copy slot, or earlier work holds the block. -/
def blockCopyGo (i : Issue) (s : State) (c : Crew) (_ : CPath) (m : Word) : Bool :=
  m == 0 || (copyRoom s i c && blockFree s i c (da i) 1)

/-- The body that ACC.RD and ACC.WR share: `row` bytes of a row, `kind` the operation on the block. -/
def blockCopy (i : Issue) (ls : Bool) (counter event row : Nat) (bad : Window → Bool) (kind : Window → Nat → DWord → Nat → CopyKind) :
    State → Crew → CPath → Word → State := fun s c x m =>
  match leadLane m with
  | none => next s i
  | some l =>
    match blockField c (da i) with
    | .error e => faultAt s i e
    | .ok (win, w) =>
      let stride := (reg c l (sb i)).toNat
      let a := spaceAddr c l (sa i) ls
      if row = 0 || bad win then faultAt s i fMxFormat
      else if stride % 16 != 0 || stride < row then faultAt s i fMisaligned
      else if ls && !lsIn c a.toNat (span 64 row stride) then faultAt s i fLocal
      else
        let s := tallyCrew s i.wheel c event
        if passThrough s c.saggar win then next (s.modCrew i.wheel i.slot fun c => advanceAc c counter) i
        else next (pushCopy s i c x.pc counter 0 (kind win w a stride) 0) i

/-- ACC.RD: a block to memory, converted. The words of an INT32 window go out as they are, under format code 0b110 (log entry 94). -/
def execAccRd (i : Issue) (s : State) : Out :=
  let ls := i.x.getLsbD 16
  let fmt := xf i 21 3
  issueStall i (spaceForm ls { guarded := true, legal := xf i 0 12 == 0 && decide (xf i 18 3 ≤ 4), regs := [sb i] } (sa i)) (blockCopyGo i)
    (blockCopy i ls (xf i 12 4) 0x0A9 (16 * (outBytes fmt).getD 0) (fun w => w.isInt && fmt != 6)
      (fun win w a stride => .accRd w win.isInt fmt (xf i 18 3) (i.x.getLsbD 17) ls a stride)) s

/-- ACC.WR: a block from memory. -/
def execAccWr (i : Issue) (s : State) : Out :=
  let ls := i.x.getLsbD 16
  issueStall i (spaceForm ls { guarded := true, reads := !ls, legal := xf i 18 6 == 0 && xf i 0 12 == 0, regs := [sb i] } (sa i)) (blockCopyGo i)
    (blockCopy i ls (xf i 12 4) 0x0AA 64 (fun _ => false)
      (fun win w a stride => .accWr w win.isInt (i.x.getLsbD 17) ls a stride)) s

/-! ### GACC and OPT (05 R191, R193, R194, R199) -/

/-- The crew's launch lies in a replayable block. -/
def inReplayable (s : State) (c : Crew) : Bool := ((blockOf s c).map Block.replayable).getD false

/-- A REPLAY_SCOPE fault of the crew's stream, which the front end raises (05 R199, R215). -/
def scopeFault (s : State) (c : Crew) : State := frontFault s c.stream fReplayScope c.layer c.operator

/-- GACC: accumulate a block into a BF16 gradient buffer. -/
def execGacc (i : Issue) (s : State) : Out :=
  issueStall i { guarded := true, reads := true, legal := xf i 16 8 == 0 && xf i 0 4 == 0, pairs := [sa i], regs := [sb i, xf i 8 8] } (blockCopyGo i)
    (fun s c x m =>
      match leadLane m with
      | none => next s i
      | some l =>
        if inReplayable s c then scopeFault s c else
        match blockField c (da i) with
        | .error e => faultAt s i e
        | .ok (win, w) =>
          let stride := (reg c l (sb i)).toNat
          let a := pair c l (sa i)
          if win.isInt then faultAt s i fMxFormat
          else if stride % 32 != 0 || stride = 0 || a.toNat % 32 != 0 then faultAt s i fMisaligned
          else if !layerOk s c.saggar c.layer then faultAt s i fScaleRange
          else
            let s := tallyCrew s i.wheel c 0x0AE
            if passThrough s c.saggar win then next (s.modCrew i.wheel i.slot fun c => advanceAc c (xf i 4 4)) i
            else next (pushCopy s i c x.pc (xf i 4 4) 0 (.gacc w a stride (reg c l (xf i 8 8))) 0) i) s

/-- Fields of an OPT descriptor (R194). -/
structure OptDesc where
  master : DWord
  grad : DWord
  mom1 : DWord
  mom2 : DWord
  count : Nat
  lr : Word
  beta1 : Word
  beta2 : Word
  eps : Word
  wd : Word
  layer : Nat
  algo : Nat
  gfmt : Nat
  prescaled : Bool
  biasCorrect : Bool
  rsvd : Nat
  stepT : Nat
  deriving DecidableEq, Repr

def OptDesc.of (l : List Byte) : OptDesc :=
  let d := fun o => BitVec.ofNat 64 (leNat ((l.drop o).take 8))
  let w := fun o => BitVec.ofNat 32 (leNat ((l.drop o).take 4))
  let f := (w 56).toNat
  { master := d 0, grad := d 8, mom1 := d 16, mom2 := d 24, count := (w 32).toNat, lr := w 36, beta1 := w 40, beta2 := w 44
    eps := w 48, wd := w 52, layer := bits f 12 20, algo := bits f 8 4, gfmt := bits f 4 4, prescaled := (w 56).getLsbD 3
    biasCorrect := (w 56).getLsbD 2, rsvd := bits f 0 2, stepT := (w 60).toNat }

/-- The descriptor is one OPT refuses (R194). -/
def OptDesc.bad (d : OptDesc) : Bool :=
  2 < d.algo || !(d.gfmt == 2 || d.gfmt == 4 || d.gfmt == 5 || d.gfmt == 6) || (d.prescaled && d.algo != 0) ||
  (d.algo != 0 && d.mom1 == 0) || (d.algo == 2 && d.mom2 == 0) || d.count == 0 || decide (2 ^ 28 < d.count) ||
  (d.stepT == 0 && d.biasCorrect)

/-- OPT: the descriptor is read and checked at issue. -/
def execOpt (i : Issue) (s : State) : Out :=
  issueStall i { guarded := true, reads := true, legal := i.da == 0 && i.sb == 0 && xf i 16 8 == 0 && xf i 0 12 == 0, pairs := [sa i] }
    (fun s c _ m => m == 0 || (copyRoom s i c && (leadLane m).all fun l => settled s c.saggar (pair c l (sa i)) 64)) (fun s c x m =>
      match leadLane m with
      | none => next s i
      | some l =>
        if inReplayable s c then scopeFault s c else
        let a := pair c l (sa i)
        if a.toNat % 64 != 0 then faultAt s i fMisaligned else
        match engReadN s { saggar := c.saggar, stream := c.stream, source := i.wheel } a 64 2 with
        | (.error _, s) => faultAt s i fCopy
        | (.ok bs, s) =>
          let d := OptDesc.of bs
          if d.bad then faultAt s i fOptDescriptor
          else if !layerOk s c.saggar d.layer then faultAt s i fScaleRange
          else next (pushCopy s i c x.pc (xf i 12 4) 0 (.opt bs) (4 * d.count)) i) s

/-! ### LSTAT and USCALE.SET (05 R196) -/

/-- LSTAT's word for a layer. -/
def lstatWord (s : State) (k layer : Nat) : Word :=
  let e := layerGet s k layer
  BitVec.ofNat 32 (e.quietRun % 256 * 2 ^ 14 + (if e.pendingValid then 2 ^ 13 else 0) +
    (if (s.saggar k).rewarm.isSome then 2 ^ 12 else 0) + e.replays % 4 * 2 ^ 10 + e.level % 4 * 2 ^ 8 +
    (BitVec.ofInt 8 e.scale).toNat)

/-- LSTAT. -/
def execLstat (i : Issue) (s : State) : Out :=
  issue i { guarded := true, legal := i.sb == 0 && i.x == 0, regs := [da i, sa i] } (fun s c x m =>
    match leadLane m with
    | none => next s i
    | some l =>
      let n := (reg c l (sa i)).toNat % 2 ^ 20
      if layerOk s c.saggar n then
        lanewise i (fun _ d l => setReg d l (da i) (lstatWord s c.saggar n)) s c x m
      else faultAt s i fScaleRange) s

/-- USCALE.SET. -/
def execUscaleSet (i : Issue) (s : State) : Out :=
  issue i { guarded := true, legal := i.da == 0 && i.x == 0, regs := [sa i, sb i] } (fun s c _ m =>
    match leadLane m with
    | none => next s i
    | some l =>
      let n := (reg c l (sa i)).toNat % 2 ^ 20
      let v := ((reg c l (sb i)).setWidth 8).toInt
      if !layerOk s c.saggar n || v < -64 || 63 < v then faultAt s i fScaleRange
      else next (layerMod s c.saggar n fun e => { e with pending := v, pendingValid := true }) i) s

/-! ### GRECV and PTAB (07 R279, R287, R288) -/

/-- GRECV: a range of a gather slot to local store. -/
def execGrecv (i : Issue) (s : State) : Out :=
  let r := xf i 8 8
  issueStall i { guarded := true, reads := true, legal := i.da == 0 && xf i 22 2 == 0 && xf i 16 2 == 0 && xf i 0 8 == 0, regs := [sa i, sb i, r, r + 1] }
    (fun s c _ m => m == 0 || copyRoom s i c) (fun s c x m =>
    match leadLane m with
    | none => next s i
    | some l =>
      let n := (reg c l (sa i)).toNat % 8
      let off := (reg c l r).toNat
      let len := (reg c l (r + 1)).toNat
      let dst := lsOff c l (sb i)
      match Tab.find (s.stream c.stream).gslots n with
      | none => faultAt s i fCopy
      | some g =>
        if g.bytes < off + len then faultAt s i fCopy
        else if !lsIn c dst len then faultAt s i fLocal
        else
          let s := tallyCrew s i.wheel c 0x0B7 len
          next (pushCopy s i c x.pc (xf i 18 4) 0 (.grecv n off dst len) 0) i) s

/-- PTAB: the table of positional phases. -/
def execPtab (i : Issue) (s : State) : Out :=
  let ls := i.x.getLsbD 23
  let r := xf i 8 8
  issueStall i (spaceForm ls { guarded := true, reads := true, legal := i.da == 0 && xf i 16 2 != 3 && xf i 0 8 == 0, pairs := [sa i], regs := [r, r + 1, r + 2] } (sb i))
    (fun s c _ m => m == 0 || copyRoom s i c) (fun s c x m =>
    match leadLane m with
    | none => next s i
    | some l =>
      let half := i.x.getLsbD 22
      let a := spaceAddr c l (sb i) ls
      let p0 := (reg c l r).toNat % 2 ^ 22
      let n := (reg c l (r + 1)).toNat
      let mm := (reg c l (r + 2)).toNat
      let sz := if half then 4 else 8
      if (pair c l (sa i)).toNat % 8 != 0 || a.toNat % sz != 0 then faultAt s i fMisaligned
      else if mm = 0 || 256 < mm then faultAt s i fCopy
      else if ls && !lsIn c a.toNat (min n (2 ^ 22 - p0) * mm * sz) then faultAt s i fLocal
      else
        let s := tallyCrew s i.wheel c 0x0B8 (n * mm)
        next (pushCopy s i c x.pc (xf i 18 4) (xf i 16 2) (.ptab (pair c l (sa i)) a ls half p0 n mm) 0) i) s

/-! ### Ends of copies (R97, R102) -/

/-- The copy leaves the engine. -/
def dropCopy (s : State) (w id : Nat) : State :=
  giveBack (s.modWheel w fun x => entryFrees { x with eng := { x.eng with copies := x.eng.copies.filter fun e => e.id != id } })
    fun p => p.kind == 1 && p.unit == w && p.key == id

/-- Direction and bytes of an ACOPY. -/
def copyBytes : CopyKind → Option (Nat × Nat)
  | .copy1 dir _ _ len => some (dir, len)
  | .copy2 dir _ _ rows rowBytes _ _ => some (dir, rows * rowBytes)
  | _ => none

/-- What a completed copy counts (18 R605): itself, and an ACOPY's bytes by direction, a copy within the wheel store both ways. -/
def tallyCopy (s : State) (w : Nat) (e : Copy) : State :=
  let add := fun (s : State) (event n : Nat) => tally s w event e.saggar e.layer e.operator n
  let s := add s 0x0BF 1
  match copyBytes e.kind with
  | some (0, n) => add s 0x0B1 n
  | some (1, n) => add s 0x0B2 n
  | some (2, n) => add s 0x0B3 n
  | some (_, n) => add (add s 0x0B1 n) 0x0B2 n
  | none => s

/-- The copy has completed: its counter advances (R97). -/
def endCopy (s : State) (w : Nat) (e : Copy) : State :=
  let s := tallyCopy (dropCopy s w e.id) w e
  match entryCrew s w e.slot e.uid with
  | none => s
  | some c => s.setCrew w e.slot (advanceAc c e.counter)

/-- The copy stops and its crew faults (R102); a copy that outlived its crew (log entry 12) faults its stream, with the record and
WHL_LAST_FAULT that a crew fault writes (R120). -/
def failCopy (s : State) (w : Nat) (e : Copy) (code : Nat) : State :=
  let s := dropCopy s w e.id
  match entryCrew s w e.slot e.uid with
  | some c => crewFault (tallyCrew s w c 0x0BA) w e.slot code e.pc
  | none => streamFault (faultRecord s w e.slot code e.saggar e.stream e.part 0 e.layer e.operator e.pc) e.stream code

end Sys2Proof.Machine
end

