-- ==== Sys2Proof/Machine/SecLoss.lean ====
section
/-!
DEFINITION. The loss of a securing member (17 R581, R582).
-/
namespace Sys2Proof.Machine

/-- Change the securing state of a saggar. -/
def modSec (s : State) (k : Nat) (f : Securing → Securing) : State := s.modSaggar k fun g => { g with sec := f g.sec }

/-- Keep what belongs to retained points. -/
def keepRetained (x : Securing) : Securing :=
  { x with
    frags := x.frags.filter fun f => f.once || x.points.contains f.point
    saved := x.saved.filter fun p => x.points.contains p.point }

/-- Rank `q` of the securing guild is lost (R581): the first loss is recorded and moves the saggar to WAITING, where points not yet
guild-committed are discarded; losses beyond TOLERANCE make it LOST; a loss while RESTORING waits for the member's return. -/
def memberLost (s : State) (k gid q module : Nat) : State :=
  let g := s.saggar k
  let x := g.sec
  if x.state = 0 || x.lost.contains q then s else
  let first := x.lost == []
  let s := if first then
      record s 0x68 552 k (payload [(gid, 112), (q, 96), (module, 80), (g.step.toNat, 48), (((x.points.headD 0)).toNat, 16)]) [k] true
    else s
  modSec s k fun x =>
    let lost := q :: x.lost
    if x.state = 4 then { x with lost, lostRestoring := true }
    else keepRetained { x with
      lost
      state := if x.tolerance < lost.length then 5 else 3
      wasSecured := if first then x.state == 2 else x.wasSecured
      armed := none
      sending := []
      waiting := []
      reported := [] }

/-- A securing transfer or a command of guild `gid` to rank `q` is undelivered (R581). -/
def noteLost (s : State) (gid : Nat) (g : Guild) (q : Nat) : State :=
  let c := (s.saggar g.saggar).cfg
  if c.secMode = 1 && c.secGuild == some gid then memberLost s g.saggar gid q (bits (g.members.getD q 0).toNat 48 16) else s

end Sys2Proof.Machine
end

