-- ==== Sys2Proof/Machine/Links.lean ====
section
/-!
DEFINITION. Spanor Link ports, routes and Ethernet connections (13 R454 to R474): sending, receiving, replay, port states.
-/
namespace Sys2Proof.Machine

def State.port (s : State) (n : Nat) : Port := Tab.get {} s.link.ports n
def State.setPort (s : State) (n : Nat) (x : Port) : State :=
  { s with link := { s.link with ports := Tab.put {} s.link.ports n x } }
def State.ctg (s : State) (n : Nat) : Ctg := Tab.get {} s.link.ctgs n
def State.setCtg (s : State) (n : Nat) (x : Ctg) : State :=
  { s with link := { s.link with ctgs := Tab.put {} s.link.ctgs n x } }

/-- The port carries packets. -/
def portUp (x : Port) : Bool := (x.st == .on || x.st == .draining || x.st == .pendingOn) && !x.retraining

/-- A record of a port (R492). -/
def portRecord (s : State) (n type : Nat) (p : BitVec 128) (k : Nat := 4096) (layer : Nat := 0xFFFFF) (op : Nat := 0xFFF) : State :=
  if k < 4096 then record s type (768 + n) k p [k] false layer op else record s type (768 + n) 0xFFF p [] true layer op

/-- A port takes a state, with its LINK_STATE record. -/
def portState (s : State) (n : Nat) (st : PortSt) : State :=
  let x := s.port n
  portRecord (s.setPort n { x with st }) n 0x83 (payload [(x.st.code, 125), (st.code, 122), (x.failCause, 114), (x.peerId, 96),
    (x.undelivered.toNat, 0)])

/-! ### Routes (R466, R467; 01 R31) -/

/-- The three ports to tray slot `q` (01 R31). -/
def trayPorts (slot q : Nat) : Nat := let j := if q < slot then q else q - 1; 7 * 2 ^ (3 * j)

/-- The default entry of a destination (R467): FIXED to a tray peer, else unreachable. -/
def defaultRoute (s : State) (dest : Nat) : DWord :=
  if dest < 8 ∧ dest ≠ s.hub.strap then BitVec.ofNat 64 (trayPorts s.hub.strap dest * 2 ^ 40 + 2 ^ 38) else 0

/-- The ACTIVE entry of a destination. -/
def routeOf (s : State) (dest : Nat) : DWord :=
  (Tab.find (if s.link.act = 0 then s.link.t0 else s.link.t1) dest).getD (defaultRoute s dest)

def routeMode (e : DWord) : Nat := bits e.toNat 38 2
def routeMaxHop (e : DWord) : Nat := bits e.toNat 36 2

/-- ON ports of an entry. -/
def routePorts (s : State) (e : DWord) : List Nat :=
  (List.range 24).filter fun n => e.getLsbD (40 + n) && (s.port n).st == .on

/-- The port with the most credits of a hop class, lowest-numbered on a tie. -/
def mostCredits (s : State) (hop : Nat) : List Nat → Option Nat
  | [] => none
  | n :: l =>
    match mostCredits s hop l with
    | none => some n
    | some m => if (s.port m).credits.getD hop 0 ≤ (s.port n).credits.getD hop 0 then some n else some m

/-- The port a packet takes (R467). -/
def choosePort (s : State) (p : Packet) : Option Nat :=
  let e := routeOf s p.dest
  let l := routePorts s e
  if p.kind = 1 || routeMode e = 2 then mostCredits s p.hop l
  else if routeMode e = 1 then (match l with
    | [] => none
    | l => l[Config.routeHash p.dest p.tag 0 % l.length]?)
  else none

/-! ### Undelivered packets (R470, 10 R377) -/

/-- The put whose packets carry a tag: wheel and copy. -/
def copyOfTag (s : State) (tag : Nat) : Option (Nat × Copy) :=
  s.wheels.findSome? fun we => (we.2.eng.copies.find? fun e => e.sent.isSome && e.id % 2 ^ 24 == tag).map fun e => (we.1, e)

/-- A guild command that cannot reach a rank waits, with one GUILD_STALLED record. The unit not delivered is sent again later; to a rank
that is lost, everything is (R488). -/
def stallJob (s : State) (id : Nat) (j : GJob) (rank : Nat) (unit : Option Packet) : State :=
  let s := if j.stalled then s else
    record s 0x88 520 j.saggar (payload [(j.guild, 112), (j.seq.toNat, 80), (rank, 64), (j.op, 0)]) [j.saggar] false j.layer j.oper
  { s with link := { s.link with jobs := Tab.modify s.link.jobs id fun j =>
      match unit with
      | some p => { j with stalled := true, unsent := if p.kind = 4 then j.unsent ++ [(rank, p)] else j.unsent }
      | none => { j with
        stalled := true, sentTo := j.sentTo.filter fun q => q % 65536 != rank, unsent := j.unsent.filter fun e => e.1 != rank } } }

/-- The rank of a module in a guild. -/
def rankOf (g : Guild) (module : Nat) : Nat := (g.members.findIdx? fun e => bits e.toNat 48 16 == module).getD 0

/-- The source handles a packet of its own that was not delivered by port `n`. -/
def undeliver (s : State) (n : Nat) (p : Packet) : State :=
  let x := s.port n
  let s := s.setPort n { x with undelivered := x.undelivered + 1 }
  if p.src ≠ s.link.fabricId then s else
  match p.kind with
  | 0 => (match copyOfTag s p.tag with
    | some (w, e) => failCopy s w e fCopy
    | none => s)
  | 2 => (match copyOfTag s p.tag with
    | some (w, e) => failCopy s w e fCopy
    | none => s)
  | 1 =>
    match Tab.find s.link.sigs p.tag with
    | none => s
    | some g =>
      let s := { s with link := { s.link with sigs := Tab.del s.link.sigs p.tag } }
      portRecord s n 0x82 (payload [(g.guild, 112), (g.rank, 96), (g.v.toNat, 64), (g.va.toNat % 2 ^ 57, 7), (g.op, 0)]) g.saggar
        g.layer g.oper
  | 3 => s
  | k =>
    match Tab.find s.link.guilds p.guild with
    | none => s
    | some g =>
      let q := rankOf g p.dest
      let s := noteLost s p.guild g q
      if k = 6 then s else
      match s.link.jobs.find? fun e => e.2.guild == p.guild && e.2.seq == p.v with
      | some (id, j) => stallJob s id j q (some p)
      | none => s

/-- Every packet of a list is undelivered. -/
def undeliverAll (s : State) (n : Nat) (l : List Packet) : State := l.foldl (fun s p => undeliver s n p) s

/-! ### Sending (R456, R458, R465) -/

/-- Rank of a packet in the port's choice (R465). -/
def sendRank (p : Packet) : Nat :=
  match p.kind with
  | 3 => 0 | 5 => 0 | 1 => 1 | 2 => 1 | 6 => 9 | _ => 4 - min p.tclass 2

/-- Writes and collective data go round robin by source number within a class (R465). -/
def inTurn (p : Packet) : Bool := p.kind == 0 || p.kind == 4

/-- Source number of a packet in a port's queue: the wheel of a write, the engine of collective data (02 R49); a forwarded packet
counts as its sending module's (log entry 107). -/
def packetSource (s : State) (p : Packet) : Nat :=
  if p.src ≠ s.link.fabricId then 4096 + p.src
  else if p.kind = 0 then
    (s.wheels.find? fun (w : Nat × Wheel) => w.2.eng.copies.any fun (e : Copy) => e.id % 2 ^ 24 == p.tag).elim 0 Prod.fst
  else 520

/-- Place of a packet in the port's choice: its rank, then how far its source is from the turn of its class. -/
def sendKey (s : State) (x : Port) (p : Packet) : Nat :=
  2 ^ 18 * sendRank p + if inTurn p then (packetSource s p + 2 ^ 17 - 1 - x.turns.getD p.tclass 0) % 2 ^ 17 else 0

/-- The first packet of lowest key that may leave now. -/
def nextPacket (key : Packet → Nat) (ok : Packet → Bool) : List Packet → Option Packet
  | [] => none
  | p :: l =>
    match nextPacket key ok l with
    | none => if ok p then some p else none
    | some q => if key p ≤ key q && ok p then some p else some q

/-- What a packet takes of the securing bucket. -/
def secCost (p : Packet) : Nat := if p.kind = 6 then 100 * (32 + p.data.length) else 0

/-- Fill the securing bucket for the ticks since it was last filled (R465): 255 bytes a tick at SECURE_SHARE percent. -/
def fillBucket (s : State) (x : Port) : Port :=
  { x with bucket := min 6553600 (x.bucket + 255 * s.img.secureShare * (s.gts - x.bucketAt)), bucketAt := s.gts }

/-- The module's connection to another one (R473). -/
def connOf (s : State) (m : Nat) : Conn := Tab.get {} s.link.conns m
def setConn (s : State) (m : Nat) (c : Conn) : State := { s with link := { s.link with conns := Tab.put {} s.link.conns m c } }

/-- The bitmap of sequence numbers received beyond the cumulative acknowledgement. -/
def sackOf (c : Conn) : Word :=
  c.stash.foldl (fun b e => if c.rxSeq + 2 ≤ e.1 ∧ e.1 < c.rxSeq + 34 then b ||| (1#32 <<< (e.1 - c.rxSeq - 2)) else b) 0

/-- The Ethernet port of a destination: LNK_ number, or none when no enabled port is ON. -/
def ethPort (s : State) (dest : Nat) : Option Nat :=
  match (List.range 8).filter fun e => s.img.guildPorts.getLsbD e with
  | [] => none
  | l => (l[Config.ethHash s.link.fabricId dest 0 % l.length]?).map (24 + ·)

/-- A datagram leaves for a module. -/
def sendDatagram (s : State) (m : Nat) (seq : Nat) (pkt : Option Packet) (notice : Bool) : State :=
  let c := connOf s m
  match ethPort s m with
  | none => s
  | some n =>
    let x := s.port n
    if x.st != .on then s
    else (s.setPort n { x with tx := x.tx + 1 }).emit (.datagram n c.ip
      { module := s.link.fabricId, seq, ack := c.rxSeq, sack := sackOf c, notice, pkt })

/-- A packet leaves in a flit, which the replay buffer keeps (R458). -/
def sendFlit (s : State) (n : Nat) (x : Port) (p : Packet) : State :=
  let s := if p.kind = 6 then gtally s (0x043 + 6 * n) none ((32 + p.data.length + 63) / 64) else s
  ((gtally s (0x040 + 6 * n) none).setPort n { x with
    kept := x.kept ++ [{ seq := x.nextSeq, gts := s.time.gts, pkts := [p] }], nextSeq := (x.nextSeq + 1) % 4096, tx := x.tx + 1
    lastAck := if x.kept = [] then s.watch else x.lastAck
    credits := x.credits.set p.hop (x.credits.getD p.hop 0 - 1) }).emit (.flit n { seq := x.nextSeq, ackSeq := x.rxSeq, pkts := [p] })

/-- A packet leaves in a datagram, which its connection keeps; below the port rate of 250 bytes a tick it holds back the next by the time
it takes (R473; log entry 110). -/
def sendOnConn (s : State) (n : Nat) (x : Port) (p : Packet) : State :=
  let c := connOf s p.dest
  let wait := (48 + p.data.length) * 65536 / (250 * max 1 c.rate)
  sendDatagram (setConn (s.setPort n x) p.dest { c with
    nextSeq := c.nextSeq + 1, kept := c.kept ++ [{ seq := c.nextSeq, pkt := p, at_ := s.watch }]
    paceAt := if c.rate < 65536 then max s.watch c.paceAt + wait else c.paceAt }) p.dest c.nextSeq (some p) false

/-- Room to send: in the replay buffer of a Spanor port (R458) and in its peer's buffer of the hop class (R455, R468), and on the packet's connection on an Ethernet one (R473). -/
def mayLeave (s : State) (n : Nat) (x : Port) (p : Packet) : Bool :=
  decide (secCost p ≤ x.bucket) &&
  if n < 24 then decide (x.kept.length < 1024) && decide (0 < x.credits.getD p.hop 0)
  else let c := connOf s p.dest; decide (65536 ≤ c.rate) || decide (c.paceAt ≤ s.watch)

/-- Send what the port may send, in the order of R465; `fuel` bounds the packets. -/
def pump (s : State) (n : Nat) : Nat → State
  | 0 => s
  | fuel + 1 =>
    let x := fillBucket s (s.port n)
    if x.st != .on || x.retraining then s else
    match nextPacket (sendKey s x) (mayLeave s n x) x.txq with
    | none => s
    | some p =>
      let x := { x with
        txq := x.txq.erase p, bucket := x.bucket - secCost p
        turns := if inTurn p then x.turns.set p.tclass (packetSource s p) else x.turns }
      pump (if n < 24 then sendFlit s n x p else sendOnConn s n x p) n fuel

/-- Send what waits at the port. -/
def pumpAll (s : State) (n : Nat) : State := pump s n ((s.port n).txq.length + 1)

/-- A bare signal of this module goes out by port `n` (10 R394). -/
def noteSigPort (s : State) (n : Nat) (p : Packet) : State :=
  if p.kind = 1 ∧ p.src = s.link.fabricId then
    { s with link := { s.link with sigs := Tab.modify s.link.sigs p.tag fun o => { o with port := n } } }
  else s

/-- A packet joins a port's queue. -/
def enqueue (s : State) (n : Nat) (p : Packet) : State :=
  let s := noteSigPort s n p
  let x := s.port n
  pumpAll (s.setPort n { x with txq := x.txq ++ [p] }) n

/-- Send a packet by the route table (R467, R470). -/
def sendRouted (s : State) (p : Packet) : State :=
  match choosePort s p with
  | some n => enqueue s n p
  | none => undeliver s ((List.range 24).find? (fun n => (routeOf s p.dest).getLsbD (40 + n)) |>.getD 0) p

/-! ### Ethernet (R473) -/

/-- Send a packet on the connection to its destination, in its turn at the port. -/
def sendEth (s : State) (ip : Word) (p : Packet) : State :=
  match ethPort s p.dest with
  | none => undeliver s 24 p
  | some n =>
    if (s.port n).st != .on then undeliver s n p else
    enqueue (setConn s p.dest { connOf s p.dest with ip }) n p

/-- Send a packet to rank `q` of a guild, by the family its entry names (R481). -/
def sendRank_ (s : State) (g : Guild) (q : Nat) (p : Packet) : State :=
  let m := g.members.getD q 0
  let p := { p with dest := bits m.toNat 48 16, src := s.link.fabricId, saggar := bits m.toNat 36 12, rank := g.rank }
  if m.getLsbD 35 then sendEth s (m.setWidth 32) p else sendRouted s p

/-- Answer a packet's sender: over the family it came by. -/
def sendBack (s : State) (n : Nat) (p : Packet) (q : Packet) : State :=
  let q := { q with dest := p.src, src := s.link.fabricId, guild := p.guild, tag := p.tag }
  if 24 ≤ n then sendEth s (connOf s p.src).ip q else sendRouted s q

/-! ### Port states (R459, R463, R464) -/

/-- Permit code of a port's bring-up leave. -/
def portPermit (n : Nat) : Nat := if n < 24 then 3 else 4

/-- A connection fails, or its port leaves service: nothing sent on it is open any more, its numbers go on. -/
def closeConn (c : Conn) : Conn := { ip := c.ip, rxSeq := c.rxSeq, nextSeq := c.nextSeq }

/-- The connections of an Ethernet port with unacknowledged packets. -/
def connsOf (s : State) (n : Nat) : List (Nat × Conn) :=
  if n < 24 then [] else s.link.conns.filter fun e => e.2.kept != [] && ethPort s e.1 == some n

/-- A port leaves service: what it has not delivered is undelivered (R470). -/
def portDown (s : State) (n : Nat) (st : PortSt) (cause : Nat) : State :=
  let x := s.port n
  let cs := connsOf s n
  let ps := x.kept.flatMap (·.pkts) ++ cs.flatMap (fun e => e.2.kept.map (·.pkt)) ++ x.txq
  let s := cs.foldl (fun s e => setConn s e.1 (closeConn e.2)) s
  let s := s.setPort n { x with failCause := cause, kept := [], txq := [], retraining := false, asked := false }
  let s := dropPermits s fun p => p.kind == portPermit n && p.unit == 768 + n
  portState (undeliverAll s n ps) n st

/-- The port is FENCED (R459, R463, R476; 16 R549); `parent` is the kind of the unit whose fence caused it. -/
def fencePort (s : State) (n cause etype : Nat) (parent : Nat := 15) : State :=
  let (k, i) := portKind n
  let s := unitError s (768 + n) ecUnit k i etype
  portDown (openFence s { kind := k, index := i, etype, parent }) n .fenced cause

/-- Bring-up leave is asked for (R463). -/
def portBringUp (s : State) (n : Nat) : State :=
  let x := s.port n
  askLeave (s.setPort n { x with asked := true }) (portPermit n) (768 + n) 0 0 4096

/-- Training starts; it cannot on an Ethernet port without a usable cartridge (R463, R475, R476). -/
def portTrain (s : State) (n : Nat) : State :=
  let x := s.port n
  let s := s.setPort n { x with asked := false, since := s.watch, failCause := 0 }
  portState s n .training

/-- Write 1 to ENABLE. -/
def portEnable (s : State) (n : Nat) : State :=
  let x := s.port n
  if x.st = .fenced then s else
  let s := s.setPort n { x with enable := true }
  match x.st with
  | .off => if x.asked then s else portBringUp s n
  | .draining => portState s n .pendingOn
  | _ => s

/-- Write 0 to ENABLE. -/
def portDisable (s : State) (n : Nat) : State :=
  let x := s.port n
  if x.st = .fenced then s else
  let s := s.setPort n { x with enable := false, since := if x.st = .on then s.watch else x.since }
  match x.st with
  | .on => portState s n .draining
  | .pendingOn => portState s n .draining
  | .off => giveBack (s.setPort n { s.port n with asked := false }) fun p => p.kind == portPermit n && p.unit == 768 + n
  | _ => s

/-- The port starts a retrain, or is FENCED at the fifth in one window (R459). -/
def retrain (s : State) (n : Nat) : State :=
  let x := s.port n
  let win := s.gts / 2 ^ 30
  let k := if x.window = win then x.retrains + 1 else 1
  let s := s.setPort n { x with retrains := k, window := win, reps := 0 }
  if 5 ≤ k then fencePort s n 2 5
  else s.setPort n { s.port n with retraining := true, since := s.watch }

/-- Resend every kept flit in order (R458). -/
def replay (s : State) (n : Nat) : State :=
  let x := s.port n
  let s := s.setPort n { x with replays := x.replays + BitVec.ofNat 64 x.kept.length, reps := x.reps + 1, lastAck := s.watch }
  let s := x.kept.foldl (fun s k => s.emit (.flit n { seq := k.seq, ackSeq := x.rxSeq, pkts := k.pkts })) s
  let s := gtally s (0x042 + 6 * n) none x.kept.length
  if 16 ≤ x.reps + 1 then retrain s n else s

/-! ### Receiving (R457, R458, R468) -/

/-- Kept flits that ACK_SEQ does not cover. -/
def ackKept (a : Nat) (l : List Kept) : List Kept :=
  if l.any fun k => k.seq == a then (l.dropWhile fun k => k.seq != a).drop 1 else l

/-- A packet that is not for this module goes on, in the next hop class (R468). -/
def forward (s : State) (n : Nat) (p : Packet) : State :=
  let e := routeOf s p.dest
  let q := { p with hop := p.hop + 1 }
  if 3 < q.hop ∨ routeMaxHop e < q.hop then
    portRecord s n 0x85 (payload [(p.dest, 112), (p.src, 96), (p.tag, 72), (p.hop, 0)])
  else gtally (sendRouted s q) (0x045 + 6 * n) none

/-- A packet arrives at this module and is performed or forwarded. -/
def deliverNow (s : State) (n : Nat) (p : Packet) : State :=
  if p.dest = s.link.fabricId then
    let (id, s) := s.fresh
    { s with link := { s.link with inbound := Tab.ins s.link.inbound id (n, p) } }
  else if n < 24 then forward s n p else s

/-- A packet arrives at this module; in a global stop the port holds it (18 R615). -/
def deliver (s : State) (n : Nat) (p : Packet) : State :=
  if s.frozen then s.setPort n { s.port n with held := (s.port n).held ++ [p] } else deliverNow s n p

/-- The record of a data flit held in a global stop (18 R615): kind 0b01, its arrival. -/
def heldRecord (s : State) (n seq : Nat) : State :=
  if s.frozen then record s 0xE5 (768 + n) 0xFFF (payload [(n, 123), (1, 121), (seq % 4096, 109), ((s.port n).peerId, 93), (s.gts, 0)])
    [] true
  else s

/-- A flit that returns the buffer of the packets' data flit, in the hop class they came in (R455, R468). -/
def freed (f : Flit) : List Packet → Flit
  | [] => f
  | p :: _ => { f with creditClass := p.hop, credits := 1 }

/-- Ask for replay, once (R457). -/
def sendNak (s : State) (n : Nat) : State :=
  let x := s.port n
  if x.nakSent then s
  else (s.setPort n { x with nakSent := true }).emit (.flit n { type := 0, ackSeq := x.rxSeq, nak := true })

/-- A Spanor flit arrives (R455, R457, R458). -/
def execFlitReceive (port : Nat) (f : Flit) (s : State) : Out :=
  act (decide (port < 24)) (fun s =>
    let x := s.port port
    if !portUp x then s
    else if !f.crcOk then sendNak (s.setPort port { x with crcErr := x.crcErr + 1 }) port
    else if 2 < f.type then s
    else
      let kept := ackKept f.ackSeq x.kept
      let moved := decide (kept.length < x.kept.length)
      let x := { x with
        fecCorr := x.fecCorr + BitVec.ofNat 64 f.corrected, kept := kept
        reps := if moved then 0 else x.reps, lastAck := if moved then s.watch else x.lastAck, lastGood := s.watch
        credits := x.credits.set f.creditClass (x.credits.getD f.creditClass 0 + f.credits) }
      let s := s.setPort port x
      let s := if f.nak then replay s port else s
      let s := pumpAll s port
      let s := match f.mark with
        | some g => if f.type = 2 then portRecord s port 0x86 (payload [(g.toNat, 64), (x.peerId, 48), (x.peerPort, 43)]) else s
        | none => s
      if f.type != 1 then s
      else
        let d := (f.seq + 4096 - x.rxSeq) % 4096
        if d = 1 then
          let y := s.port port
          let s := s.setPort port { y with rxSeq := f.seq, nakSent := false, rx := y.rx + BitVec.ofNat 64 f.pkts.length }
          let s := gtally s (0x041 + 6 * port) none
          let full := s.frozen && decide (4096 ≤ (s.port port).held.length)
          let s := s.emit (.flit port (freed { type := 0, ackSeq := f.seq } (if full then [] else f.pkts)))
          f.pkts.foldl (fun s p => deliver s port p) (heldRecord s port f.seq)
        else if d = 0 || 2048 ≤ d then s
        else sendNak s port) s

/-- No acknowledgement has advanced for 2,000 ticks while flits are kept (R458). -/
def execReplayTimeout (port : Nat) (s : State) : Out :=
  act (decide (port < 24)) (fun s =>
    let x := s.port port
    if portUp x && x.kept != [] && decide (x.lastAck + 2000 ≤ s.watch) then replay s port else s) s

/-- 100 µs have passed without a correctable flit (R459). -/
def execNoCorrectableFlitTimeout (port : Nat) (s : State) : Out :=
  act (decide (port < 24)) (fun s =>
    if portUp (s.port port) && decide ((s.port port).lastGood + 40000 ≤ s.watch) then retrain s port else s) s

/-- A retrain ends (R459). -/
def execRetrainEnd (port : Nat) (ok : Bool) (s : State) : Out :=
  act (decide (port < 24)) (fun s =>
    let x := s.port port
    if !x.retraining then s
    else if !ok then fencePort s port 2 5
    else
      let s := s.setPort port { x with retraining := false, lastAck := s.watch, lastGood := s.watch }
      pumpAll (x.kept.foldl (fun s k => s.emit (.flit port { seq := k.seq, ackSeq := x.rxSeq, pkts := k.pkts })) s) port) s

/-- An ON port sends its time mark, 2^20 ticks after the last one (R492). -/
def execLinkTimeMark (port : Nat) (s : State) : Out :=
  act (decide (port < 24)) (fun s =>
    let x := s.port port
    if x.st = .on && !x.retraining && (x.markAt.all fun m => decide (m + 2 ^ 20 ≤ s.watch)) then
      (s.setPort port { x with markAt := some s.watch }).emit (.flit port { type := 2, ackSeq := x.rxSeq, mark := some s.time.gts })
    else s) s

/-- LNK_PORT_CTL.ENABLE ← 1 (R463, R464). -/
def execLnkPortEnable (port : Nat) (s : State) : Out := act (decide (port < 32)) (fun s => portEnable s port) s
/-- LNK_PORT_CTL.ENABLE ← 0 (R464). -/
def execLnkPortDisable (port : Nat) (s : State) : Out := act (decide (port < 32)) (fun s => portDisable s port) s

/-- Training ends (R463): the two ends have exchanged IDs, or the port is FENCED. -/
def execPortTrainingEnd (port : Nat) (ok : Bool) (peer : Word) (flight : Word) (s : State) : Out :=
  act (decide (port < 32)) (fun s =>
    let x := s.port port
    if x.st != .training then s else
    let c := s.ctg (port - 24)
    let cause := if port < 24 then (if ok then 0 else 1)
      else if !c.present then 3 else if c.fault then 4 else if !c.app then 5 else if ok && c.ready then 0 else 1
    if cause != 0 then fencePort s port cause (if cause = 4 then 6 else 4)
    else
      let s := s.setPort port { x with
        peerId := bits peer.toNat 16 16, peerPort := bits peer.toNat 0 5, flight := flight.toNat, nextSeq := 1, rxSeq := 0
        nakSent := false, reps := 0, lastAck := s.watch, lastGood := s.watch
        credits := if port < 24 then (List.range 4).map (Config.linkCredits port) else x.credits }
      portState (giveBack s fun p => p.kind == portPermit port && p.unit == 768 + port) port .on) s

/-- The cone record's bytes (R478); the CRC-16 has its initial value 0 (log entry 13). -/
def crc16 (l : List Byte) : BitVec 16 :=
  l.foldl (fun (c : BitVec 16) (b : Byte) => (List.range 8).foldl (fun (c : BitVec 16) _ =>
    if c.getLsbD 15 then (c <<< 1) ^^^ 0x8BB7 else c <<< 1) (c ^^^ (b.setWidth 16 <<< 8))) 0

def coneBytes (c : Ctg) : List Byte :=
  let l := leBytes 2 1 ++ leBytes 2 c.writes ++ leBytes 4 c.n ++ leBytes 8 c.b ++ leBytes 8 c.th ++ leBytes 6 c.serial.toNat
  l ++ leBytes 2 (crc16 l).toNat

/-- Write the cone record to the cartridge and the position's storage (R478). -/
def coneWrite (s : State) (n : Nat) : State :=
  let c := s.ctg n
  if !c.present then s else
  let c := { c with writes := (c.writes + 1) % 65536 }
  let l := coneBytes c
  (s.setCtg n { c with held := l, wrote := c.windows }).emit (.cartridge n 3 l)

/-- A drain ends once the replay buffer is empty or 40,000 ticks have passed (R464). -/
def execPortDrainEnd (port : Nat) (s : State) : Out :=
  act (decide (port < 32)) (fun s =>
    let x := s.port port
    if !(x.st == .draining || x.st == .pendingOn) || !(x.kept == [] || decide (x.since + 40000 ≤ s.watch)) then s
    else
      let s := portDown s port .off 0
      let s := if 24 ≤ port then coneWrite s (port - 24) else s
      if x.st = .pendingOn then portBringUp s port else s) s

/-- The tick of a ROUTE_SWAP has come (R469). -/
def execRouteSwapTick (s : State) : Out :=
  act true (fun s =>
    match s.link.swap with
    | none => s
    | some t =>
      if s.gts < t then s else
      let keys := (Tab.keys s.link.t0 ++ Tab.keys s.link.t1).eraseDups
      let at_ := fun (tb : Tab DWord) k => (Tab.find tb k).getD (defaultRoute s k)
      let n := (keys.filter fun k => at_ s.link.t0 k != at_ s.link.t1 k).length
      let a := 1 - s.link.act
      portRecord { s with link := { s.link with act := a, swap := none } } 0 0x84 (payload [(n, 112), (a, 0)])) s

/-- In-sequence packets of a connection's stash are delivered; `fuel` bounds them. -/
def unstash (s : State) (n m : Nat) : Nat → State
  | 0 => s
  | fuel + 1 =>
    let c := connOf s m
    match c.stash.find? fun e => e.1 == c.rxSeq + 1 with
    | none => s
    | some (q, p) => unstash (deliver (setConn s m { c with rxSeq := q, stash := c.stash.filter fun e => e.1 != q }) n p) n m fuel

/-- A guild datagram arrives on Ethernet port `port` (R473). -/
def execEthDatagramReceive (port : Nat) (d : Datagram) (s : State) : Out :=
  act (decide (24 ≤ port) && decide (port < 32)) (fun s =>
    let x := s.port port
    if !portUp x then s
    else if !d.fcsOk then s.setPort port { x with crcErr := x.crcErr + 1 }
    else
      let s := s.setPort port { x with rx := x.rx + 1 }
      let c := connOf s d.module
      let kept := c.kept.filter fun k => decide (d.ack < k.seq) &&
        !(decide (d.ack + 2 ≤ k.seq) && d.sack.getLsbD (k.seq - d.ack - 2))
      let c := { c with kept, rate := if d.notice then max 1 (c.rate / 2) else c.rate
                        noticed := if d.notice then some s.watch else c.noticed }
      let ce := d.ce && (match c.notified with
        | none => true
        | some t => decide (t + 20000 ≤ s.watch))
      let c := { c with notified := if ce then some s.watch else c.notified }
      match d.pkt with
      | none => let s := setConn s d.module c; pumpAll (if ce then sendDatagram s d.module 0 none true else s) port
      | some p =>
        let fresh := decide (c.rxSeq < d.seq) && !(c.stash.any fun e => e.1 == d.seq)
        let s := if fresh then heldRecord s port d.seq else s
        let c := if fresh then { c with stash := (d.seq, p) :: c.stash } else c
        let s := unstash (setConn s d.module c) port d.module (c.stash.length + 1)
        pumpAll (sendDatagram s d.module 0 none ce) port) s

/-- Ticks a datagram sent `k` times waits for its acknowledgement (R473). -/
def resendWait (k : Nat) : Nat := min 2560000 (20000 * 2 ^ (k - 1))

/-- A datagram has not been acknowledged in time: resent, or after 8 sends the connection fails (R473). -/
def execEthResendTimeout (module : Nat) (s : State) : Out :=
  act (decide (module < 65536)) (fun s =>
    let c := connOf s module
    match c.kept.find? fun k => decide (k.at_ + resendWait k.sends ≤ s.watch) with
    | none => s
    | some k =>
      if 8 ≤ k.sends then
        undeliverAll (setConn s module (closeConn c))
          ((ethPort s module).getD 24) (c.kept.map (·.pkt))
      else
        let s := setConn s module { c with kept := c.kept.map fun q =>
          if q.seq = k.seq then { q with sends := q.sends + 1, at_ := s.watch } else q }
        sendDatagram s module k.seq (some k.pkt) false) s

/-- 50 µs have passed without a congestion notice (R473). -/
def execCongestionRaise (module : Nat) (s : State) : Out :=
  act (decide (module < 65536)) (fun s =>
    let c := connOf s module
    match c.noticed with
    | none => s
    | some t =>
      if s.watch < t + 20000 then s else
      let s := setConn s module { c with rate := min 65536 (c.rate + 4096), noticed := some s.watch }
      match ethPort s module with
      | none => s
      | some n => pumpAll s n) s

end Sys2Proof.Machine
end

