-- ==== Sys2Proof/Machine/Secure.lean ====
section
/-!
DEFINITION. Bounded-loss securing (17 R565 to R580): the latched table, methods, capture at a STEP, fragments, receivers,
local commit. Packets of securing and of the restore have forms of this model (log entry 16).
-/
namespace Sys2Proof.Machine

/-! ### Receivers (R576) -/

/-- The securing guild of a saggar, while it is bound to it. -/
def secGuildOf (s : State) (k : Nat) : Option (Nat × Guild) :=
  match (s.saggar k).cfg.secGuild with
  | none => none
  | some gid =>
    match Tab.find s.link.guilds gid with
    | none => none
    | some g => if g.saggar = k then some (gid, g) else none

def moduleOf (g : Guild) (q : Nat) : Nat := bits (g.members.getD q 0).toNat 48 16

/-- Rank `q` has a granary. -/
def isReceiver (s : State) (g : Guild) (q : Nat) : Bool :=
  if q = g.rank then s.fuse.variant != 3 else Config.hasGranary (moduleOf g q)

def receivers (s : State) (g : Guild) : List Nat := (List.range g.n).filter fun q => isReceiver s g q

/-- The first m receivers after rank `r`. -/
def buddies (s : State) (g : Guild) (m r : Nat) : List Nat :=
  let l := receivers s g
  ((l.filter fun q => decide (r < q)) ++ (l.filter fun q => decide (q < r))).take m

/-- Where fragment `j` of rank `r` goes. -/
def fragHome (s : State) (g : Guild) (r j : Nat) : Option Nat :=
  let l := receivers s g
  let l := (l.filter fun q => decide (r ≤ q)) ++ (l.filter fun q => decide (q < r))
  l[j % l.length]?

/-- Insert into a falling list. -/
def insFall (n : Nat) : List Nat → List Nat
  | [] => [n]
  | m :: l => if m ≤ n then n :: m :: l else m :: insFall n l

/-- The largest t such that the t largest of `l` sum to at most `room`. -/
def mostLost (room : Nat) : List Nat → Nat
  | [] => 0
  | n :: l => if n ≤ room then mostLost (room - n) l + 1 else 0

/-- What rank `r` can lose: fragments beyond k, and all buddies but one when r itself is lost. -/
def rankTolerance (s : State) (g : Guild) (k m : Nat) (empty : List Nat) (r : Nat) : Nat :=
  let homes := (List.range (k + m)).filterMap fun j => fragHome s g r j
  let homes := homes.filter fun q => !empty.contains q
  let counts := homes.eraseDups.foldl (fun a q => insFall (homes.filter (· == q)).length a) []
  min (mostLost (homes.length - k) counts) ((buddies s g m r).filter fun q => !empty.contains q).length

/-- TOLERANCE (R576): the least over the ranks; members in `empty` hold nothing for others. -/
def tolerance (s : State) (g : Guild) (k m : Nat) (empty : List Nat) : Nat :=
  if receivers s g = [] then 0 else
  (List.range g.n).foldl (fun t r => min t (rankTolerance s g k m empty r)) m

/-! ### The table (R568, R569) -/

/-- An entry's fields, or none when one is reserved or out of range. -/
def secEntOf (l : List Byte) : Option SecEnt :=
  let va := leNat (l.take 8)
  let n := leNat ((l.drop 8).take 8)
  let kb := (l.getD 18 0).toNat
  if 2 ^ 57 ≤ va || va % 4096 != 0 || n % 4096 != 0 || n = 0 || 2 ^ 40 < n || 4 < kb || (l.drop 19).any (· != 0) then none
  else some { va, bytes := n, wid := leNat ((l.drop 16).take 2), kind := kb }

/-- Bytes of one 4 KiB piece of a saggar's memory. -/
def pieceAt (s : State) (k va : Nat) (n : Nat := 4096) : List Byte :=
  match translate s k (BitVec.ofNat 64 va) with
  | none => List.replicate n 0
  | some (pa, _) => memBytes s pa n

/-- The table in memory, or none when an entry breaks R568. -/
def readSecTable (s : State) (k : Nat) : Option (List SecEnt) :=
  let c := (s.saggar k).cfg
  if c.secCount != 0 && !rangeMapped s k false c.secTable.toNat (32 * c.secCount) then none else
  let l := (List.range c.secCount).map fun i => secEntOf (pieceAt s k (c.secTable.toNat + 32 * i) 32)
  if l.any Option.isNone then none else
  let l := l.filterMap id
  let bad := (List.range l.length).any fun i =>
    match l[i]? with
    | none => false
    | some a => !rangeMapped s k false a.va a.bytes ||
      (l.drop (i + 1)).any fun b => decide (a.va < b.va + b.bytes) && decide (b.va < a.va + a.bytes)
  if bad then none else some l

/-- Latch a table: an entry that stands as before keeps its method (R568). -/
def latchTable (old new : List SecEnt) : List SecEnt :=
  (List.range new.length).filterMap fun i =>
    match new[i]?, old[i]? with
    | some b, some a => if a.va = b.va ∧ a.bytes = b.bytes ∧ a.wid = b.wid ∧ a.kind = b.kind then some a else some b
    | some b, none => some b
    | none, _ => none

/-- ROLE of a weight as the table in memory has it. -/
def roleInTable (s : State) (k wid : Nat) : Nat :=
  let c := (s.saggar k).cfg
  if c.wgtCount ≤ wid then 0 else
  let r := bits ((pieceAt s k (c.wgtTable.toNat + 64 * wid) 64).getD 34 0).toNat 0 4
  if 2 < r then 0 else r

/-- What the module secures on its own account (R569), as ranges. -/
def ownRanges (s : State) (k : Nat) : List (Nat × Nat) :=
  let c := (s.saggar k).cfg
  (if c.layerCount = 0 then [] else [(c.layerTable.toNat, 32 * c.layerCount)]) ++
  (if c.wgtCount = 0 then [] else [(c.wgtTable.toNat, 64 * c.wgtCount)]) ++
  (List.range c.wgtCount).filterMap fun i =>
    let e := pieceAt s k (c.wgtTable.toNat + 64 * i) 64
    let ef := leNat ((e.drop 8).take 8)
    if ef = 0 then none else some (ef, 4 * leNat ((e.drop 24).take 4))

/-- The 4 KiB pieces of a range. -/
def piecesOf (va n : Nat) : List Nat :=
  (List.range ((n + va % 4096 + 4095) / 4096)).map fun i => va / 4096 * 4096 + 4096 * i

/-- The range touches the piece. -/
def holdsPiece (r : Nat × Nat) (p : Nat) : Bool := decide (r.1 < p + 4096) && decide (p < r.1 + r.2)

/-- The entry is mirrored now: by its method or by the old one still in force. -/
def isMirror (e : SecEnt) : Bool := e.method == some 0 || e.old == some 0
def isParity (e : SecEnt) : Bool := e.method == some 1 || e.old == some 1

/-! ### Methods (R572, R573) -/

/-- The forced method of an entry: 0 MIRROR, 1 PARITY, 2 ONCE. -/
def forcedMethod (s : State) (k : Nat) (e : SecEnt) : Option Nat :=
  let role := if e.wid = 0xFFFF then 0 else roleInTable s k e.wid
  if e.kind = 1 || e.kind = 4 then some 0
  else if e.kind = 2 then some 1
  else if e.wid != 0xFFFF && role == 2 then some 0
  else if (e.kind = 3 || (e.wid != 0xFFFF && role == 1)) && !e.written then some 2
  else none

/-- The method of an entry at a point. -/
def chooseMethod (s : State) (k : Nat) (first : Bool) (steps : Nat) (e : SecEnt) : Nat :=
  let c := (s.saggar k).cfg
  let pieces := e.bytes / 4096
  let num := if first then 1 else e.dirtySum
  let den := if first then 1 else max 1 (steps * pieces)
  -- cm and cp of R572, both times den × k
  let cm := c.parM * num * c.lossL * e.bytes * c.parK
  let cp := e.bytes * (c.parK + c.parM - 1) * den
  match forcedMethod s k e with
  | some m => m
  | none =>
    if e.bytes ≤ 4 * 2 ^ 20 then 0
    else if first then (if cm < cp then 0 else 1)
    else match e.method with
      | some 1 => if 2 * cm ≤ cp then 0 else 1
      | some 0 => if 2 * cp ≤ cm then 1 else 0
      | _ => if cm < cp then 0 else 1

/-- f of R572 in units of 2^-32, saturating. -/
def fraction (first : Bool) (steps : Nat) (e : SecEnt) : Nat :=
  if first then 2 ^ 32 - 1 else min (e.dirtySum * 2 ^ 32 / max 1 (steps * (e.bytes / 4096))) (2 ^ 32 - 1)

/-- Give every entry its method at point `p`, with a SECURE_METHOD record for each change. -/
def chooseAll (s : State) (k : Nat) (p : Word) : State :=
  let x := (s.saggar k).sec
  let new := x.table.map fun e => (e, chooseMethod s k x.first x.steps e)
  let s := ((List.range new.length).zip new).foldl (fun s (i, e, m) =>
    match e.method with
    | none => s
    | some o => if o = m then s else
      record s 0x65 552 k (payload [(i, 112), (o, 110), (m, 108), (p.toNat, 64), (fraction x.first x.steps e, 32)]) [k] false) s
  modSec s k fun x => { x with
    first := false
    steps := 0
    table := new.map fun (e, m) => { e with
      method := some m
      old := if e.method == some m then e.old else e.method
      dirtySum := 0
      written := if m = 2 then e.written else false
      sent := e.sent && m == 2 } }

/-! ### Erasure code (R578) -/

/-- Product in GF(2^8) with the polynomial 0x11D. -/
def gfMul (a b : Nat) : Nat :=
  ((List.range 8).foldl (fun (acc : Nat × Nat) i =>
    let r := if b.testBit i then acc.1 ^^^ acc.2 else acc.1
    let a2 := acc.2 * 2
    (r, if 256 ≤ a2 then a2 ^^^ 0x11D else a2)) (0, a)).1

/-- The inverse: a to the power 254. -/
def gfInv (a : Nat) : Nat := (List.range 253).foldl (fun r _ => gfMul r a) a

/-- g(i, j). -/
def gfCoef (k i j : Nat) : Nat := gfInv ((k + i) ^^^ j)

/-- Bytes of fragment size for a snapshot of `n` bytes. -/
def fragSize (k n : Nat) : Nat := (n + 4096 * k - 1) / (4096 * k) * 4096

/-- Data fragments of a snapshot, the last padded with zeros. -/
def dataFrags (k : Nat) (l : List Byte) : List (List Byte) :=
  let f := fragSize k l.length
  (List.range k).map fun j => let d := (l.drop (j * f)).take f; d ++ List.replicate (f - d.length) 0

/-- The sum over j of c_j × d_j, byte by byte. -/
def combine (n : Nat) (l : List (Nat × List Byte)) : List Byte :=
  l.foldl (fun acc (c, d) => (acc.zip d).map fun (a, b) => a ^^^ BitVec.ofNat 8 (gfMul c b.toNat)) (List.replicate n 0)

/-- Fragment `j` of a snapshot. -/
def fragment (k : Nat) (ds : List (List Byte)) (j : Nat) : List Byte :=
  if j < k then ds.getD j [] else combine ((ds.headD []).length) ((List.range k).map fun i => (gfCoef k (j - k) i, ds.getD i []))

/-! ### Packets -/

/-- A control packet of kind `what` (log entry 16): 0 READY, 1 ABORT, 2 local commit, 3 request for space, 4 space granted, 5
space refused, 6 restore complete, 7 request for the manifest. `check` stands in RANK's place (13 R482). -/
def sendCtl (s : State) (gid : Nat) (g : Guild) (q what : Nat) (v : Word) (check amount : Nat) (tclass : Nat := 0) : State :=
  let m := g.members.getD q 0
  let p : Packet := { dest := bits m.toNat 48 16, src := s.link.fabricId, kind := 5, tclass, saggar := bits m.toNat 36 12
                      addr := BitVec.ofNat 64 amount, guild := gid, rank := check, v, count := what }
  if m.getLsbD 35 then sendEth s (m.setWidth 32) p else sendRouted s p

/-- A control packet to every other member. -/
def sendAll (s : State) (gid : Nat) (g : Guild) (what : Nat) (v : Word) (check amount : Nat) : State :=
  ((List.range g.n).filter (· != g.rank)).foldl (fun s q => sendCtl s gid g q what v check amount) s

/-- A securing packet to rank `q`, whose acknowledgement is awaited (R574, R577): `what` 0 half of a mirrored piece, 1 part
of a fragment, 2 the attached signal of a step. -/
def sendSec (s : State) (k gid : Nat) (g : Guild) (q what : Nat) (v : Word) (addr count : Nat) (data : List Byte) : State :=
  let (id, s) := s.fresh
  let tag := id % 2 ^ 24
  let s := modSec s k fun x => { x with sending := (tag, q, v, what == 1) :: x.sending }
  let n := BitVec.ofNat 64 data.length
  let s := if what = 1 then { s with front := { s.front with parityBytes := s.front.parityBytes + n } }
    else { s with front := { s.front with mirrorBytes := s.front.mirrorBytes + n } }
  let s := gtally s 0x00E (some k)
  sendRank_ s g q { dest := 0, src := 0, kind := 6, length := data.length / 32, addr := BitVec.ofNat 64 addr, tag, guild := gid
                    v, op := what, count, data }

/-- The bytes cut into parts of 2,048, with their offsets. -/
def partsOf (l : List Byte) : List (Nat × List Byte) :=
  (List.range ((l.length + 2047) / 2048)).map fun i => (2048 * i, (l.drop (2048 * i)).take 2048)

/-- Send a fragment's parts to its receiver. -/
def sendFrag (s : State) (k gid : Nat) (g : Guild) (q : Nat) (f : HeldFrag) : State :=
  f.parts.foldl (fun s p => sendSec s k gid g q 1 f.point (2 ^ 32 * f.bytes + p.1) (f.idx + if f.once then 65536 else 0) p.2) s

/-! ### Space (R579) -/

/-- Bytes the member holds for others. -/
def heldBytes (x : Securing) : Nat := (x.frags.map HeldFrag.bytes).sum + 2048 * (x.image.length + x.journal.length)

/-- Bytes free in SECURE_REGION. -/
def freeBytes (s : State) (k : Nat) : Nat := (s.saggar k).cfg.regionSize - heldBytes (s.saggar k).sec

/-! ### Capture (R570, R571) -/

/-- Dirty pieces of the saggar, by address. -/
def dirtyPieces (s : State) (k : Nat) : List Nat :=
  (Tab.keys s.ms.dirty).flatMap fun d => if lineKey s (4096 * d) = k then vasOf (s.saggar k).maps (4096 * d) else []

/-- A new step begins with no piece of the saggar dirty. -/
def cleanPieces (s : State) (k : Nat) : State :=
  { s with ms := { s.ms with dirty := s.ms.dirty.filter fun e => lineKey s (4096 * e.1) != k } }

/-- Mirrored pieces go to every buddy, then the attached signal of the step (R577). -/
def sendMirror (s : State) (k gid : Nat) (g : Guild) (step : Word) (ps : List Nat) : State :=
  let c := (s.saggar k).cfg
  let data := ps.flatMap fun p => (partsOf (pieceAt s k p)).map fun (o, d) => (p + o, d)
  let s := modSec s k fun x => { x with sentPieces := x.sentPieces + ps.length }
  (buddies s g c.parM g.rank).foldl (fun s q =>
    let s := data.foldl (fun s e => sendSec s k gid g q 0 step e.1 0 e.2) s
    sendSec s k gid g q 2 step 0 data.length []) s

/-- Split a snapshot into fragments: those of this member's own are held at once, the others wait for space (R576, R579). -/
def offerFrags (s : State) (k : Nat) (g : Guild) (p : Word) (once : Bool) (snap : List Byte) : State :=
  let c := (s.saggar k).cfg
  if snap = [] then s else
  let ds := dataFrags c.parK snap
  let s := modSec s k fun x => { x with sentPieces := x.sentPieces + snap.length / 4096 }
  (List.range (c.parK + c.parM)).foldl (fun s j =>
    let l := fragment c.parK ds j
    let f : HeldFrag := { rank := g.rank, point := p, idx := j, once, bytes := l.length, parts := partsOf l }
    match fragHome s g g.rank j with
    | none => s
    | some q => modSec s k fun x =>
        if q = g.rank then { x with frags := f :: x.frags } else { x with waiting := x.waiting ++ [(q, f)] }) s

/-- Ask every receiver that is to take fragments for space. -/
def askSpace (s : State) (k gid : Nat) (g : Guild) (p : Word) : State :=
  let w := (s.saggar k).sec.waiting
  (w.map Prod.fst).eraseDups.foldl (fun s q =>
    sendCtl s gid g q 3 p g.rank (((w.filter fun e => e.1 == q).map fun e => e.2.bytes).sum)) s

/-- This member has locally committed the armed point: it reports (R574). -/
def checkLocal (s : State) (k : Nat) : State :=
  match secGuildOf s k, (s.saggar k).sec.armed with
  | some (gid, g), some p =>
    let x := (s.saggar k).sec
    if x.waiting != [] || x.reported.contains (g.rank, p) || x.sending.any (fun e => reached p e.2.2.1) then s
    else sendAll (modSec s k fun x => { x with reported := (g.rank, p) :: x.reported }) gid g 2 p g.rank 0
  | _, _ => s

/-- Sequence numbers of the saggar's guilds. -/
def guildSeqs (s : State) (k : Nat) : List (Nat × Word) :=
  s.link.guilds.filterMap fun e => if e.2.saggar = k then some (e.1, e.2.seq) else none

/-- Entries newly ONCE are captured at point `p`: their places in that snapshot (R573, R578). -/
def markOnce (p : Word) (at_ : Nat) : List SecEnt → List SecEnt
  | [] => []
  | e :: l => if e.method = some 2 && !e.sent then { e with sent := true, once := p, onceAt := at_ } :: markOnce p (at_ + e.bytes) l
    else e :: markOnce p at_ l

/-- Capture the step that sets the counter to `n` (R571, R574). -/
def capture (s : State) (k : Nat) (n : Word) (arming : Bool) : State :=
  match secGuildOf s k with
  | none => s
  | some (gid, g) =>
    let c := (s.saggar k).cfg
    let dirty := dirtyPieces s k
    let s := cleanPieces s k
    let s := modSec s k fun x => { x with steps := x.steps + 1, table := x.table.map fun e => { e with
      dirtySum := e.dirtySum + (dirty.filter fun p => holdsPiece (e.va, e.bytes) p).length } }
    let point := decide (n.toNat % c.lossL = 0)
    let before := (s.saggar k).sec.table
    let s := if point then modSec (chooseAll s k n) k fun x => { x with armed := some n, sentPieces := 0 } else s
    let x := (s.saggar k).sec
    -- entries that have just become mirrored, and the module's own items at the first capture, go whole
    let fresh := ((List.range x.table.length).zip x.table).filterMap fun (i, e) =>
      if isMirror e && !((before[i]?.map isMirror).getD false) then some (e.va, e.bytes) else none
    -- so does everything mirrored when a member holds nothing for others until this point (R585)
    let mirrored := ownRanges s k ++ (x.table.filter isMirror).map fun e => (e.va, e.bytes)
    let whole := if point && x.empty != [] then mirrored else fresh ++ (if arming then ownRanges s k else [])
    let ps := ((dirty.filter fun p => mirrored.any fun r => holdsPiece r p) ++ whole.flatMap fun r => piecesOf r.1 r.2).eraseDups
    let s := sendMirror s k gid g n ps
    let s := if point then
        let once := ((s.saggar k).sec.table).filter fun e => e.method == some 2 && !e.sent
        let s := modSec s k fun x => { x with table := markOnce n 0 x.table }
        let t := (s.saggar k).sec.table
        let s := modSec s k fun x => { x with
          byMirror := (t.filter isMirror).length, byParity := (t.filter isParity).length
          saved := { point := n, table := t, seqs := guildSeqs s k } :: x.saved }
        let s := offerFrags s k g n false ((t.filter isParity).flatMap fun e => (piecesOf e.va e.bytes).flatMap fun p => pieceAt s k p)
        let s := offerFrags s k g n true (once.flatMap fun e => (piecesOf e.va e.bytes).flatMap fun p => pieceAt s k p)
        askSpace s k gid g n
      else s
    checkLocal s k

/-- An acknowledgement of a securing packet (R574): the transfer is over. -/
def secAcked (s : State) (tag : Nat) (denied : Bool) : State :=
  match s.front.saggars.find? fun e => e.2.sec.sending.any fun t => t.1 == tag with
  | none => s
  | some (k, g) =>
    let s := modSec s k fun x => { x with sending := x.sending.filter fun t => t.1 != tag }
    if denied then
      match secGuildOf s k, g.sec.sending.find? (fun t => t.1 == tag) with
      | some (gid, gd), some t => memberLost s k gid t.2.1 (moduleOf gd t.2.1)
      | _, _ => s
    else checkLocal s k

end Sys2Proof.Machine
end

