-- ==== Sys2Proof/Machine/StreamRead.lean ====
section
/-!
DEFINITION. How the stream scheduler front end begins a command: the ring, the context cache, the header and its checks
(11 R405 to R418).
-/
namespace Sys2Proof.Machine

/-! ### Fields of a command packet (R414) -/

/-- `n` bits of a command from bit `lo` of the field that starts at byte `b`. -/
def cf (c : List Byte) (b lo n : Nat) : Nat := bits (leNat c) (8 * b + lo) n

def cmdOp (c : List Byte) : Nat := cf c 0 24 8
def cmdSize (c : List Byte) : Nat := cf c 0 20 4
def cmdBarrier (c : List Byte) : Bool := cf c 0 19 1 == 1
def cmdCollect (c : List Byte) : Option Nat := if cf c 0 18 1 = 1 then some (cf c 0 12 6) else none
def cmdLayer (c : List Byte) : Nat := cf c 4 12 20
def cmdOper (c : List Byte) : Nat := cf c 4 0 12
def cmdTag (c : List Byte) : Word := BitVec.ofNat 32 (cf c 8 0 32)

/-- Range count of a LAYER_BEGIN (R417). -/
def rangeCount (c : List Byte) : Nat := cf c 16 23 5

/-- Length of a command in units (R416, R417, 13 R487). -/
def ownSize (c : List Byte) : Nat :=
  if cmdOp c = 2 then max 1 ((32 + 16 * rangeCount c + 63) / 64)
  else if cmdOp c = 11 then (if cf c 16 20 1 = 1 then 2 else 1)
  else 1

/-- Fields of the body of each opcode that are not reserved: first bit and width (R417, 13 R487). -/
def bodyFields (c : List Byte) : List (Nat × Nat) :=
  match cmdOp c with
  | 1 => [(128, 192), (320, 32), (360, 24)]
  | 2 => (151, 9) :: (List.range (rangeCount c)).flatMap fun i =>
      [(256 + 128 * i, 57), (256 + 128 * i + 63, 1), (320 + 128 * i, 64)]
  | 3 => [(128, 64)]
  | 4 => [(128, 1)]
  | 5 => [(128, 64), (192, 32), (224, 2)]
  | 6 => [(128, 64), (192, 32), (224, 5)]
  | 7 => [(128, 16), (144, 3), (192, 64), (256, 64)]
  | 8 => [(144, 3)]
  | 9 => [(140, 20)]
  | 10 => [(128, 256)]
  | 11 => [(128, 16), (148, 12), (160, 32), (192, 64), (256, 64), (320, 64), (384, 16)] ++
      (if cmdSize c = 2 then [(512, 64), (576, 64), (640, 32)] else [])
  | _ => []

/-- The bits that may be nonzero. -/
def allowedMask (c : List Byte) : Nat :=
  ([(12, 20), (32, 32), (64, 32)] ++ bodyFields c).foldl (fun (m : Nat) (f : Nat × Nat) => m ||| ((2 ^ f.2 - 1) * 2 ^ f.1)) 0

/-- No reserved field is nonzero. -/
def cmdClean (c : List Byte) : Bool := (leNat c ||| allowedMask c) == allowedMask c

/-! ### The context cache (R412) -/

/-- The context is held: a command begun and not complete, or a task in the market, a deque or a crew. -/
def ctxHeld (s : State) (n : Nat) : Bool :=
  (s.stream n).begun.any (fun b => !b.done) || s.front.launches.any fun e => e.2.stream == n

/-- A place for the context of stream `n` is free or can be freed. -/
def canCache (s : State) (n : Nat) : Bool :=
  s.front.cached.contains n || decide (s.front.cached.length < 32768) || s.front.cached.any fun m => !ctxHeld s m

/-- Put a context into the cache, the least recently used one that is not held making room. -/
def cacheCtx (s : State) (n : Nat) : State :=
  let l := s.front.cached.filter (· != n)
  let l := if l.length < 32768 then l else
    match l.reverse.find? fun m => !ctxHeld s m with
    | some v => l.filter (· != v)
    | none => l
  { s with front := { s.front with cached := n :: l } }

/-- A doorbell or command is served from the cache, or fetches the context (R425). -/
def useContext (s : State) (n : Nat) : State :=
  let k := (s.stream n).saggar
  let s := if s.front.cached.contains n then
      gtally { s with front := { s.front with hits := s.front.hits + 1 } } 0x003 (some k)
    else gtally { s with front := { s.front with misses := s.front.misses + 1 } } 0x004 (some k)
  cacheCtx s n

/-! ### Beginning (R405, R406, R408, R415) -/

/-- Tail up to which the stream begins commands (R405). -/
def runTail (x : Stream) : Word := if x.st = 3 ∨ x.st = 4 then x.drainTail else x.tail

/-- Units written and not yet begun. -/
def availUnits (x : Stream) : Nat := (runTail x - x.beginPos).toNat

/-- The stream may begin its next command. -/
def mayBegin (s : State) (n : Nat) : Bool :=
  let x := s.stream n
  let g := s.saggar x.saggar
  (x.st == 1 || ((x.st == 3 || x.st == 4) && !x.abort)) && g.st == .on &&
  g.sec.dunob.isNone &&
  availUnits x != 0 && decide (availUnits x ≤ 2 ^ x.order) &&
  !(x.begun.any fun b => !b.done && (b.opcode == 6 || b.opcode == 3 || b.opcode == 4)) &&
  canCache s n

/-- Address of a ring unit (R408). -/
def unitAddr (x : Stream) (pos : Word) : DWord := x.ringBase + BitVec.ofNat 64 (64 * (pos.toNat % 2 ^ x.order))

/-- What reading the command's units gives. -/
inductive RingRead where
  | got (l : List Byte)
  /-- The unit at this position must be read from the host first. -/
  | ask (pos : Word)
  | bad (code : Nat)
  /-- The unit's line is in transfer (08 R323, R325). -/
  | hold

/-- Read `m` units from `pos` on. A device ring is read at home slices (R411); a host ring through host reads (19 R624). -/
def readUnits (s : State) (n : Nat) (x : Stream) (pos : Word) : Nat → RingRead × State
  | 0 => (.got [], s)
  | m + 1 =>
    if x.ringDev then
      match engReadN s { saggar := x.saggar, stream := n, source := 518 } (unitAddr x pos) 64 4 with
      | (.error .poison, s) => (.bad fOperand, s)
      | (.error .busy, s) => (.hold, s)
      | (.error _, s) => (.bad fLaunch, s)
      | (.ok l, s) =>
        match readUnits s n x (pos + 1) m with
        | (.got r, s) => (.got (l ++ r), s)
        | e => e
    else if (List.range 64).any fun i => !Tab.has x.fetched (pos.toNat * 64 + i) then (.ask pos, s)
    else
      match readUnits s n x (pos + 1) m with
      | (.got r, s) => (.got ((List.range 64).map (fun i => Tab.get 0 x.fetched (pos.toNat * 64 + i)) ++ r), s)
      | e => e

/-- Ask the host for the ring unit at `pos`, once (19 R624, R625). -/
def askRing (s : State) (n : Nat) (pos : Word) : State :=
  let x := s.stream n
  if x.fetching.contains pos.toNat then s else
  let (id, s) := s.fresh
  let s := s.setStream n { x with fetching := pos.toNat :: x.fetching }
  let a := unitAddr x pos
  let now := fnOpen s x.fn
  let s := { s with host := { s.host with reads := s.host.reads ++
    [{ id, fn := x.fn, addr := a, len := 64, why := .ring n pos.toNat, sent := now }] } }
  if now then s.emit (.hostRead id x.fn a 64) else s

/-- Everything begun is complete. -/
def allDone (x : Stream) : Bool := x.begun.all Begun.done

/-- Checks of the header, in order: the fault that a command raises before it begins (R415, 05 R191, R197, R199). -/
def headerFault (s : State) (x : Stream) (c : List Byte) : Option Nat :=
  let o := cmdOp c
  if !cmdClean c then some fLaunch
  else if (match cmdCollect c with
      | some i => !(s.coll i).bound || (s.coll i).saggar != x.saggar
      | none => false) then some fLaunch
  else match x.block with
  | some b =>
    if b.replayable && (o == 2 || o == 4 || o == 11 || (x.dunob && o != 3)) then some fReplayScope
    else if cmdLayer c != b.layer then some fLaunch
    else if o = 2 then some fLaunch
    else none
  | none =>
    if o = 3 then some fLaunch
    else if o = 2 && !layerOk s x.saggar (cmdLayer c) then some fScaleRange
    else none

/-- The command begins: it joins the begun list, and the begin position passes it (R408, R412). -/
def openCmd (s : State) (n : Nat) (c : List Byte) : State :=
  let s := useContext s n
  let x := s.stream n
  let o := cmdOp c
  let sz := cmdSize c
  s.setStream n { x with
    begun := x.begun ++ [{ pos := x.beginPos, size := sz, opcode := o, collect := cmdCollect c, tag := cmdTag c
                           layer := cmdLayer c, op := cmdOper c }]
    beginPos := x.beginPos + BitVec.ofNat 32 sz
    lastBar := if o = 6 ∨ o = 3 ∨ o = 4 then o else x.lastBar
    ordered := x.ordered || cmdBarrier c || [2, 3, 4, 5, 11].contains o
    fetched := (List.range sz).foldl (fun t i => Tab.keep t fun key _ => key / 64 != (x.beginPos + BitVec.ofNat 32 i).toNat) x.fetched }

/-- Begin the command at the ring's begin position, if it is one of opcode `op` and its waits are over: `wait` and `bad` are
the opcode's own waits and checks of its body, `go` its effect once it has begun (given its ring position). Opcodes above
0x0B are unassigned (R416). -/
def runCmd (op : Nat) (n : Nat) (wait : State → Stream → List Byte → Bool) (bad : State → Stream → List Byte → Option Nat)
    (go : State → Nat → Word → List Byte → State) (s : State) : Out :=
  act (decide (n < 2 ^ 20)) (whenD (s.serving && !s.frozen && mayBegin s n) fun s =>
    let x := s.stream n
    match readUnits s n x x.beginPos 1 with
    | (.ask pos, _) => askRing s n pos
    | (.bad code, s) => frontFault s n code 0xFFFFF 0xFFF
    | (.hold, _) => s
    | (.got h, s1) =>
      let fail := fun (s : State) code => frontFault s n code (cmdLayer h) (cmdOper h)
      if 11 < cmdOp h || (cmdOp h == op && cmdSize h != ownSize h) then fail s1 fLaunch
      else if cmdOp h != op || decide (availUnits x < cmdSize h) then s
      else
        match readUnits s n x x.beginPos (cmdSize h) with
        | (.ask pos, _) => askRing s n pos
        | (.bad code, s) => fail s code
        | (.hold, _) => s
        | (.got c, s1) =>
          match headerFault s1 x c with
          | some code => fail s1 code
          | none =>
            if (cmdBarrier c || op == 2 || op == 4 || op == 5 || op == 11) && !allDone x then s
            else if wait s x c then s
            else match bad s1 x c with
            | some code => fail s1 code
            | none => go (openCmd s1 n c) n x.beginPos c) s

end Sys2Proof.Machine
end

