-- ==== Sys2Proof/Machine/StreamCmds.lean ====
section
/-!
DEFINITION. The stream commands NOP to TIER_MOVE (11 R416 to R418; 05 R197 to R209; 07 R273 to R285; 17 R567 to R588).
-/
namespace Sys2Proof.Machine

/-- No further wait; no check of the body. -/
def noWait (_ : State) (_ : Stream) (_ : List Byte) : Bool := false
def noBad (_ : State) (_ : Stream) (_ : List Byte) : Option Nat := none

def modBlock (s : State) (n : Nat) (f : Block → Block) : State :=
  s.modStream n fun x => { x with block := x.block.map f }

/-- Address field of a command. -/
def cAddr (c : List Byte) (b : Nat) : DWord := BitVec.ofNat 64 (cf c b 0 64)

/-- A word the command is to signal may be written: aligned, translated, WRITE. -/
def wordOk (s : State) (k : Nat) (va : DWord) : Bool :=
  va.toNat % 4 == 0 && (match translate s k va with
    | some (_, m) => m.write
    | none => false)

def execNopCommand (stream : Nat) (s : State) : Out :=
  runCmd 0 stream noWait noBad (fun s n pos _ => completeCmd s n pos) s

/-- A signal word named by a command, 0 for none, is not in transfer. -/
def wordSettled (s : State) (k : Nat) (va : DWord) : Bool := va == 0 || settled s k va 4

/-- The word of a SIGNAL or WAIT is in transfer. -/
def wordWait (s : State) (x : Stream) (c : List Byte) : Bool := !settled s x.saggar (cAddr c 16) 4

/-! ### LAUNCH (03 R78, 07 R281, 09 R349, 11 R400, R413, R418) -/

/-- Launch fields (R417). -/
def launchRes (c : List Byte) : Res :=
  { g := 8 * (cf c 40 27 5 + 1), t := cf c 40 22 5, a := 4 * cf c 40 15 7, l := 64 * cf c 40 12 3, s := cf c 40 3 9 }

/-- The mode mask lets the launch run (07 R281). -/
def launchRuns (s : State) (x : Stream) (c : List Byte) : Bool :=
  (cf c 40 0 3).testBit (if x.block.isSome then layerMode s (cmdLayer c) else 0)

/-- Its program at the level of the attempt. -/
def launchProg (x : Stream) (c : List Byte) : DWord := cAddr c (16 + 8 * (if x.block.isSome then x.level else 0))

def launchBad (s : State) (x : Stream) (c : List Byte) : Option Nat :=
  let r := launchRes c
  if 16 < r.t || 256 < r.a || r.l < r.s || cf c 40 0 3 = 0 then some fLaunch
  else if [16, 24, 32].any fun b => (cAddr c b).toNat % 8 != 0 then some fLaunch
  else if !launchRuns s x c then none
  else if launchProg x c = 0 then
    (match x.block with
     | some b => if b.base < x.level then some fReplayVariant else some fLaunch
     | none => some fLaunch)
  else if (s.saggar x.saggar).cfg.saveSize < contextBytes r then some fLaunch
  else none

def launchWait (s : State) (x : Stream) (c : List Byte) : Bool :=
  launchRuns s x c &&
  (decide (64 ≤ (x.begun.filter fun b => b.opcode == 1 && !b.done).length) ||
   (!x.pinned && decide (65536 ≤ marketLaunches s)) ||
   ((x.block.bind Block.restore).isSome))

/-- LAUNCH: the launch enters the market, and where it waited for earlier commands the saggar's L1 lines go (09 R349); outside its mode, and after the block's overflow, it completes at once. -/
def execLaunch (stream : Nat) (s : State) : Out :=
  runCmd 1 stream launchWait launchBad (fun s n pos c =>
    let x := s.stream n
    if !launchRuns s x c || (x.block.isSome && x.overflow) then completeCmd s n pos
    else
      let s := if x.ordered then acquireRights (s.modStream n fun x => { x with ordered := false }) x.saggar else s
      let total := cf c 44 8 24 + 1
      enterMarket s {
        stream := n, saggar := x.saggar, cls := x.cls, layer := cmdLayer c, op := cmdOper c
        level := if x.block.isSome then x.level else 0, prog := launchProg x c, res := launchRes c
        total := total, left := total, ready := s.gts, window := s.watch, pinned := x.pinned, pos := pos, inBlock := x.block.isSome }) s

/-! ### LAYER_BEGIN (05 R197, R198; 07 R283, R284) -/

def rangesOf (c : List Byte) : List HeldRange :=
  (List.range (rangeCount c)).map fun i =>
    { save := cf c (32 + 16 * i) 63 1 == 1, base := cf c (32 + 16 * i) 0 57, len := cf c (40 + 16 * i) 0 64 }

/-- 64 KiB units of ranges. -/
def unitsOf (l : List HeldRange) : Nat := (l.map fun (r : HeldRange) => (r.len + 65535) / 65536).sum

def savesOf (l : List HeldRange) : List HeldRange := l.filter HeldRange.save

/-- Units left in the offload area (R283). -/
def offLeft (s : State) (k : Nat) : Nat := (s.saggar k).cfg.offSize / 65536 - (s.saggar k).offUsed

/-- The forward layer-begin does not fit the offload area. -/
def offFull (s : State) (x : Stream) (c : List Byte) : Bool :=
  layerMode s (cmdLayer c) == 1 && cf c 16 28 1 == 0 && decide (offLeft s x.saggar < unitsOf (savesOf (rangesOf c)))

def offFullRecord (s : State) (k layer need : Nat) : State :=
  record s 0x62 548 k (payload [(layer, 108), (need, 48), (offLeft s k, 0)]) [k] false layer

def layerBeginBad (_ : State) (_ : Stream) (c : List Byte) : Option Nat :=
  if cf c 16 30 2 = 3 || 16 < rangeCount c || (rangesOf c).any (fun r => r.len == 0 || decide (2 ^ 40 < r.len)) then some fLaunch
  else none

/-- The 64 KiB units of a move (08 R305). -/
def tierUnits (l : List (DWord × DWord × Nat)) : List (DWord × DWord × Nat) :=
  l.flatMap fun r => (List.range ((r.2.2 + 65535) / 65536)).map fun i =>
    (r.1 + BitVec.ofNat 64 (65536 * i), r.2.1 + BitVec.ofNat 64 (65536 * i), min 65536 (r.2.2 - 65536 * i))

/-- Channels with no unit queued; all four when none is free: the units then queue behind others. -/
def freeChans (s : State) : List Nat :=
  match (List.range 4).filter fun c => !(s.front.tier.any fun e => e.2.chans.contains c) with
  | [] => [0, 1, 2, 3]
  | l => l

/-- Start a move: its units are dealt in turn to the free channels, and each of these asks the reeve for leave (R285, 08 R305, 14
R493). -/
def startTier (s : State) (j : TierJob) : Nat × State :=
  let (id, s) := s.fresh
  let chans := (freeChans s).take (max 1 (tierUnits j.ranges).length)
  let s := { s with front := { s.front with tier := Tab.ins s.front.tier id { j with chans } } }
  (id, chans.foldl (fun s c => askLeave s 2 (548 + c) 0 (streamCls s j.stream) j.saggar) s)

/-- The ranges of a layer that its offload put in the granary (R282), as copies home. -/
def homeCopies (s : State) (k layer : Nat) : List (DWord × DWord × Nat) :=
  let g := s.saggar k
  (g.offs.filter fun o => o.layer == layer).map fun o =>
    (g.cfg.offBase + BitVec.ofNat 64 o.at_, BitVec.ofNat 64 o.base, o.len)

/-- A restore of its own for the stream's block. -/
def ownRestore (s : State) (n : Nat) (pos : Word) (layer : Nat) : State :=
  let k := (s.stream n).saggar
  if homeCopies s k layer = [] then s else
  let (id, s) := startTier s { kind := 1, saggar := k, stream := n, pos, layer, ranges := homeCopies s k layer }
  modBlock s n fun b => { b with restore := some id }

/-- The restore a backward layer-begin waits for: one that PREFETCH started, or its own (R284). -/
def startRestore (s : State) (n : Nat) (pos : Word) (layer : Nat) : State :=
  let k := (s.stream n).saggar
  let g := s.saggar k
  match g.early.find? fun e => e.1 == layer with
  | some (_, home) =>
    let s := s.modSaggar k fun g => { g with early := g.early.filter fun e => e.1 != layer }
    if home then s else
    modBlock s n fun b => { b with
      restore := (s.front.tier.find? fun e => e.2.kind == 2 && e.2.saggar == k && e.2.layer == layer).map Prod.fst }
  | none => ownRestore s n pos layer

/-- LAYER_BEGIN: the block opens with its held ranges. A forward one that does not fit the offload area is recorded and
refused. -/
def execLayerBegin (stream : Nat) (s : State) : Out :=
  runCmd 2 stream noWait layerBeginBad (fun s n pos c =>
    let x := s.stream n
    if offFull s x c then
      frontFault (offFullRecord s x.saggar (cmdLayer c) (unitsOf (savesOf (rangesOf c)))) n fLaunch (cmdLayer c) (cmdOper c)
    else
      let base := cf c 16 30 2
      let gradient := cf c 16 28 1 == 1
      let s := s.setStream n { x with
        layerOpen := true, overflow := false, openLayer := cmdLayer c, level := base, replayPos := x.beginPos
        block := some { layer := cmdLayer c, replayable := cf c 16 29 1 == 1, gradient := gradient, ranges := rangesOf c
                        start := s.time.gts, base := base } }
      completeCmd (if gradient then startRestore s n pos (cmdLayer c) else s) n pos) s

/-! ### LAYER_COMMIT (05 R201 to R203, R208; 07 R282) -/

/-- Launches or copies of the block are still running. -/
def blockBusy (s : State) (n : Nat) : Bool :=
  s.front.launches.any (fun e => e.2.stream == n && e.2.inBlock) ||
  s.wheels.any fun w => w.2.eng.copies.any fun e => e.stream == n

/-- The block hands SAVE ranges over (R282). -/
def handsOver (s : State) (b : Block) : Bool := layerMode s b.layer == 1 && !b.gradient && savesOf b.ranges != []

def commitBad (s : State) (x : Stream) (c : List Byte) : Option Nat :=
  match x.block with
  | none => some fLaunch
  | some b =>
    if handsOver s b && !x.overflow && cAddr c 16 == 0 then some fLaunch
    else if x.overflow && decide (replayLimit s x.saggar ≤ (layerGet s x.saggar b.layer).replays) then some fLayerOverflow
    else none

/-- Hand the SAVE ranges of a committed block to the tier mover, upward from the allocation (R283); a layer committed again adds its
ranges, and an early restore from before them no longer counts (R284). -/
def handOver (s : State) (n : Nat) (pos : Word) (b : Block) (word : DWord) : State :=
  let k := (s.stream n).saggar
  let l := savesOf b.ranges
  let g := s.saggar k
  let offs := (l.foldl (fun (a : Nat × List OffRange) r =>
    (a.1 + (r.len + 65535) / 65536, a.2 ++ [{ layer := b.layer, base := r.base, len := r.len, at_ := 65536 * a.1 }]))
    (g.offUsed, [])).2
  let s := s.modSaggar k fun g => { g with
    offUsed := g.offUsed + unitsOf l, offs := g.offs ++ offs, early := g.early.filter fun e => e.1 != b.layer }
  (startTier s { kind := 0, saggar := k, stream := n, pos, layer := b.layer, sig := word
                 ranges := offs.map fun o => (BitVec.ofNat 64 o.base, g.cfg.offBase + BitVec.ofNat 64 o.at_, o.len) }).2

/-- A replay starts: the REPLAY record, the next level, and the ring again from the command after the layer-begin (R201,
R208, 11 R408). -/
def startReplay (s : State) (n : Nat) (b : Block) : State :=
  let x := s.stream n
  let k := x.saggar
  let sat := x.level == 2
  let dests := min (x.level + 1) 2
  let e := layerGet s k b.layer
  let o := b.ovf.getD { layer := b.layer, op := 0, gts := b.start, source := 518 }
  let s := record s 0x40 518 k (payload [(b.layer, 108), (o.op, 96), ((s.saggar k).step.toNat, 64),
    (min (o.gts.toNat - b.start.toNat) (2 ^ 32 - 1), 32), (o.source, 22), (x.level, 20), (dests, 18), (if sat then 1 else 0, 17),
    (if o.nan then 1 else 0, 16), (e.replays + 1, 14)]) [k] false b.layer o.op
  let s := layerMod s k b.layer fun e => { e with replays := min (e.replays + 1) 3 }
  let s := if sat then layerSat s k b.layer else s
  let s := { s with front := { s.front with tier := (Tab.mapv s.front.tier fun _ (j : TierJob) =>
    if j.stream = n ∧ 2 ≤ j.kind then { j with orphan := true } else j) } }
  s.setStream n { s.stream n with
    overflow := false, level := dests, beginPos := x.replayPos, lastBar := 0, ordered := true
    begun := x.begun.filter fun q => q.opcode == 2
    block := some { b with
      start := s.time.gts, replays := b.replays + 1, saturating := sat, ovf := none, flushed := 0, examined := 0 } }

/-- LAYER_COMMIT: with the flag clear the block commits; with it set it is replayed. -/
def execLayerCommit (stream : Nat) (s : State) : Out :=
  runCmd 3 stream (fun s _ _ => blockBusy s stream) commitBad (fun s n pos c =>
    let x := s.stream n
    match x.block with
    | none => s
    | some b =>
      if x.overflow then startReplay s n b
      else if handsOver s b && decide (offLeft s x.saggar < unitsOf (savesOf b.ranges)) then
        frontFault (offFullRecord s x.saggar b.layer (unitsOf (savesOf b.ranges))) n fLaunch (cmdLayer c) (cmdOper c)
      else
        let s := commitLayer s x.saggar b x.level
        let s := if handsOver s b then handOver s n pos b (cAddr c 16) else s
        completeCmd (s.modStream n fun x => { x with block := none, layerOpen := false, overflow := false, level := 0 }) n pos) s

/-! ### STEP (05 R205 to R209; 07 R259, R283; 11 R416; 17 R567 to R574, R587, R588) -/

/-- The counter advances and the STEP completes (11 R416, 17 R570). -/
def finishStep (s : State) (n : Nat) (pos : Word) (arming : Bool) : State :=
  let k := (s.stream n).saggar
  let busy := s.front.tier.any fun e => e.2.kind == 0 && e.2.saggar == k
  let s := s.modSaggar k fun g => { g with
    step := g.step + 1, ovfSeen := [], offs := [], early := []
    offUsed := if busy then g.offUsed else 0, offReset := busy }
  let s := newTable s k
  let s := rewarmStep s k
  let s := if (s.saggar k).cfg.secMode = 1 then capture s k (s.saggar k).step arming else s
  completeCmd s n pos

/-- The securing table is latched (R568). -/
def latchSec (s : State) (k : Nat) : State :=
  if (s.saggar k).cfg.secMode = 0 then s else
  modSec s k fun x => { x with table := latchTable x.table ((readSecTable s k).getD []) }

/-- The layers are processed; the STEP then completes, or waits for the armed point (R205, R574). -/
def processStep (s : State) (n : Nat) (pos : Word) : State :=
  let k := (s.stream n).saggar
  let s := stepLayers s k
  let g := s.saggar k
  let arming := g.cfg.secMode == 1 && g.sec.state == 0
  let s := if arming then
      modSec s k fun x => { x with
        state := 1
        tolerance := (match secGuildOf s k with
          | some (_, gd) => tolerance s gd g.cfg.parK g.cfg.parM x.empty
          | none => 0) }
    else s
  if (s.saggar k).sec.armed == some g.step && g.cfg.secMode == 1 then
    modSec s k fun x => { x with stallCmd := some (n, pos), stall := some s.watch }
  else finishStep s n pos arming

def stepBad (s : State) (x : Stream) (c : List Byte) : Option Nat :=
  let k := x.saggar
  let g := s.saggar k
  if !x.stepOwner || (cf c 16 0 1 == 1 && g.cfg.secMode != 2) then some fLaunch
  else if g.cfg.secMode = 1 && (match secGuildOf s k with
      | none => true
      | some (_, gd) => gd.n != g.cfg.parK + g.cfg.parM || tolerance s gd g.cfg.parK g.cfg.parM g.sec.empty == 0 || g.sec.noSpace)
    then some fLaunch
  else if g.cfg.secMode != 0 && (readSecTable s k).isNone then some fLaunch
  else none

/-- STEP. A snapshotting STEP waits for the other streams of the saggar and for the snapshot (R588); while a member is lost no
STEP begins (17 R582). -/
def execStep (stream : Nat) (s : State) : Out :=
  runCmd 4 stream (fun s x _ => decide (3 ≤ (s.saggar x.saggar).sec.state)) stepBad (fun s n pos c =>
    let k := (s.stream n).saggar
    let s := latchSec s k
    if cf c 16 0 1 = 1 then
      modSec s k fun x => { x with
        dunob := some { stream := n, pos := pos, n := (s.saggar k).step + 1, since := s.time.gts } }
    else processStep s n pos) s

/-! ### SIGNAL and WAIT (10 R365, R392, R674; 11 R418) -/

def signalBad (s : State) (x : Stream) (c : List Byte) : Option Nat :=
  let va := cAddr c 16
  if cf c 28 0 2 = 3 || !wordOk s x.saggar va then some fLaunch
  else if heldRange s x.saggar va.toNat 4 then some fHeldWrite
  else if (translate s x.saggar va).any fun e => poisoned s e.1 then some fOperand
  else none

/-- SIGNAL: applied as a release of every earlier command. -/
def execSignal (stream : Nat) (s : State) : Out :=
  runCmd 5 stream wordWait signalBad (fun s n pos c =>
    let k := (s.stream n).saggar
    let va := cAddr c 16
    completeCmd (engSignal s { saggar := k, stream := n, source := 518 } va (cf c 28 0 2) (BitVec.ofNat 32 (cf c 24 0 32))).2 n pos) s

def waitBad (s : State) (x : Stream) (c : List Byte) : Option Nat :=
  let va := cAddr c 16
  if va.toNat % 4 != 0 then some fLaunch else
  match translate s x.saggar va with
  | none => some fLaunch
  | some (pa, _) => if poisoned s pa then some fOperand else none

/-- WAIT: the word is read and the wait registered at its home slice, or polled when that slice holds 512 (10 R366, R367). -/
def execWait (stream : Nat) (s : State) : Out :=
  runCmd 6 stream wordWait waitBad (fun s n pos c =>
    let k := (s.stream n).saggar
    let va := cAddr c 16
    match translate s k va with
    | none => s
    | some (pa, _) =>
      let (id, s) := s.fresh
      let w : Wait := { who := .command n pos.toNat, saggar := k, va, pa, target := BitVec.ofNat 32 (cf c 24 0 32)
                        reach := reachOf (cf c 28 0 5) }
      judgeWait (touchLine s pa false 0) id w (memWord s pa) (placeOf s pa)) s

/-! ### GATHER and GATHER_RELEASE (07 R258 to R260, R273 to R278) -/

/-- Bits per element of an MX format code (04 R130). -/
def formatBits : Nat → Nat
  | 0 => 4 | 1 => 8 | 2 => 8 | 3 => 8 | 4 => 16 | 5 => 16 | 6 => 32 | _ => 0

/-- Whole bytes of a weight: its entry's ELEMENTS in its FORMAT. -/
def weightBytes (e : List Byte) : Nat :=
  (leNat ((e.drop 24).take 4) * formatBits (bits (e.getD 34 0).toNat 4 4) + 7) / 8

/-- A weight's entry: the latched copy, or what latching it now gives. -/
def weightEntry (s : State) (k wid : Nat) : List Byte := Tab.get [] ((latchWeight s k wid).saggar k).weights wid

/-- A command may not name the weight (R260). -/
def weightBad (s : State) (k wid : Nat) : Bool :=
  let e := weightEntry s k wid
  decide ((s.saggar k).cfg.wgtCount ≤ wid) || decide (2 < bits (e.getD 34 0).toNat 0 4) || bits (e.getD 35 0).toNat 6 2 == 3

/-- A rank's module is one the saggar's securing guild has lost (17 R581). -/
def rankLost (s : State) (g : Guild) (q : Nat) : Bool :=
  match (s.saggar g.saggar).cfg.secGuild.bind (Tab.find s.link.guilds) with
  | none => false
  | some sg => (s.saggar g.saggar).sec.lost.any fun r => moduleOf sg r == moduleOf g q

/-- Rank `q` can be reached (13 R467, R473) and is not lost (17 R581). -/
def reachable (s : State) (g : Guild) (q : Nat) : Bool :=
  let m := g.members.getD q 0
  !rankLost s g q && if m.getLsbD 35 then (match ethPort s (moduleOf g q) with
    | some p => (s.port p).st == .on
    | none => false)
  else routePorts s (routeOf s (moduleOf g q)) != []

/-- The guild of a sharded weight; none when it is unsharded. -/
def shardGuild (s : State) (k : Nat) (e : List Byte) : Option (Nat × Guild) :=
  if leNat ((e.drop 28).take 4) = 0 then none else
  let gid := leNat ((e.drop 32).take 2)
  (Tab.find s.link.guilds gid).bind fun g => if g.saggar = k then some (gid, g) else none

/-- Every page of a range lies in the near tier. -/
def nearAll (s : State) (k va n : Nat) : Bool :=
  (List.range ((n + 65535) / 65536)).all fun i =>
    match translate s k (BitVec.ofNat 64 (va + 65536 * i)) with
    | none => false
    | some (pa, _) => nearTier pa

def gatherBad (s : State) (x : Stream) (c : List Byte) : Option Nat :=
  let k := x.saggar
  let wid := cf c 16 0 16
  let slot := cf c 18 0 3
  let dest := cAddr c 24
  let e := weightEntry s k wid
  if x.depth < slot || Tab.has x.gslots slot || weightBad s k wid || weightBytes e = 0 then some fLaunch
  else if leNat ((e.drop 28).take 4) != 0 && (leNat ((e.drop 28).take 4) % 65536 != 0 || (shardGuild s k e).isNone) then some fLaunch
  else if dest.toNat % 65536 != 0 || !rangeMapped s k true dest.toNat (weightBytes e) || !nearAll s k dest.toNat (weightBytes e) ||
      !wordOk s k (cAddr c 32) then some fLaunch
  else none

/-- A slot whose release is pending makes the GATHER wait (R275). -/
def gatherWait (_ : State) (x : Stream) (c : List Byte) : Bool :=
  ((Tab.find x.gslots (cf c 18 0 3)).bind GSlot.releasing).isSome

/-- The lowest rank a gather cannot reach. -/
def cutOff (s : State) (g : GSlot) : Option Nat :=
  if g.complete || g.shards ≤ 1 then none else
  match Tab.find s.link.guilds g.guild with
  | none => none
  | some gd => (List.range gd.n).find? fun q => q != gd.rank && !g.arrived.contains q && !reachable s gd q

/-- Whether a member whose shard is still to come cannot be reached: one GATHER_STALLED record when the wait begins; the wait ends when
all can be reached again (R277). -/
def stallGather (s : State) (n slot : Nat) : State :=
  let x := s.stream n
  match Tab.find x.gslots slot with
  | none => s
  | some g =>
      match cutOff s g with
      | none => s.setStream n { x with gslots := Tab.ins x.gslots slot { g with stalled := false } }
      | some q =>
        if g.stalled then s else
        let s := s.setStream n { x with gslots := Tab.ins x.gslots slot { g with stalled := true } }
        record s 0x61 520 x.saggar (payload [(g.weight, 112), (g.guild, 96), ((s.saggar x.saggar).step.toNat, 64), (q, 48), (slot, 0)])
          [x.saggar] false

/-- GATHER: the slot is taken and the collective engine starts. -/
def execGather (stream : Nat) (s : State) : Out :=
  runCmd 7 stream gatherWait gatherBad (fun s n pos c =>
    let k := (s.stream n).saggar
    let wid := cf c 16 0 16
    let slot := cf c 18 0 3
    let s := latchWeight s k wid
    let e := Tab.get [] (s.saggar k).weights wid
    let gd := shardGuild s k e
    let g : GSlot := {
      weight := wid, dest := cAddr c 24, word := cAddr c 32, bytes := weightBytes e
      shards := (match gd with | some (_, g) => g.n | none => 1), shardBytes := leNat ((e.drop 28).take 4)
      shardAddr := BitVec.ofNat 64 (leNat (e.take 8)), guild := (match gd with | some (id, _) => id | none => 0), pos := pos }
    stallGather (s.modStream n fun x => { x with gslots := Tab.ins x.gslots slot g }) n slot) s

def releaseBad (_ : State) (x : Stream) (c : List Byte) : Option Nat := if x.depth < cf c 18 0 3 then some fLaunch else none

/-- GATHER_RELEASE: the release is pending until R276 lets it take effect; a slot that holds no gather has nothing to
release. -/
def execGatherRelease (stream : Nat) (s : State) : Out :=
  runCmd 8 stream gatherWait releaseBad (fun s n pos c =>
    let slot := cf c 18 0 3
    let x := s.stream n
    match Tab.find x.gslots slot with
    | none => completeCmd s n pos
    | some g =>
      let (id, s) := s.fresh
      s.setStream n { x with gslots := Tab.ins x.gslots slot { g with releasing := some (pos, id) } }) s

/-! ### PREFETCH and TIER_MOVE (07 R284, R285; 11 R417, R418) -/

/-- A PREFETCH of this layer starts a restore. -/
def prefetchStarts (s : State) (k layer : Nat) : Bool :=
  homeCopies s k layer != [] && !((s.saggar k).early.any fun e => e.1 == layer) &&
  !(s.front.tier.any fun e => (e.2.kind == 1 || e.2.kind == 2) && e.2.saggar == k && e.2.layer == layer)

def execPrefetch (stream : Nat) (s : State) : Out :=
  runCmd 9 stream
    (fun s x c => prefetchStarts s x.saggar (cf c 16 12 20) &&
      decide (4 ≤ (s.front.tier.filter fun (e : Nat × TierJob) => e.2.kind == 2 && e.2.stream == stream).length))
    (fun s x c => if layerOk s x.saggar (cf c 16 12 20) then none else some fScaleRange)
    (fun s n pos c =>
      let k := (s.stream n).saggar
      let layer := cf c 16 12 20
      if !prefetchStarts s k layer then completeCmd s n pos
      else
        let s := s.modSaggar k fun g => { g with early := (layer, false) :: g.early }
        (startTier s { kind := 2, saggar := k, stream := n, pos, layer, ranges := homeCopies s k layer }).2) s

def moveBad (s : State) (x : Stream) (c : List Byte) : Option Nat :=
  let k := x.saggar
  let src := cAddr c 16
  let dst := cAddr c 24
  let len := cf c 32 0 64
  if src.toNat % 65536 != 0 || dst.toNat % 65536 != 0 || len % 65536 != 0 || 2 ^ 40 < len then some fLaunch
  else if !rangeMapped s k false src.toNat len || !rangeMapped s k true dst.toNat len || !wordOk s k (cAddr c 40) then some fLaunch
  else none

def execTierMove (stream : Nat) (s : State) : Out :=
  runCmd 10 stream noWait moveBad (fun s n pos c =>
    (startTier s { kind := 3, saggar := (s.stream n).saggar, stream := n, pos
                   ranges := [(cAddr c 16, cAddr c 24, cf c 32 0 64)], sig := cAddr c 40 }).2) s

/-! ### What ends them -/

/-- A channel's permit goes back when it has no unit queued (14 R493). -/
def endTier (s : State) (id : Nat) : State :=
  let s := { s with front := { s.front with tier := Tab.del s.front.tier id } }
  giveBack s fun p => p.kind == 2 && decide (548 ≤ p.unit) && decide (p.unit < 552) && !(s.front.tier.any fun e => e.2.chans.contains (p.unit - 548))

/-- Source number of the channel that moves unit `u` of a transfer. -/
def tierSource (j : TierJob) (u : Nat) : Nat := 548 + j.chans.getD (u % j.chans.length) 0

/-- Copy the units of a transfer from number `u` on; sectors, first to last, with the streaming hint (08 R305). -/
def copyUnits (s : State) (j : TierJob) (own : Bool) (u : Nat) : List (DWord × DWord × Nat) → Option AccErr × State
  | [] => (none, s)
  | (a, b, m) :: l =>
    match engCopy s { saggar := j.saggar, stream := j.stream, source := tierSource j u, own, cache := 1 } a b m (sectors m) with
    | (none, s) => copyUnits s j own (u + 1) l
    | e => e

/-- Copy every range of a transfer. A TIER_MOVE is made for a command, the others on the module's own account (08 R312). -/
def tierCopy (s : State) (j : TierJob) : Option AccErr × State := copyUnits s j (j.kind != 3) 0 (tierUnits j.ranges)

/-- The channel that reports a transfer's end: the one its last unit went to. -/
def lastSource (j : TierJob) : Nat := tierSource j ((tierUnits j.ranges).length - 1)

/-- A transfer may run: every channel with units of it has leave, and its signal's word is not in transfer. -/
def tierRuns (s : State) (j : TierJob) : Bool :=
  memRuns s && (j.chans.all fun c => leaveKnown s 2 (548 + c) 0 != 0) && wordSettled s j.saggar j.sig

/-- The tally of the mover's units. -/
def tierTally (s : State) (j : TierJob) : State := gtally s 0x00D (some j.saggar) (tierUnits j.ranges).length

/-- A restore has failed: the layer is not home, and the blocks of other streams that wait for it start their own (R284). -/
def restoreFailed (s : State) (id : Nat) (j : TierJob) : State :=
  let s := (endTier s id).modSaggar j.saggar fun g => { g with early := g.early.filter fun e => e.1 != j.layer }
  (s.front.streams.filter fun e => e.1 != j.stream && (e.2.block.bind Block.restore) == some id).foldl (fun s e =>
    ownRestore (modBlock s e.1 fun b => { b with restore := none }) e.1 e.2.beginPos j.layer) s

/-- OFFLOAD_COMPLETE: every range of the block is in the granary; the signal of R282 advances. -/
def execOffloadComplete (id : Nat) (s : State) : Out :=
  act true (fun s =>
    match Tab.find s.front.tier id with
    | none => s
    | some j =>
      if j.kind != 0 || !tierRuns s j then s else
      match tierCopy s j with
      | (some e, t) => if e = .busy then s else frontFault (endTier t id) j.stream (engCode e) j.layer 0xFFF
      | (none, s) =>
        let s := endTier (tierTally s j) id
        let s := s.modSaggar j.saggar fun g =>
          let offs := g.offs.map fun o =>
            if j.ranges.any fun r => r.2.1 == g.cfg.offBase + BitVec.ofNat 64 o.at_ then { o with done := true } else o
          if g.offReset && !(s.front.tier.any fun e => e.2.kind == 0 && e.2.saggar == j.saggar) then
            { g with offs, offUsed := if g.offs = [] then 0 else g.offUsed, offReset := false }
          else { g with offs }
        reportWork s { saggar := j.saggar, stream := j.stream, source := lastSource j } j.sig 0 1 j.layer 0xFFF) s

/-- RESTORE_COMPLETE: every byte is home and the saggar's clean lines are gone from every L1 of its rights (R284). -/
def execRestoreComplete (id : Nat) (s : State) : Out :=
  act true (fun s =>
    match Tab.find s.front.tier id with
    | none => s
    | some j =>
      if !(j.kind == 1 || j.kind == 2) || !tierRuns s j ||
        (s.saggar j.saggar).offs.any (fun o => o.layer == j.layer && !o.done) then s else
      match tierCopy s j with
      | (some e, t) => if e = .busy then s else frontFault (restoreFailed t id j) j.stream (engCode e) j.layer 0xFFF
      | (none, s) =>
        let s := acquireRights (endTier (tierTally s j) id) j.saggar
        let s := { s with front := { s.front with streams := Tab.mapv s.front.streams fun _ x =>
          { x with block := x.block.map fun (b : Block) => if b.restore = some id then { b with restore := none } else b } } }
        let s := s.modSaggar j.saggar fun g => { g with
          early := g.early.map fun (e : Nat × Bool) => if e.1 = j.layer ∧ j.kind = 2 then (e.1, true) else e }
        if j.kind = 2 && !j.orphan then completeCmd s j.stream j.pos (lastSource j) else s) s

/-- TIER_MOVE_COMPLETE: the range is moved, the signal advances, the command completes (11 R417). -/
def execTierMoveComplete (id : Nat) (s : State) : Out :=
  act true (fun s =>
    match Tab.find s.front.tier id with
    | none => s
    | some j =>
      if j.kind != 3 || !tierRuns s j then s else
      match tierCopy s j with
      | (some e, t) => if e = .busy then s else frontFault (endTier t id) j.stream (engCode e) 0xFFFFF 0xFFF
      | (none, s) =>
        let s := reportWork (endTier (tierTally s j) id) { saggar := j.saggar, stream := j.stream, source := lastSource j } j.sig 0 1 0xFFFFF 0xFFF
        if j.orphan then s else completeCmd s j.stream j.pos (lastSource j)) s

/-- Bytes of shard `r` of a slot. -/
def shardLen (g : GSlot) (r : Nat) : Nat :=
  if g.shardBytes = 0 then g.bytes else min g.shardBytes (g.bytes - r * g.shardBytes)

/-- The channel of the collective engine that serves unit `u` of a command: the units of 64 KiB are dealt to the sixteen channels in turn
(13 R483; log entry 108). -/
def collSource (u : Nat) : Nat := 520 + u % 16

/-- The units of 64 KiB of the shards `l`: shard, offset and bytes. -/
def shardUnits (g : GSlot) (l : List Nat) : List (Nat × Nat × Nat) :=
  l.flatMap fun r => (List.range ((shardLen g r + 65535) / 65536)).map fun i => (r, 65536 * i, min 65536 (shardLen g r - 65536 * i))

/-- Write units of a gather, with the keep priority (R273): the module's own shard from its memory, the others as they arrived. -/
def writeUnits (s : State) (k n rank : Nat) (g : GSlot) (shards : List (List Byte)) : List (Nat × Nat × Nat) → Option AccErr × State
  | [] => (none, s)
  | (r, o, m) :: l =>
    let who : Who := { saggar := k, stream := n, source := collSource ((r * g.shardBytes + o) / 65536), cache := 2 }
    let dests := g.dest + BitVec.ofNat 64 (r * g.shardBytes + o)
    match (if g.shards ≤ 1 || r = rank then engCopy s who (g.shardAddr + BitVec.ofNat 64 o) dests m (sectors m)
           else engWriteN s who dests (((shards.getD r []).drop o).take m) (sectors m)) with
    | (none, s) => writeUnits s k n rank g shards l
    | e => e

/-- Write shards of a gather. -/
def writeShards (s : State) (k n rank : Nat) (g : GSlot) (shards : List (List Byte)) (l : List Nat) : Option AccErr × State :=
  writeUnits s k n rank g shards (shardUnits g l)

/-- Shards that are here to be written: the module's own, and those that have arrived whole from ranks that can be reached. -/
def shardsHere (s : State) (g : GSlot) (rank : Nat) (shards : List (List Byte)) : List Nat :=
  (List.range g.shards).filter fun r => !g.arrived.contains r && (decide (g.shards ≤ 1) || r == rank ||
    ((shards.getD r []).length == shardLen g r && (match Tab.find s.link.guilds g.guild with
      | none => false
      | some d => reachable s d r)))

/-- GATHER_COMPLETE: bytes of a gather have arrived and are at their home slices; with the last of them the signal advances as a release
(R273, R274). `shards` holds what arrived from the other members, by rank. -/
def execGatherComplete (stream slot : Nat) (shards : List (List Byte)) (s : State) : Out :=
  act (decide (stream < 2 ^ 20) && decide (slot < 5)) (whenD (memRuns s) fun s =>
    let x := s.stream stream
    match Tab.find x.gslots slot with
    | none => s
    | some g =>
      if g.complete || (s.saggar x.saggar).st != .on || !wordSettled s x.saggar g.word then s else
      let rank := ((Tab.find s.link.guilds g.guild).map Guild.rank).getD 0
      let here := shardsHere s g rank shards
      match writeShards s x.saggar stream rank g shards here with
      | (some e, t) => if e = .busy then s else frontFault t stream (engCode e) 0xFFFFF 0xFFF
      | (none, s) =>
        let g := { g with arrived := here ++ g.arrived }
        let s := gtally s 0x00C (some x.saggar) (here.map fun r => (shardLen g r + 65535) / 65536).sum
        let s := s.modStream stream fun x => { x with gslots := Tab.ins x.gslots slot g }
        if (List.range g.shards).any fun r => !g.arrived.contains r then stallGather s stream slot
        else
          let s := s.modStream stream fun x => { x with gslots := Tab.ins x.gslots slot { g with complete := true, stalled := false } }
          let last := collSource ((g.bytes - 1) / 65536)
          completeCmd (reportWork s { saggar := x.saggar, stream, source := last } g.word 0 1 0xFFFFF 0xFFF) stream g.pos last) s

/-- The slot's lines lose their keep priority (R273). -/
def dropKeep (s : State) (k : Nat) (va n : Nat) : State :=
  let inBuf := fun (line : Nat) => (vasOf (s.saggar k).maps (128 * line)).any fun a => decide (va < a + 128) && decide (a < va + n)
  { s with ms := { s.ms with slices := Tab.mapv s.ms.slices fun _ sl => { sl with
      sets := Tab.mapv sl.sets fun _ l => l.map fun c => if c.keep && inBuf c.line then { c with keep := false } else c } } }

/-- GATHER_RELEASE_EFFECT: the release takes effect (R276); a faulted stream's slots are released once their gathers are
complete (11 R406). -/
def execGatherReleaseEffect (stream slot : Nat) (s : State) : Out :=
  act (decide (stream < 2 ^ 20) && decide (slot < 5)) (whenD (memRuns s) fun s =>
    let x := s.stream stream
    match Tab.find x.gslots slot with
    | none => s
    | some g =>
      let lim := match g.releasing with
        | some (_, id) => some id
        | none => if x.st = 2 || x.abort then some s.nextId else none
      match lim with
      | none => s
      | some id =>
        let reads := s.wheels.any fun w => w.2.eng.copies.any fun e =>
          e.stream == stream && decide (e.id < id) && (match e.kind with
            | .grecv m .. => m == slot
            | _ => false)
        if !g.complete || reads || heldRange s x.saggar g.dest.toNat g.bytes then s else
        let s := dropKeep s x.saggar g.dest.toNat g.bytes
        let s := s.modStream stream fun x => { x with gslots := Tab.del x.gslots slot }
        match g.releasing with
        | some (pos, _) => completeCmd s stream pos
        | none => s) s

end Sys2Proof.Machine
end

