-- ==== Sys2Proof/Machine/Doorbells.lean ====
section
/-!
DEFINITION. Doorbells and the fetch of stream contexts (11 R407, R410 to R413, 16 R547).
-/
namespace Sys2Proof.Machine

/-- The stream that holds doorbell slot `slot` of a function. -/
def streamAt (s : State) (fn slot : Nat) : Option (Nat × Stream) :=
  s.front.streams.find? fun (e : Nat × Stream) => e.2.st != 0 && e.2.fn == fn && e.2.doorbell == slot

/-- Fetch the context of stream `n` for tail `t`, or queue the doorbell while every cache entry is held (R412). -/
def fetchFor (s : State) (n : Nat) (t : Word) : State :=
  if canCache s n then { s with front := { s.front with fetching := s.front.fetching ++ [(n, t)] } }
  else { s with front := { s.front with queued := s.front.queued ++ [(n, t)] } }

/-- DOORBELL_WRITE: 32 or 64 bits at offset 0 of a slot offer the low 32 bits as a tail (R410). A stream's doorbells are served in
order; one of a stream whose context is not cached queues behind those that wait for a cache entry (R412). -/
def execDoorbellWrite (fn slot : Nat) (value : DWord) (_wide : Bool) (s : State) : Out :=
  act (decide (fn < 256) && decide (slot < 262080)) (whenD (hostUp s && fnExists s fn) fun s =>
    match streamAt s fn slot with
    | none => s
    | some (n, x) =>
      if x.st != 1 && x.st != 2 then s
      else if s.front.cached.contains n && !(s.front.queued.any fun e => e.1 == n) && !(s.front.fetching.any fun e => e.1 == n) then
        offerTail (useContext s n) n (value.setWidth 32)
      else if s.front.queued == [] then fetchFor s n (value.setWidth 32)
      else { s with front := { s.front with queued := s.front.queued ++ [(n, value.setWidth 32)] } }) s

/-- DOORBELL_READ: HEAD, or zero where no stream holds the slot (R410). -/
def execDoorbellRead (fn slot : Nat) (s : State) : Out :=
  act (decide (fn < 256) && decide (slot < 262080)) (whenD (hostUp s && fnExists s fn) fun s =>
    s.emit (.readData (match streamAt s fn slot with
      | none => 0
      | some (_, x) => x.head.setWidth 64))) s

/-- Remove the first pair of a stream. -/
def dropFirst (n : Nat) : List (Nat × Word) → List (Nat × Word)
  | [] => []
  | e :: l => if e.1 = n then l else e :: dropFirst n l

/-- CONTEXT_FETCH_END: the context has come; its doorbell is served. An uncorrectable context faults its stream (16 R547). A
queued doorbell starts its fetch once an entry frees (R412). -/
def execContextFetchEnd (stream : Nat) (bad : Bool) (s : State) : Out :=
  act (decide (stream < 2 ^ 20)) (whenD s.serving fun s =>
    match s.front.fetching.find? fun e => e.1 == stream with
    | some (_, t) =>
      let s := { s with front := { s.front with fetching := dropFirst stream s.front.fetching } }
      if (s.stream stream).st = 0 then s
      else if bad then frontFault s stream fOperand 0xFFFFF 0xFFF
      else offerTail (useContext s stream) stream t
    | none =>
      match s.front.queued with
      | [] => s
      | (n, t) :: l =>
        if n != stream || !canCache s n then s
        else { s with front := { s.front with queued := l, fetching := s.front.fetching ++ [(n, t)] } }) s

end Sys2Proof.Machine
end

