-- ==== Sys2Proof/Machine/SagCreate.lean ====
section
/-!
DEFINITION. Creating a saggar: the descriptor and its checks (11 R395, R396; 05 R190; 07 R258, R283; 10 R378; 14 R503; 17 R565,
R566; 19 R638).
-/
namespace Sys2Proof.Machine

/-- `n` bits of a descriptor from bit `lo` of byte `b`. -/
def df (d : List Byte) (b lo n : Nat) : Nat := bits (leNat d) (8 * b + lo) n

/-- Bits of a descriptor that carry a field. -/
def descMask : Nat :=
  [(0, 12), (16, 8), (24, 6), (32, 8), (40, 8), (48, 16), (64, 13), (128, 64), (192, 2), (200, 664), (1024, 576), (1600, 8),
   (2048, 3072)].foldl (fun (m : Nat) (f : Nat × Nat) => m ||| ((2 ^ f.2 - 1) * 2 ^ f.1)) 0

/-- Settings with a default: byte, low bit, width, and the range of a value given (as an unsigned field). -/
def givenFields : List (Nat × Nat × Nat × Nat × Nat) :=
  [(4, 0, 8, 1, 255), (16, 0, 32, 1, 2 ^ 20), (5, 0, 8, 16, 32), (32, 0, 64, 0, 2 ^ 64 - 1), (22, 0, 8, 0, 255), (23, 0, 8, 1, 255),
   (20, 0, 16, 0, 65535), (24, 0, 1, 0, 1), (24, 1, 1, 0, 1), (25, 0, 8, 1, 255), (60, 0, 16, 1, 4096), (62, 0, 8, 2, 16),
   (63, 0, 8, 1, 4)]

/-- Setting `i` is given. -/
def given (d : List Byte) (i : Nat) : Bool := df d 8 i 1 == 1

/-- A setting with a default breaks R638: out of range when given, nonzero when not. -/
def givenBad (d : List Byte) (i : Nat) (f : Nat × Nat × Nat × Nat × Nat) : Bool :=
  let v := df d f.1 f.2.1 f.2.2.1
  if given d i then decide (v < f.2.2.2.1) || decide (f.2.2.2.2 < v) else v != 0

/-- NUM_DEFAULT_SCALE given lies from −64 to 63. -/
def scaleBad (d : List Byte) : Bool :=
  given d 4 && (decide ((BitVec.ofNat 8 (df d 22 0 8)).toInt < -64) || decide (63 < (BitVec.ofNat 8 (df d 22 0 8)).toInt))

def descPin (d : List Byte) (i : Nat) : BitVec 192 := BitVec.ofNat 192 (df d (256 + 24 * i) 0 192)
def descRights (d : List Byte) : BitVec 192 := BitVec.ofNat 192 (df d 176 0 192)

/-- A range of device-virtual addresses whose base and size are multiples of `a`. -/
def areaBad (d : List Byte) (b a : Nat) : Bool :=
  let base := df d b 0 64
  let size := df d (b + 8) 0 64
  base % a != 0 || size % a != 0 || decide (2 ^ 57 < base + size)

/-- A table base: 4 KiB aligned, within the address space. -/
def tableBad (d : List Byte) (b : Nat) : Bool := df d b 0 64 % 4096 != 0 || decide (2 ^ 57 ≤ df d b 0 64)

/-- A setting outside its range, or a reserved field nonzero (R396). -/
def descInvalid (s : State) (d : List Byte) : Bool :=
  let mode := df d 3 4 2
  let pins := df d 200 0 8
  let has := s.fuse.variant != 3
  (leNat d ||| descMask) != descMask ||
  ((List.range givenFields.length).zip givenFields).any (fun e => givenBad d e.1 e.2) || scaleBad d ||
  df d 3 0 2 == 3 || mode == 3 || decide (256 < df d 6 0 16) || decide (6600 < df d 26 0 16) ||
  df d 28 0 32 == 0 || decide (2 ^ 20 < df d 28 0 32) || decide (65536 < df d 56 0 32) ||
  descRights d == 0 || df d 72 0 64 == 0 || areaBad d 64 65536 || tableBad d 40 || tableBad d 48 || areaBad d 80 1 ||
  decide (16 < pins) ||
  (List.range 16).any (fun i => if i < pins then descPin d i &&& ~~~(descRights d) != 0 else descPin d i != 0) ||
  tableBad d 96 || areaBad d 128 65536 || areaBad d 144 65536 || areaBad d 160 (2 * 2 ^ 20) ||
  (df d 136 0 64 != 0 || mode == 1) && decide (df d 136 0 64 < 64 * 2 ^ 20) ||
  (mode == 1 && has && df d 152 0 64 == 0) || (mode == 2 && has && df d 168 0 64 == 0)

/-- Group bells of a saggar on die `die` (10 R378). -/
def bellsOn (p : Placement) (n die : Nat) : Nat :=
  match p with
  | .die d => if d = die then n else 0
  | .interleaved => if die = 0 then (n + 1) / 2 else n / 2

def placementOf (n : Nat) : Placement := if n = 2 then .interleaved else .die n

/-- Group bells free on a die. -/
def bellsFree (s : State) (die : Nat) : Nat :=
  1024 - (s.front.saggars.map fun (e : Nat × Saggar) => if e.2.st = .off then 0 else bellsOn e.2.cfg.placement e.2.cfg.groupBells die).sum

def dieMask (d : Nat) : BitVec 192 := (BitVec.ofNat 192 (2 ^ 96 - 1)) <<< (96 * d)

/-- The refusals of R396 and R566, in the order INVALID, BUSY, UNIT_ABSENT, WRONG_DIE, RIGHTS_CONFLICT, NO_SPACE. -/
def createRefusal (s : State) (d : List Byte) : Option Nat :=
  let k := df d 0 0 12
  let p := placementOf (df d 3 0 2)
  let r := descRights d
  let excl := df d 3 2 1 == 1
  if descInvalid s d then some stInvalid
  else if (s.saggar k).st != .off then some stBusy
  else if r &&& s.fuse.absent != 0 || (s.hub.state == .fencedHalf && (p == .interleaved || p == .die s.hub.fencedDie)) ||
      (s.fuse.variant == 3 && (df d 3 4 2 == 2 || df d 80 0 128 != 0 || df d 144 0 128 != 0 || df d 160 0 128 != 0)) then some stAbsent
  else if (match p with
      | .interleaved => false
      | .die x => r &&& ~~~(dieMask x) != 0) then some stWrongDie
  else if s.front.saggars.any fun (e : Nat × Saggar) =>
      e.2.st != .off && r &&& e.2.cfg.rights != 0 && (excl || e.2.cfg.exclusive) then some stConflict
  else if [0, 1].any fun die => decide (bellsFree s die < bellsOn p (df d 6 0 16) die) then some stNoSpace
  else none

/-- A setting as given, or its default. -/
def settingOf (d : List Byte) (i b lo n dflt : Nat) : Nat := if given d i then df d b lo n else dflt

/-- The settings of the descriptor; `seed` is the root of trust's draw for a NUM_SEED not given (05 R190). -/
def cfgOf (s : State) (d : List Byte) (seed : DWord) : SagCfg :=
  let m := s.img
  { fn := df d 2 0 8, placement := placementOf (df d 3 0 2), rights := descRights d, exclusive := df d 3 2 1 == 1
    weight := settingOf d 0 4 0 8 16, streamLimit := settingOf d 1 16 0 32 4096
    saveArea := BitVec.ofNat 64 (df d 64 0 64), saveSize := df d 72 0 64
    pinSets := (List.range (df d 200 0 8)).map (descPin d), bellExp := settingOf d 2 5 0 8 m.bellExp, groupBells := df d 6 0 16
    seed := if given d 3 then BitVec.ofNat 64 (df d 32 0 64) else seed
    layerTable := BitVec.ofNat 64 (df d 40 0 64), layerCount := df d 28 0 32
    defScale := if given d 4 then (BitVec.ofNat 8 (df d 22 0 8)).toInt else m.numScale
    quietSteps := settingOf d 5 23 0 8 m.quietSteps, quietThr := settingOf d 6 20 0 16 m.quietThr
    quietAlarm := if given d 7 then df d 24 0 1 == 1 else m.quietAlarm
    autoRaise := if given d 8 then df d 24 1 1 == 1 else m.autoRaise
    wgtTable := BitVec.ofNat 64 (df d 48 0 64), wgtCount := df d 56 0 32
    offBase := BitVec.ofNat 64 (df d 80 0 64), offSize := df d 88 0 64
    powerCap := if df d 26 0 16 = 0 then bits (m.rve.getD 3 0).toNat 0 16 else df d 26 0 16
    powerWeight := settingOf d 9 25 0 8 16
    secMode := df d 3 4 2, lossL := settingOf d 10 60 0 16 m.lossL, parK := settingOf d 11 62 0 8 m.parK
    parM := settingOf d 12 63 0 8 m.parM
    secGuild := if df d 3 4 2 = 1 then some (df d 106 0 16) else none
    secTable := BitVec.ofNat 64 (df d 96 0 64), secCount := df d 104 0 16
    staging := BitVec.ofNat 64 (df d 128 0 64), stagingSize := df d 136 0 64
    region := BitVec.ofNat 64 (df d 144 0 64), regionSize := df d 152 0 64
    dunobBase := BitVec.ofNat 64 (df d 160 0 64), dunobSize := df d 168 0 64, secTest := df d 3 3 1 == 1 }

/-- Create the saggar of a descriptor, with keys of its own (08 R317); or the status that refuses it. -/
def createSaggar (s : State) (d : List Byte) : Nat × State :=
  match createRefusal s d with
  | some st => (st, s)
  | none =>
    let k := df d 0 0 12
    let (seed, s) := s.free
    let (data, s) := s.free
    let (tweak, s) := s.free
    (stOk, (s.setKey k { data, tweak, st := .active }).setSaggar k { st := .on, cfg := cfgOf s d (seed.setWidth 64) })

end Sys2Proof.Machine
end

