-- ==== Sys2Proof/Machine/Drain.lean ====
section
/-!
DEFINITION. Destroying saggars and what their drains carry out (11 R401 to R405; 08 R314, R315, R317; 12 R433), creating streams
(11 R398, R404) and freeing them.
-/
namespace Sys2Proof.Machine

/-! ### Flows of a draining saggar (12 R433) -/

def State.flow (s : State) (f : Nat) : Flow := Tab.get {} s.frm.flows f
def State.setFlow (s : State) (f : Nat) (x : Flow) : State :=
  { s with frm := { s.frm with flows := Tab.put {} s.frm.flows f x } }
def State.modFlow (s : State) (f : Nat) (g : Flow → Flow) : State := s.setFlow f (g (s.flow f))

/-- A bound flow stops after the packet in progress: OFF, unbound, with its record. -/
def stopFlow (s : State) (f : Nat) : State :=
  let x := s.flow f
  match x.bind with
  | none => s
  | some b =>
    let (n, k) := match x.emission with
      | some e => (e.n.toNat, e.k)
      | none => (x.frame.toNat % 2 ^ 32, 0)
    let s := record s 0xA5 (536 + f) b.saggar (payload [(f, 125), (b.saggar, 113), (n, 64), (k, 0)]) [] true
    let s := dropPermits s fun p => p.kind == 5 && p.unit == 536 + f
    let s := s.setFlow f { x with st := 0, bind := none, edges := [], emission := none, freeDue := none, m := none, flywheel := false }
    { s with frm := { s.frm with res := Tab.mapv s.frm.res fun r (y : Resv) => if resFlow s r = f then { y with due := [] } else y } }

/-! ### Destroying -/

/-- A request whose object goes before it takes effect completes with a status the spec does not give: a free value. -/
def completeFree (s : State) (fn n : Nat) : State :=
  let (v, s) := s.free
  complete s fn n (v.toNat % 2 ^ 16)

/-- Change every listed watchpoint. -/
def modWatches (s : State) (f : Watchpoint → Watchpoint) : State :=
  { s with dbg := { s.dbg with watch := (Tab.mapv s.dbg.watch fun _ x => f x).filter fun e => e.2 != {} } }

/-- The watchpoints of a saggar that enters DRAINING are disarmed (18 R611). -/
def disarm (s : State) (k : Nat) : State :=
  modWatches s fun x => if x.ctl.toNat % 4096 = k then { x with ctl := x.ctl &&& ~~~(1#32 <<< 31), latched := false } else x

/-- A latched creation takes effect, and the watchpoint enables latched with it (18 R611); they go with a refused one. -/
def rearm (s : State) (k : Nat) (created : Bool) : State :=
  modWatches s fun x => if x.ctl.toNat % 4096 = k && x.latched then
    { x with ctl := if created then x.ctl ||| (1#32 <<< 31) else x.ctl, latched := false } else x

/-- Steps 1 and 2 of R401: crews stop, tasks leave, what the saggar's engines do is abandoned. -/
def abandon (s : State) (k : Nat) : State :=
  let s := stopCrews s fun c => c.saggar == k
  let s := dropTasks (releaseSaves s fun _ l => l.saggar == k) fun _ l => l.saggar == k
  let s := { s with crier := { s.crier with waits := s.crier.waits.filter fun (e : Nat × Wait) => e.2.saggar != k } }
  let s := s.mapWheels fun _ x => { x with eng := { x.eng with copies := x.eng.copies.filter fun (e : Copy) => e.saggar != k } }
  let s := ((s.front.tier.filter fun (e : Nat × TierJob) => e.2.saggar == k).map Prod.fst).foldl endTier s
  let s := { s with link := { s.link with
    jobs := s.link.jobs.filter fun (e : Nat × GJob) => e.2.saggar != k
    sigs := s.link.sigs.filter fun (e : Nat × OpenSig) => e.2.saggar != k } }
  let s := match (s.saggar k).sec.restore with
    | some j => completeFree s j.fn j.req
    | none => s
  let s := modSec s k fun x => { x with sending := [], waiting := [], armed := none, reported := [], restore := none, dunob := none, stallCmd := none }
  let s := disarm s k
  (List.range 8).foldl (fun s f => if ((s.flow f).bind.map FlowBind.saggar) == some k then stopFlow s f else s) s

/-- The saggar is destroyed (R401 to R403): an ON saggar drains; a PENDING_ON one drops its latched creation. Causes: 0
SAGGAR_DESTROY, 1 DIE_FENCE, 2 function-level reset. -/
def destroySaggar (s : State) (k cause : Nat) : State :=
  let g := s.saggar k
  match g.st with
  | .on =>
    let s := s.modSaggar k fun g => { g with st := .draining, drainCause := cause }
    abandon (s.setKey k { s.key k with st := .erasing }) k
  | .pendingOn =>
    let s := disarm (s.modSaggar k fun g => { g with st := .draining, latched := none }) k
    (match g.latched with
     | some l => completeFree s l.fn l.req
     | none => s)
  | _ => s

/-! ### Streams -/

/-- `n` bits of a request body. -/
def bf (b : List Byte) (byte lo n : Nat) : Nat := bits (leNat b) (8 * byte + lo) n

/-- A value of STREAM_CREATE outside its range (R404, R407). -/
def streamInvalid (b : List Byte) : Bool :=
  let order := bf b 24 0 5
  let id := bf b 20 0 32
  bf b 18 0 2 == 3 || decide (order < 4) || decide (20 < order) || decide (15 < bf b 19 0 8) ||
  (id != 0xFFFFFFFF && decide (2 ^ 20 ≤ id)) || bf b 32 0 2 != 0 || bf b 32 57 7 != 0 || bf b 40 0 2 != 0 ||
  (bf b 40 63 1 == 0 && bf b 40 57 6 != 0)

/-- Streams of a saggar. -/
def streamsOf (s : State) (k : Nat) : List (Nat × Stream) :=
  s.front.streams.filter fun (e : Nat × Stream) => e.2.st != 0 && e.2.saggar == k

/-- The lowest doorbell slot of a function that no stream holds. -/
def freeDoorbell (s : State) (fn : Nat) : Nat :=
  let used := s.front.streams.filterMap fun (e : Nat × Stream) => if e.2.st != 0 && e.2.fn == fn then some e.2.doorbell else none
  ((List.range (used.length + 1)).find? fun i => !used.contains i).getD used.length

/-- Some page of the layer table is mapped with WRITE. -/
def layerTableWritable (g : Saggar) : Bool :=
  g.maps.any fun (e : Nat × Mapping) => e.2.write && decide (e.1 < g.cfg.layerTable.toNat + 32 * g.cfg.layerCount) &&
    decide (g.cfg.layerTable.toNat < e.1 + e.2.size)

/-- Every page of the saggar's areas is mapped (R398). -/
def areasMapped (s : State) (k : Nat) : Bool :=
  let c := (s.saggar k).cfg
  rangeMapped s k false c.layerTable.toNat (32 * c.layerCount) && rangeMapped s k false c.wgtTable.toNat (64 * c.wgtCount) &&
  rangeMapped s k false c.saveArea.toNat c.saveSize && rangeMapped s k false c.offBase.toNat c.offSize

/-- The refusals of R398 and R404 once the requested ID is FREE. -/
def streamRefusal (s : State) (b : List Byte) : Option Nat :=
  let k := bf b 16 0 12
  let g := s.saggar k
  let pinned := bf b 18 2 1 == 1
  if g.st == .draining || g.st == .pendingOn then some stBusy
  else if g.st == .off then some stInvalid
  else if bf b 20 0 32 != 0xFFFFFFFF && (s.stream (bf b 20 0 32)).st != 0 then some stBusy
  else if bf b 18 4 1 == 1 && (streamsOf s k).any fun e => e.2.stepOwner then some stBusy
  else if decide (g.cfg.streamLimit ≤ (streamsOf s k).length) || decide (262080 ≤ freeDoorbell s g.cfg.fn) then some stNoSpace
  else if bf b 18 0 2 == 2 && s.fuse.variant != 1 then some stAbsent
  else if pinned && (bf b 18 0 2 == 2 || decide (g.cfg.pinSets.length ≤ bf b 19 0 8)) then some stInvalid
  else if g.firstStream then none
  else if !areasMapped s k then some stUnmapped
  else if layerTableWritable g then some stInvalid
  else none

/-- The scheduler registers its wait on a stream's TAIL_WORD (10 R369, 11 R411). -/
def registerTail (s : State) (n : Nat) : State :=
  let x := s.stream n
  if x.tailWord = 0 then s else
  let (id, s) := s.fresh
  let pa := ((translate s x.saggar x.tailWord).map Prod.fst).getD 0
  let w : Wait := { who := .tail n, saggar := x.saggar, va := x.tailWord, pa, target := memWord s pa, reach := 0, st := placeOf s pa, read := s.watch }
  { s with crier := { s.crier with waits := Tab.ins s.crier.waits id w } }

/-- Create the stream of a request body: status and result. -/
def createStream (s : State) (b : List Byte) : (Nat × List Byte) × State :=
  match streamRefusal s b with
  | some st => ((st, []), s)
  | none =>
    let k := bf b 16 0 12
    let g := s.saggar k
    let id := if bf b 20 0 32 = 0xFFFFFFFF then Tab.lowestFree s.front.streams 0 else bf b 20 0 32
    let slot := freeDoorbell s g.cfg.fn
    let s := if g.firstStream then s else (resetTable s k).modSaggar k fun g => { g with firstStream := true }
    let x : Stream := {
      st := 1, saggar := k, cls := bf b 18 0 2, ringBase := BitVec.ofNat 64 (bf b 24 6 58 * 64), ringDev := bf b 24 5 1 == 1
      order := bf b 24 0 5, pinned := bf b 18 2 1 == 1, pinSet := bf b 19 0 4, dunob := bf b 18 3 1 == 1
      stepOwner := bf b 18 4 1 == 1, depth := bf b 18 5 2 + 1, tailWord := BitVec.ofNat 64 (bf b 32 0 57)
      headHost := bf b 40 63 1 == 1, headWord := BitVec.ofNat 64 (bf b 40 0 63), doorbell := slot, fn := g.cfg.fn }
    ((stOk, leBytes 4 id ++ leBytes 4 slot), registerTail (s.setStream id x) id)

/-- A stream becomes FREE: its doorbell slot is released, destroys complete, a latched creation takes effect (R405). -/
def freeStream (s : State) (n : Nat) : State :=
  let x := s.stream n
  let s := { s.setStream n {} with front := { (s.setStream n {}).front with
    cached := s.front.cached.filter (· != n)
    fetching := s.front.fetching.filter fun e => e.1 != n
    queued := s.front.queued.filter fun e => e.1 != n } }
  let s := { s with crier := { s.crier with waits := s.crier.waits.filter fun (e : Nat × Wait) => e.2.who != Waiter.tail n } }
  let s := { s with host := { s.host with reads := s.host.reads.filter fun (r : HostRead) =>
    match r.why with
    | .ring m _ => m != n
    | .mbx .. => true } }
  let s := x.waiters.foldl (fun s e => complete s e.1 e.2 stOk) s
  match x.latched with
  | none => s
  | some l =>
    let ((st, res), s) := createStream s l.body
    complete s l.fn l.req st res

/-! ### The end of a drain (R401, R402) -/

/-- Collectors bound to a saggar. -/
def collsOf (s : State) (k : Nat) : List (Nat × Collector) :=
  s.crier.colls.filter fun (e : Nat × Collector) => e.2.bound && e.2.saggar == k

/-- Nothing of the saggar is in flight that its drain must wait for. -/
def drainQuiet (s : State) (k : Nat) : Bool :=
  !(s.wheels.any fun (w : Nat × Wheel) => w.2.mem.store.any fun (e : StoreEntry) => e.saggar == k) &&
  !(s.ms.zeroJobs.any fun (e : Nat × ZeroJob) => e.2.saggar == k) && !(s.ms.unmapJobs.any fun (e : Nat × UnmapJob) => e.2.saggar == k) &&
  (collsOf s k).all fun e => e.2.inFlight == []

/-- Every collector of the saggar is unbound; an unbind in progress completes. -/
def unbindColls (s : State) (k : Nat) : State :=
  (collsOf s k).foldl (fun s e =>
    let s := dropBehind (s.setColl e.1 {}) e.1
    match e.2.unbinding with
    | some (fn, n) => complete s fn n stOk
    | none => s) s

/-- The guilds of the saggar go. -/
def dropGuilds (s : State) (k : Nat) : State :=
  (s.link.guilds.filter fun (e : Nat × Guild) => e.2.saggar == k).foldl (fun s e =>
    let s := { s with link := { s.link with guilds := Tab.del s.link.guilds e.1 } }
    let s := e.2.waiters.foldl (fun s w => complete s w.1 w.2 stOk) s
    match e.2.latched with
    | some (fn, n, _) => complete s fn n stBusy
    | none => s) s

/-- Release every frame of the saggar (08 R315). -/
def releaseAll (s : State) (k : Nat) : State :=
  let s := dropXlats (dropLines s fun c => c.key == k) (fun x => x.saggar == k) fun j => j == k
  { s with ms := { s.ms with
    dirty := s.ms.dirty.filter fun e => lineKey s (4096 * e.1) != k
    frames := s.ms.frames.filter fun (e : Nat × Frame) => !(e.2.st == .owned && e.2.owner == k) } }

/-- Steps 3 to 5 of R401; then OFF, its event, the destroys, and a latched creation. -/
def endDrain (s : State) (k : Nat) : State :=
  let g := s.saggar k
  let s := unbindColls s k
  let s := (streamsOf s k).foldl (fun s e => freeStream s e.1) s
  let s := dropGuilds s k
  let s := (releaseAll s k).setKey k {}
  let s := { s.setSaggar k {} with front := { (s.setSaggar k {}).front with
    passes := (s.setSaggar k {}).front.passes.filter fun e => e.1 / 4 != k } }
  let s := postEvent s g.cfg.fn 2 (leBytes 2 k ++ [BitVec.ofNat 8 g.drainCause])
  let s := g.waiters.foldl (fun s e => complete s e.1 e.2 stOk) s
  match g.latched with
  | none => s
  | some l =>
    let (st, s) := createSaggar s l.body
    complete (rearm s k (st == stOk)) l.fn l.req st

/-- SAGGAR_DRAIN_END. -/
def execSaggarDrainEnd (saggar : Nat) (s : State) : Out :=
  act (decide (saggar < 4096)) (whenD (s.serving && ((s.saggar saggar).st == .draining || (s.saggar saggar).st == .pendingOn) &&
    drainQuiet s saggar) fun s => endDrain s saggar) s

/-- Nothing of a draining stream remains in flight (R405). -/
def streamQuiet (s : State) (n : Nat) : Bool :=
  let x := s.stream n
  (x.abort || (availUnits x == 0 && allDone x)) && !(s.front.launches.any fun (e : Nat × Launch) => e.2.stream == n) &&
  !(s.wheels.any fun (w : Nat × Wheel) => w.2.eng.copies.any fun (e : Copy) => e.stream == n) &&
  !(s.front.tier.any fun (e : Nat × TierJob) => e.2.stream == n) && !(s.link.jobs.any fun (e : Nat × GJob) => e.2.stream == n) &&
  x.gslots.all fun (e : Nat × GSlot) => e.2.complete

/-- STREAM_DRAIN_END: the stream is FREE. Its gather slots are released with it. -/
def execStreamDrainEnd (stream : Nat) (s : State) : Out :=
  act (decide (stream < 2 ^ 20)) (whenD (memRuns s) fun s =>
    let x := s.stream stream
    if !(x.st == 3 || x.st == 4) || (s.saggar x.saggar).st != .on || !streamQuiet s stream then s else
    freeStream (x.gslots.foldl (fun s (e : Nat × GSlot) => dropKeep s x.saggar e.2.dest.toNat e.2.bytes) s) stream) s

end Sys2Proof.Machine
end

