-- ==== Sys2Proof/Machine/Saggars.lean ====
section
/-!
DEFINITION. The mailbox commands of saggars and streams (11 R395 to R407, 05 R207, 19 R637).
-/
namespace Sys2Proof.Machine

/-- Reply of a command that answers at once. -/
def now (st : Nat) (s : State) (res : List Byte := []) : Reply × State := (some (st, res), s)

/-- SAGGAR_CREATE: a DRAINING saggar latches the creation (R402). -/
def execSaggarCreate (fn req : Nat) (s : State) : Out :=
  mbxRun { code := 0x10, pf := true } (fun _ => 768) (fun s fn r =>
    if reqData r = 0 then now stInvalid s else
    let d := r.data.getD []
    let k := df d 0 0 12
    if (s.saggar k).st = .draining then
      (none, s.modSaggar k fun g => { g with st := .pendingOn, latched := some { fn := fn, req := r.n, body := d } })
    else
      let (st, s) := createSaggar s d
      now st s) fn req s

/-- SAGGAR_DESTROY completes when the saggar is OFF. -/
def execSaggarDestroy (fn req : Nat) (s : State) : Out :=
  mbxRun { code := 0x11, sag := true, own := true } noData (fun s fn r =>
    let k := reqSag r
    if (s.saggar k).st = .off then now stInvalid s
    else (none, destroySaggar (s.modSaggar k fun g => { g with waiters := g.waiters ++ [(fn, r.n)] }) k 0)) fn req s

def SagSt.code : SagSt → Nat
  | .off => 0 | .on => 1 | .draining => 2 | .pendingOn => 3

def Placement.code : Placement → Nat
  | .die d => d | .interleaved => 2

/-- SAG_STATUS_k (R425); an OFF saggar reads zero. -/
def sagStatus (s : State) (k : Nat) : Nat :=
  let g := s.saggar k
  if g.st = .off then 0 else
  SagSt.code g.st * 2 ^ 29 + Placement.code g.cfg.placement * 2 ^ 27 + (if g.cfg.exclusive then 2 ^ 26 else 0) + g.drainCause * 2 ^ 24 +
    g.cfg.fn * 2 ^ 16

/-- SAGGAR_QUERY. -/
def execSaggarQuery (fn req : Nat) (s : State) : Out :=
  mbxRun { code := 0x12, sag := true, own := true, query := true } noData (fun s _ r =>
    let k := reqSag r
    let g := s.saggar k
    now stOk s (leBytes 4 (sagStatus s k) ++ leBytes 4 g.step.toNat ++ leBytes 8 g.cfg.seed.toNat)) fn req s

/-- SCALE_RESET: the layer table is reset and re-warm begins, cause 2 (05 R207). -/
def execScaleReset (fn req : Nat) (s : State) : Out :=
  mbxRun { code := 0x13, sag := true } noData (fun s _ r => now stOk (rewarmReset s (reqSag r) 2)) fn req s

/-- STREAM_CREATE: a requested ID that is DRAINING latches the creation (R405). -/
def execStreamCreate (fn req : Nat) (s : State) : Out :=
  mbxRun { code := 0x18, sag := true, used := [fld 18 0 7, fld 19 0 8, fld 20 0 32, fld 24 0 64, fld 32 0 64, fld 40 0 64] } noData
    (fun s fn r =>
      let id := rf r 20 0 32
      if streamInvalid r.body then now stInvalid s
      else if id != 0xFFFFFFFF && (s.stream id).st == 3 then
        (none, s.modStream id fun x => { x with st := 4, latched := some { fn := fn, req := r.n, body := r.body } })
      else
        let ((st, res), s) := createStream s r.body
        now st s res) fn req s

/-- Abort a stream: it stops as under 03 R120, without a fault record (R405). -/
def abortStream (s : State) (n : Nat) : State :=
  let s := stopStream s n
  let s := { s with crier := { s.crier with waits := s.crier.waits.filter fun (e : Nat × Wait) =>
    match e.2.who with
    | .command m _ => m != n
    | _ => true } }
  s.modStream n fun x => { x with st := if x.st = 4 then 4 else 3, abort := true }

/-- STREAM_DESTROY. A FAULTED stream begins nothing, so either mode removes it. -/
def execStreamDestroy (fn req : Nat) (s : State) : Out :=
  mbxRun { code := 0x19, sag := true, used := [fld 20 0 32, fld 24 0 8] } noData (fun s fn r =>
    let n := rf r 20 0 32
    let mode := rf r 24 0 8
    let x := s.stream n
    if 1 < mode || x.st = 0 || x.saggar != reqSag r then now stInvalid s
    else
      let s := s.modStream n fun x => { x with waiters := x.waiters ++ [(fn, r.n)] }
      if x.st = 4 then
        let s := s.modStream n fun x => { x with st := 3, latched := none }
        (none, match x.latched with
          | some l => completeFree s l.fn l.req
          | none => s)
      else if x.st = 2 || mode = 1 then (none, if x.abort then s else abortStream s n)
      else if x.st = 1 then (none, s.modStream n fun x => { x with st := 3, drainTail := x.tail })
      else (none, s)) fn req s

/-- STREAM_RESET of a FAULTED stream: HEAD and the begin position move to TAIL, the fault and any open layer go (R406). -/
def execStreamReset (fn req : Nat) (s : State) : Out :=
  mbxRun { code := 0x1A, sag := true, used := [fld 20 0 32] } noData (fun s _ r =>
    let n := rf r 20 0 32
    let x := s.stream n
    if x.st = 0 || x.saggar != reqSag r then now stInvalid s
    else if x.st != 2 then now stBusy s
    else
      let (id, s) := s.fresh
      let y := { x with
        st := 1, head := x.tail, beginPos := x.tail, replayPos := x.tail, faultCode := 0, faultGts := 0, block := none, begun := []
        layerOpen := false, overflow := false, openLayer := 0, level := 0, lastBar := 0, ordered := false, fetched := [], fetching := []
        gslots := Tab.mapv x.gslots fun _ (g : GSlot) => { g with releasing := some (g.releasing.getD (g.pos, id)) } }
      let s := s.setStream n y
      now stOk (if y.headWord = 0 then s
        else if y.headHost then hostWrite s y.fn y.headWord (leBytes 4 y.head.toNat)
        else headSignal s n y)) fn req s

/-- A stream's context of 64 bytes (R407). -/
def ctxBytes (x : Stream) : List Byte :=
  if x.st = 0 then List.replicate 64 0 else
  let b := fun (c : Bool) => if c then 1 else 0
  leBytes 8 (x.ringBase.toNat + b x.ringDev * 32 + x.order) ++ leBytes 4 x.head.toNat ++ leBytes 4 x.tail.toNat ++
  leBytes 4 (x.saggar * 2 ^ 20 + x.cls * 2 ^ 18 + x.st * 2 ^ 15 + b x.pinned * 2 ^ 14 + x.pinSet * 2 ^ 10 + b x.dunob * 2 ^ 9 +
    b x.stepOwner * 2 ^ 8 + (x.depth - 1) * 2 ^ 6 + b x.layerOpen * 2 ^ 5 + b x.overflow * 2 ^ 4) ++
  leBytes 4 (x.openLayer * 2 ^ 12 + x.level * 2 ^ 10) ++ leBytes 4 x.replayPos.toNat ++ leBytes 4 x.beginPos.toNat ++
  leBytes 8 x.tailWord.toNat ++ leBytes 8 (b x.headHost * 2 ^ 63 + x.headWord.toNat) ++
  leBytes 4 (x.doorbell * 2 ^ 14 + x.fn * 2 ^ 6) ++ leBytes 4 (x.faultCode * 2 ^ 24) ++ leBytes 8 x.faultGts.toNat

/-- STREAM_QUERY: the context goes to DATA_ADDR; a FREE stream's reads zero. -/
def execStreamQuery (fn req : Nat) (s : State) : Out :=
  mbxRun { code := 0x1B, sag := true, used := [fld 20 0 32], query := true } noData (fun s fn r =>
    let n := rf r 20 0 32
    let x := s.stream n
    if 2 ^ 20 ≤ n || (x.st != 0 && x.saggar != reqSag r) then now stInvalid s
    else dataOut s fn r (ctxBytes x) []) fn req s

end Sys2Proof.Machine
end

