-- ==== Sys2Proof/Machine/HostPort.lean ====
section
/-!
DEFINITION. The host port (19 R623 to R628, R639, R640): host reads, Bus Master Enable, resets, virtual functions, MSI-X masks.
-/
namespace Sys2Proof.Machine

def dropHostRead (s : State) (id : Nat) : State :=
  { s with host := { s.host with reads := s.host.reads.filter fun (r : HostRead) => r.id != id } }

/-- HOST_READ_COMPLETION: data of a ring unit, or of a mailbox request, which fails with HOST_ACCESS (R624, R625). A failed ring
read is made again. -/
def execHostReadCompletion (id : Nat) (ok : Bool) (bytes : List Byte) (s : State) : Out :=
  act true (fun s =>
    match s.host.reads.find? fun r => r.id == id && r.sent with
    | none => s
    | some r =>
      let s := dropHostRead s id
      match r.why with
      | .ring n pos => s.modStream n fun x =>
          if x.st = 0 then x else { x with
            fetching := x.fetching.filter (· != pos)
            fetched := if ok && bytes.length == 64 then (List.range 64).foldl (fun t i => Tab.ins t (64 * pos + i) (bytes.getD i 0)) x.fetched
              else x.fetched }
      | .mbx fn n => modReq s fn n fun q => if ok && bytes.length == r.len then { q with data := some bytes } else { q with noHost := true })
    s

/-- Send what has waited for the function (R625): reads, writes, then pending MSI-X messages. -/
def releaseHost (s : State) (fn : Nat) : State :=
  let s := (s.host.reads.filter fun (r : HostRead) => r.fn == fn && !r.sent).foldl
    (fun s r => s.emit (.hostRead r.id fn r.addr r.len)) s
  let s := { s with host := { s.host with reads := s.host.reads.map fun (r : HostRead) => if r.fn = fn then { r with sent := true } else r } }
  let s := (s.host.writes.filter fun e => e.1 == fn).foldl (fun s e => s.emit (.hostWrite fn e.2.1 e.2.2)) s
  let s := { s with host := { s.host with writes := s.host.writes.filter fun e => e.1 != fn } }
  (s.host.msix.filter fun (e : Nat × Msix) => vectorFn e.1 == fn && e.2.pending && !e.2.masked).foldl (fun s e =>
    { s with host := { s.host with msix := Tab.put {} s.host.msix e.1 { e.2 with pending := false } } }.emit (.msix e.1)) s

/-- BUS_MASTER_ENABLE: the function may make host requests (again). -/
def execBusMasterEnable (fn : Nat) (s : State) : Out :=
  act (decide (fn < 256)) (whenD (hostUp s && fnExists s fn) fun s =>
    releaseHost { s with host := { s.host with fns := Tab.put {} s.host.fns fn { bme := true, d3 := false } } } fn) s

/-- MSIX_UNMASK: a pending message is sent (R640). -/
def execMsixUnmask (vector : Nat) (s : State) : Out :=
  act (decide (vector < 2041)) (whenD (hostUp s) fun s =>
    let m := Tab.get {} s.host.msix vector
    let send := m.pending && fnOpen s (vectorFn vector)
    let s := { s with host := { s.host with msix := Tab.put {} s.host.msix vector { m with masked := false, pending := m.pending && !send } } }
    if send then s.emit (.msix vector) else s) s

/-- A function's mailbox after a reset (R627, R628): what is taken runs on, what it answers is discarded. -/
def resetMbx (s : State) (fn : Nat) : State :=
  let m := s.mbx fn
  let s := s.setMbx fn { slots := m.slots, inflight := m.inflight.map fun r => { r with
    discard := true, noHost := r.noHost || r.data.isNone } }
  let s := { s with host := { s.host with
    reads := (s.host.reads.filter fun (r : HostRead) => match r.why with
      | .mbx f _ => f != fn
      | .ring .. => true).map fun (r : HostRead) => if r.fn = fn then { r with sent := false } else r
    msix := (Tab.mapv s.host.msix fun v (m : Msix) => if vectorFn v = fn then { m with pending := false } else m).filter fun e => e.2 != {}
    fns := Tab.del s.host.fns fn } }
  s

/-- A function-level reset of a virtual function: mailbox, pending bits, and its saggars (R628, 11 R403). -/
def flr (s : State) (fn : Nat) : State :=
  let s := resetMbx s fn
  let s := { s with host := { s.host with writes := s.host.writes.filter fun e => e.1 != fn } }
  (s.front.saggars.filter fun (e : Nat × Saggar) => e.2.st != .off && e.2.cfg.fn == fn).foldl (fun s e => destroySaggar s e.1 2) s

/-- VF Enable is cleared (R627, R628). -/
def clearVfs (s : State) : State :=
  let s := ((List.range s.hub.numVfs).map (· + 1)).foldl flr s
  { s with hub := { s.hub with numVfs := 0 } }

/-- VF_FLR. -/
def execVfFlr (fn : Nat) (s : State) : Out :=
  act (decide (0 < fn) && decide (fn < 256)) (whenD (hostUp s && fnExists s fn) fun s => flr s fn) s

/-- VF_ENABLE_SET with NumVFs. -/
def execVfEnableSet (n : Nat) (s : State) : Out :=
  act (decide (0 < n) && decide (n < 256)) (whenD (hostUp s && s.hub.numVfs == 0) fun s => { s with hub := { s.hub with numVfs := n } }) s

/-- VF_ENABLE_CLEAR. -/
def execVfEnableClear (s : State) : Out := act true (whenD (hostUp s) clearVfs) s

/-- The host link trains: rate, width and FLIT mode are the host's choice (R623, R644): free values, FLIT mode set at 64 GT/s. -/
def trainPcie (s : State) : State :=
  let (v, s) := s.free
  let speed := 1 + bits v.toNat 0 8 % 6
  { s with hub := { s.hub with pcieSpeed := speed, pcieWidth := 2 ^ (bits v.toNat 8 8 % 5), pcieFlit := speed == 6 || v.getLsbD 16 } }

/-- PCIE_RESET: the host port, the configuration space and the mailbox of the physical function are reset (R627); the link trains anew. -/
def execPcieReset (s : State) : Out :=
  act true (whenD (hostUp s) fun s =>
    let s := trainPcie (resetMbx (clearVfs s) 0)
    { s with hub := { s.hub with pcieResets := min 15 (s.hub.pcieResets + 1) } }) s

end Sys2Proof.Machine
end

