-- ==== Sys2Proof/Machine/Reset.lean ====
section
/-!
DEFINITION. States of the module (15 R513), what a module reset, a power-down and an entry to FAILED leave (R517, R518, 16 R555, R562,
20 R652).
-/
namespace Sys2Proof.Machine

/-- A PLDM platform event to the tray controller (16 R561, 19 R641). -/
def platformEvent (s : State) (bytes : List Byte) : State := s.emit (.oob 2 0x0A bytes)

/-- The final states of a start. -/
def ModSt.final : ModSt → Bool
  | .ready => true | .fencedHalf => true | .failed => true | _ => false

/-- The states of a start between power good and its end. -/
def starting (s : State) : Bool :=
  (s.hub.state == .powering || s.hub.state == .loading || s.hub.state == .training || s.hub.state == .selfTest) && s.awake

/-- Which HUB_ENTRY_GTS the entry of a state sets (R543); the final state is noted once a start. -/
def entrySlot (s : State) : ModSt → Option Nat
  | .loading => some 0
  | .training => some 1
  | .selfTest => some 2
  | t => if ModSt.final t && starting s then some 3 else none

/-- The module enters a state; the change is told over PLDM. -/
def setHub (s : State) (st : ModSt) : State :=
  let e := match entrySlot s st with
    | some k => Tab.put 0 s.hub.entryGts k s.time.gts
    | none => s.hub.entryGts
  let s := { s with hub := { s.hub with state := st, entered := s.watch, entryGts := e } }
  platformEvent s [BitVec.ofNat 8 st.code, BitVec.ofNat 8 s.hub.cause]

/-- What a stop of every unit leaves: no saggar, stream, binding, guild or work; the counters that run since GTS started; what the
auxiliary supply holds (R517; 02 R41, R42; 16 R562; 13 R478). Scratch, tallies, image values and register settings go. -/
def cleared (s : State) : State :=
  let x := s.front
  let v := s.rve
  { pending := s.pending
    freeCtr := s.freeCtr
    nextId := s.nextId
    outbox := s.outbox
    fuse := s.fuse
    oob := s.oob
    flash := s.flash
    hub := { s.hub with scratch := [], numVfs := 0, pcieSpeed := 0, pcieWidth := 0, pcieFlit := false }
    time := { gts := s.time.gts, epoch := s.time.epoch, locked := s.time.locked, refPresent := s.time.refPresent
              holdover := s.time.holdover, lostAt := s.time.lostAt, refLoss := s.time.refLoss, watch := s.time.watch, mt := s.time.mt
              stepCount := s.time.stepCount, gen := s.time.gen }
    wheels := (Tab.mapv s.wheels fun _ (w : Wheel) => ({
      ctl := { lastStamp := w.ctl.lastStamp }
      work := { taken := w.work.taken, given := w.work.given, batches := w.work.batches } } : Wheel)).filter fun e => e.2 != {}
    ms := {
      slices := (Tab.mapv s.ms.slices fun _ (c : Slice) => ({ ce := c.ce } : Slice)).filter fun e => e.2 != {}
      pcs := (Tab.mapv s.ms.pcs fun _ (c : PChan) => ({ ce := c.ce } : PChan)).filter fun e => e.2 != {}
      grn := (Tab.mapv s.ms.grn fun _ (c : GrnPort) => ({ ce := c.ce, poison := c.poison } : GrnPort)).filter fun e => e.2 != {}
      scrubs := s.ms.scrubs }
    front := { hits := x.hits, misses := x.misses, preempts := x.preempts, mirrorBytes := x.mirrorBytes
               parityBytes := x.parityBytes, stallTicks := x.stallTicks, restores := x.restores }
    rve := { clamps := v.clamps, ceilTicks := v.ceilTicks, waits := v.waits, halves := v.halves, vin := v.vin, energy := v.energy
             energyRest := v.energyRest, temp := v.temp, m := v.m, powerWin := v.powerWin, thermWin := v.thermWin, cycle := v.cycle }
    dbg := { lost := s.dbg.lost
             sampled := s.dbg.sampled
             watch := (Tab.mapv s.dbg.watch fun _ (w : Watchpoint) => ({ hits := w.hits } : Watchpoint)).filter fun e => e.2 != {} }
    link := {
      ports := (Tab.mapv s.link.ports fun _ (p : Port) => ({ tx := p.tx, rx := p.rx, replays := p.replays, fecCorr := p.fecCorr
                                                             crcErr := p.crcErr, undelivered := p.undelivered } : Port)).filter fun e => e.2 != {}
      ctgs := (Tab.mapv s.link.ctgs fun _ (c : Ctg) => { c with present := false, ready := false, fault := false, state := 0, app := false }).filter
        fun e => e.2 != {} }
    frm := {
      flows := (Tab.mapv s.frm.flows fun _ (f : Flow) => ({ emitted := f.emitted, missed := f.missed, skipped := f.skipped } : Flow)).filter
        fun e => e.2 != {}
      res := (Tab.mapv s.frm.res fun _ (r : Resv) => ({ overruns := r.overruns } : Resv)).filter fun e => e.2 != {} }
    fen := { counts := s.fen.counts, last := s.fen.last, fails := s.fen.fails, ended := s.fen.ended } }

/-- Counts that begin when GTS starts are zero (02 R42 and the register blocks), and GTS with them. -/
def zeroCounts (s : State) : State :=
  { s with
    time := { s.time with gts := 0, watch := 0, stepCount := 0, refLoss := 0, gen := {} }
    wheels := []
    ms := { s.ms with slices := [], pcs := [], grn := [], scrubs := [] }
    front := {}
    rve := { vin := s.rve.vin, temp := s.rve.temp, m := s.rve.m }
    dbg := {}
    link := { s.link with ports := [] }
    frm := {}
    fen := { fails := s.fen.fails }
    hub := { s.hub with pcieResets := 0 } }

/-- The root PLL is off: no clock runs. -/
def stopPll (s : State) : State := { s with time := { s.time with locked := false, holdover := false } }

/-- A failure record (16 R562): cause of R520, unit and error type, and bytes 24 to 27. -/
def failRecord (s : State) (cause kind index etype : Nat) (extra : List Byte) : BitVec 256 :=
  BitVec.ofNat 256 (leNat (leBytes 8 s.gts ++ leBytes 4 s.time.epoch.toNat ++ leBytes 1 cause ++ leBytes 1 kind ++ leBytes 2 index ++
    leBytes 1 etype ++ List.replicate 7 0 ++ extra))

/-- ENTER FAILED (16 R555, R562; 15 R518): the failure record, every unit stops, the rails go; the root PLL with them when the
cause is POWER or PLL. A start that ends so writes its boot log entry (R542). -/
def enterFailed (s : State) (cause kind index etype : Nat) (extra : List Byte := []) : State :=
  let r := failRecord s cause kind index etype extra
  let boot := starting s
  let s := { s with fen := { s.fen with fails := (r :: s.fen.fails).take 16 } }
  let s := { s with hub := { s.hub with cause } }
  let s := setHub (cleared s) .failed
  let s := if boot then writeBoot s else s
  if cause = 2 ∨ cause = 3 then stopPll s else s

/-- Take the module into LOADING: the directory is read, the straps are sampled, the module keys are drawn (R523, 08 R317, 20 R658). -/
def enterLoading (s : State) : State :=
  let s := { s with hub := { s.hub with cause := 0, resetReq := none, halted := false, strap := s.hub.pins } }
  let s := setHub s .loading
  let d := dirNow s
  let (k, s) := s.free
  let (t, s) := s.free
  let s := s.setKey 4096 { data := k, tweak := t, st := .active }
  { s with hub := { s.hub with dirLost := d.lost, dirCopy := d.copy, resultA := 0xFF, resultB := 0xFF, selftest := 0, memtest := false
                               fromTry := false, inForce := 0, build := 0, svn := 0, keyInForce := 0, digest := 0 } }

/-- A MODULE RESET takes effect (R517): every unit stops; LOADING follows, or waits while MOD_RESET_N is low (20 R657); from FAILED
the module enters POWERING (R518). -/
def resetNow (s : State) (kind : Nat) : State :=
  let failed := s.hub.state == .failed
  let s := cleared s
  let s := { s with hub := { s.hub with startKind := kind, resetReq := none, flashJobs := [] } }
  if s.hub.resetHeld then { s with hub := { s.hub with halted := true } }
  else if failed then setHub { s with hub := { s.hub with cause := 0 } } .powering
  else enterLoading s

/-- A module reset is requested: at once, or once the flash unit in progress is complete (R517). In AUX and OFF there is nothing to
reset, and a power-down goes on (20 R655); POWERING goes on to LOADING by itself. -/
def requestReset (s : State) (kind : Nat) : State :=
  if s.hub.state == .off || s.hub.state == .aux || s.hub.powerDown then s
  else if s.hub.state == .powering then { s with hub := { s.hub with startKind := kind } }
  else if s.hub.flashJobs != [] then { s with hub := { s.hub with resetReq := some kind } }
  else resetNow s kind

end Sys2Proof.Machine
end

