-- ==== Sys2Proof/Machine/Market.lean ====
section
/-!
DEFINITION. The market, stealing and the start of crews (03 R77, R80 to R82, R104 to R114; 11 R400, R419 to R422).
-/
namespace Sys2Proof.Machine

/-- The wheel works: it runs and is ON (03 R115). -/
def wheelOn (s : State) (w : Nat) : Bool := wheelRuns s w && (s.wheel w).ctl.state == .on

def modWork (s : State) (w : Nat) (f : WhlWork → WhlWork) : State := s.modWheel w fun x => { x with work := f x.work }

/-- Something of the wheel is being evicted. -/
def wheelEvicting (x : Wheel) : Bool := x.ctl.evict || x.ctl.preempt.isSome

/-! ### Returning tasks (R114, R115, 12 R441) -/

/-- Insert a range into ranges in rising order, joined to those it meets. -/
def insRange (a n : Nat) : List (Nat × Nat) → List (Nat × Nat)
  | [] => [(a, n)]
  | (b, m) :: l =>
    if a + n < b then (a, n) :: (b, m) :: l
    else if a + n = b then (a, n + m) :: l
    else if b + m = a then insRange b (m + n) l
    else (b, m) :: insRange a n l

/-- Ranges of one launch go back, unstarted: to the market, or to what waits for a pinned wheel (R112); a resumable task stays
one (R114). -/
def returnRange (s : State) (w : Nat) (r : TaskRange) : State :=
  match s.launch? r.launch with
  | none => s
  | some l =>
    match r.saved with
    | some q =>
      let s := if l.pinned then s else wakePass s l.saggar l.cls
      announceWork (s.modLaunch r.launch fun l => { l with resumables := q :: l.resumables }) l.saggar
    | none =>
      if l.pinned then
        s.modLaunch r.launch fun l =>
          let n := (Tab.get (0, 0) l.pins w).2
          { l with pins := Tab.put (0, 0) l.pins w (r.first, n + r.count) }
      else
        let s := wakePass s l.saggar l.cls
        announceWork (s.modLaunch r.launch fun l => { l with returned := insRange r.first r.count l.returned }) l.saggar

/-- A wheel gives all its unstarted tasks back, the last range first. -/
def returnAll (s : State) (w : Nat) : State :=
  let x := s.wheel w
  let rs := x.work.deque ++ x.work.kept
  let s := modWork s w fun k => { k with deque := [], kept := [] }
  rs.reverse.foldl (fun s r => returnRange s w r) s

/-! ### Starting crews (R77, R82, R106; 05 R186; 11 R400) -/

/-- Traversal queries that a resumed task brings back: the wheel's unit holds 256 (06 R250, R251). -/
def savedQueries (r : TaskRange) : Nat := (r.saved.map fun q => q.crew.queries.length).getD 0

/-- Vector queue entries that a resumable task brings back (06 R234, R237). -/
def savedChains (r : TaskRange) : Nat := (r.saved.map fun q => q.vec.length).getD 0

/-- The launch of the head range could start a crew on the wheel now. -/
def canStart (s : State) (w : Nat) (r : TaskRange) : Bool :=
  let x := s.wheel w
  match s.launch? r.launch with
  | none => false
  | some l =>
    let g := s.saggar l.saggar
    g.st == .on && classOk s x l.saggar l.cls && (x.crews == [] || x.ctl.split == l.res.l / 64) &&
    decide (0 < furtherCrews x l.res) && decide (queriesOn x + savedQueries r ≤ 256) &&
    decide (x.eng.vecq.length + savedChains r ≤ 8) && (r.saved.isSome || decide (g.saved + contextBytes l.res ≤ g.cfg.saveSize)) &&
    !(x.ctl.preempt.isSome && l.cls == 0) && !x.ctl.evict

/-- The deque holds a task the wheel can start. -/
def hasStartable (s : State) (w : Nat) : Bool := ((s.wheel w).work.deque.head?).any fun r => canStart s w r

/-- The lowest free crew slot. -/
def freeSlot (x : Wheel) : Nat := Tab.lowestFree x.crews 0

/-- Lane generators of a new crew (05 R186). -/
def seedGens (s : State) (l : Launch) (w ordinal : Nat) : Tab DWord :=
  (List.range 32).foldl (fun t lane => Tab.put 0 t lane (laneSeed (s.saggar l.saggar).cfg.seed l.stream w ordinal lane)) []

/-- A new crew: everything reads zero (R77). -/
def newCrew (s : State) (w id : Nat) (l : Launch) (task part uid ordinal : Nat) : Crew :=
  { saggar := l.saggar, stream := l.stream, launch := id, task, layer := l.layer, operator := l.op, level := l.level, res := l.res
    part, uid, ordinal, gens := seedGens s l w ordinal, paths := [(0, { pc := l.prog, mask := 0xFFFFFFFF })] }

/-- Waits of a resumed crew are registered anew: the wheel translates and reads each word again (10 R366, R371). -/
def resumeWaits (s : State) (w slot : Nat) (l : List Wait) : State :=
  l.foldl (fun s x =>
    match x.who with
    | .thread _ _ uid p lane =>
      match translate s x.saggar x.va with
      | none => crewFault s w slot fTranslation (pcOfPath s w slot p)
      | some (pa, _) =>
      let (id, s) := s.fresh
      let s := { s with crier := { s.crier with
        waits := Tab.ins s.crier.waits id { x with who := .thread w slot uid p lane, pa, st := .reading } } }
      let (rid, s) := s.fresh
      s.modWheel w fun y => { y with mem := { y.mem with reads := y.mem.reads ++ [
        { id := rid, slot := slot, uid, path := p, saggar := x.saggar, pa, len := 4, dest := .wait id, order := 1 }] } }
    | _ => s) s

/-- A path that waits at a group bell whose phase has moved on is woken; a broken bell faults the crew (10 R380, R383). -/
def resumeBells (s : State) (w slot : Nat) (c : Crew) : State :=
  c.paths.foldl (fun s p =>
    match p.2.wait with
    | .gbell h ph =>
      let g := gbell s c.saggar h
      if g.broken then crewFault s w slot fBellTimeout p.2.pc
      else if reached g.phase (ph + 1) then addGWakes s [{ wheel := w, slot := slot, uid := c.uid, path := p.1 }]
      else s
    | _ => s) s

/-- The record of a recent clock gap goes once to the ledger of each saggar with a crew on the wheel (02 R59). -/
def gapRecord (s : State) (w k : Nat) : State :=
  match (s.wheel w).ctl.gap with
  | none => s
  | some (a, b, told) =>
    if s.gts < b + 1024 && !told.contains k then
      offer (s.modWheel w fun x => { x with ctl := { x.ctl with gap := some (a, b, k :: told) } })
        { gts := BitVec.ofNat 64 b, type := 0x00, source := w, saggar := k, payload := payload [(a, 64), (b, 0)], dests := [k] }
    else s

/-- Start the head task of the deque in slot `slot`, partition `part`. A launch counts its tasks here from 0, one of a replayed block too
(05 R186; log entry 97). -/
def startTask (s : State) (w slot part : Nat) (r : TaskRange) (l : Launch) : State :=
  let s := gapRecord s w l.saggar
  let s := s.modWheel w fun x => { takeSplit x (if x.crews = [] then l.res.l / 64 else x.ctl.split) s.watch with
    work := { x.work with deque := if r.count ≤ 1 then x.work.deque.drop 1 else
      { r with first := r.first + 1, count := r.count - 1 } :: x.work.deque.drop 1 } }
  match r.saved with
  | some q =>
    let c := { q.crew with part }
    let s := s.setCrew w slot c
    let s := s.modWheel w fun x => { x with eng := { x.eng with 
      vecq := x.eng.vecq ++ q.vec.map fun e => { e with slot := slot }, vecTurn := if x.eng.vecq = [] then slot else x.eng.vecTurn } }
    let s := tally (tallyCrew s w c 0x148) w 0x0A7 c.saggar c.layer c.operator c.queries.length
    resumeBells (resumeWaits s w slot q.waits) w slot c
  | none =>
    let n := Tab.get 0 (s.wheel w).work.ordinals r.launch
    let s := modWork s w fun k => { k with ordinals := Tab.put 0 k.ordinals r.launch (n + 1) }
    let (uid, s) := s.fresh
    let c := newCrew s w r.launch l r.first part uid n
    let s := (s.setCrew w slot c).modSaggar l.saggar fun g => { g with saved := g.saved + contextBytes l.res }
    let s := tallyCrew s w c (0x00C + 16 * part)
    if l.cls = 2 then tallyCrew s w c 0x14E else s

/-- CREW_START: the wheel starts the lowest task of its head range (R106). -/
def execCrewStart (wheel : Nat) (s : State) : Out :=
  act (decide (wheel < 192)) (fun s =>
    let s' := placePinned s wheel 64
    let x := s'.wheel wheel
    match x.work.deque with
    | [] => s
    | r :: _ =>
      if !wheelOn s wheel || !canStart s' wheel r then s else
      match s'.launch? r.launch with
      | none => s
      | some l =>
        match bestPart x l.res with
        | none => s
        | some p => startTask s' wheel (freeSlot x) p r l) s

/-! ### The market (R104, R105; 11 R420, R421) -/

/-- The wheel asks the market (R104): it has room, holds no task it can start, and no request or probe is outstanding. -/
def execMarketRequest (wheel : Nat) (s : State) : Out :=
  act (decide (wheel < 192)) (fun s =>
    let s' := placePinned s wheel 64
    let x := s'.wheel wheel
    if !wheelOn s wheel || wheelEvicting x || !anyRoom x || x.work.asking || x.work.gotEmpty || x.work.retry then s
    else if hasStartable s' wheel then s'
    else
      let s := modWork s' wheel fun k => { k with asking := true }
      gtally (tallyBare s wheel 0x140) 0x000 none) s

/-- Resumable tasks of a launch that may start on this wheel: a pinned one only on the wheel it left (R114). -/
def resumablesFor (w : Nat) (l : Launch) : List Resume :=
  if l.pinned then l.resumables.filter fun r => r.wheel == w else l.resumables

/-- The launch has tasks that the market may hand to the wheel (R104; 11 R400, R419). -/
def eligible (s : State) (w : Nat) (l : Launch) : Bool :=
  let x := s.wheel w
  let g := s.saggar l.saggar
  let fresh := !l.pinned && (decide (l.next < l.total) || l.returned != []) && decide (g.saved + contextBytes l.res ≤ g.cfg.saveSize)
  g.st == .on && g.cfg.rights.getLsbD w && classOk s x l.saggar l.cls && splitOk x l.res && decide (0 < furtherCrews x l.res) &&
  (resumablesFor w l != [] || fresh)

/-- Rank of a class (R105). -/
def clsRank (c : Nat) : Nat := 2 - min c 2

/-- Key of an eligible launch in the order of service: the launch offered to this wheel first, then class, pass, saggar,
resumables, ready tick, stream (R105; 11 R420 to R422). -/
def serveKey (s : State) (w id : Nat) (l : Launch) : List Nat :=
  [if l.offer = some w then 0 else 1, clsRank l.cls, passOf s l.saggar l.cls, l.saggar, if resumablesFor w l = [] then 1 else 0,
   l.ready, l.stream, id]

/-- Lexicographic order. -/
def keyLt : List Nat → List Nat → Bool
  | [], _ => false
  | _, [] => false
  | a :: l, b :: m => decide (a < b) || (a == b && keyLt l m)

/-- The launch the market serves next to the wheel. -/
def bestLaunch (s : State) (w : Nat) : Option (Nat × Launch) :=
  s.front.launches.foldl (fun best e =>
    if !eligible s w e.2 then best else
    match best with
    | none => some e
    | some b => if keyLt (serveKey s w e.1 e.2) (serveKey s w b.1 b.2) then some e else best) none

/-- The saggar pays for `n` tasks (11 R420). -/
def payPass (s : State) (l : Launch) (n : Nat) : State :=
  setPass s l.saggar l.cls (passOf s l.saggar l.cls + n * (65536 / (s.saggar l.saggar).cfg.weight))

/-- A hand-over inside the interactive window (11 R422). -/
def noteServed (s : State) (id : Nat) : State :=
  s.modLaunch id fun l => { l with
    served := l.served || decide (s.watch < l.window + s.img.interWait), offer := none }

/-- Hand tasks of a launch to the wheel: its resumable tasks, or its lowest unstarted ones (R105, R114). -/
def handOut (s : State) (w id : Nat) (l : Launch) : State :=
  let f := furtherCrews (s.wheel w) l.res
  let s := noteServed s id
  match resumablesFor w l with
  | q :: rest =>
    let took := (q :: rest).take (min f (64 - rangesHeld (s.wheel w)))
    let s := payPass (s.modLaunch id fun l => { l with resumables := l.resumables.filter fun r => !took.contains r }) l took.length
    let s := tally s w 0x142 l.saggar l.layer l.op took.length
    took.foldl (fun s r => acceptRange s w l { launch := id, first := r.task, count := 1, saved := some r })
      (gtally s 0x002 (some l.saggar) took.length)
  | [] =>
    let most := min 64 (2 * f)
    let (a, n, l') := match l.returned with
      | (a, m) :: rest =>
        let n := min m most
        (a, n, { l with returned := if n = m then rest else (a + n, m - n) :: rest })
      | [] => let n := min (l.total - l.next) most; (l.next, n, { l with next := l.next + n })
    let s := payPass (s.modLaunch id fun x => { x with returned := l'.returned, next := l'.next }) l n
    let s := gtally (tally s w 0x142 l.saggar l.layer l.op n) 0x002 (some l.saggar) n
    acceptRange s w l { launch := id, first := a, count := n }

/-- The market's answer reaches the wheel (R105): tasks, or EMPTY. What it may have on a reserved wheel it keeps (12 R441). A wheel
that holds 64 ranges or has no room for 64 tasks is answered EMPTY (log entry 92). -/
def execMarketAnswer (wheel : Nat) (s : State) : Out :=
  act (decide (wheel < 192)) (fun s =>
    let x := s.wheel wheel
    if !x.work.asking || !s.serving || s.frozen then s else
    let s := modWork s wheel fun k => { k with asking := false }
    if x.ctl.state != .on || x.ctl.stopGts.isSome then s else
    match (if 64 ≤ rangesHeld x || 448 < tasksHeld x then none else bestLaunch s wheel) with
    | some (id, l) => (handOut s wheel id l).modWheel wheel fun x => { x with work := { x.work with batches := x.work.batches + 1 } }
    | none =>
      let s := gtally (tallyBare s wheel 0x141) 0x001 none
      modWork s wheel fun k => if x.ctl.resv.isSome then { k with retry := true, retrySince := s.watch }
        else { k with gotEmpty := true, nextProbe := 0 }) s

/-! ### Stealing (R106 to R111) -/

/-- The victims of a wheel in order (R107); a fused-off wheel is no victim (00 R6). -/
def victims (s : State) (w : Nat) : List Nat :=
  let g := w / 8
  let d := w / 96
  let own := (List.range 7).map fun i => 8 * g + (w % 8 + i + 1) % 8
  let die := (List.range 11).flatMap fun i => (List.range 8).map fun j => 8 * (12 * d + (g % 12 + i + 1) % 12) + j
  let other := (List.range 96).map fun j => 96 * (1 - d) + j
  (own ++ die ++ other).filter fun v => s.present v

/-- STEAL_PROBE: a probe leaves for the next victim (R107). -/
def execStealProbe (wheel : Nat) (s : State) : Out :=
  act (decide (wheel < 192)) (fun s =>
    let x := s.wheel wheel
    if !wheelOn s wheel || !x.work.gotEmpty || x.work.probe.isSome || x.work.retry || x.ctl.resv.isSome || !anyRoom x then s else
    match (victims s wheel)[x.work.nextProbe]? with
    | none => modWork s wheel fun k => { k with retry := true, retrySince := s.watch }
    | some v =>
      let s := tallyBare s wheel (if v / 96 = wheel / 96 then 0x143 else 0x144)
      modWork s wheel fun k => { k with probe := some k.nextProbe, probeGave := none }) s

/-- What victim `v` gives the thief (R108): the upper half of its tail range, within its cap. -/
def stealFrom (s : State) (w v : Nat) : Option (TaskRange × Launch × Nat) :=
  let y := s.wheel v
  if y.ctl.resv.isSome then none else
  match y.work.deque.getLast? with
  | none => none
  | some r =>
    match s.launch? r.launch with
    | none => none
    | some l =>
      let x := s.wheel w
      let g := s.saggar l.saggar
      let n := min (min (min (r.count / 2) 64) (2 * furtherCrews x l.res)) (if rangesHeld x < 64 then 512 - tasksHeld x else 0)
      if l.pinned || !g.cfg.rights.getLsbD w || (v / 96 != w / 96 && g.cfg.placement != .interleaved) || !classOk s x l.saggar l.cls ||
        !splitOk x l.res || n = 0 then none
      else some (r, l, n)

/-- STEAL_PROBE_ARRIVAL: the probe is served at the victim's deque (R108, R110). -/
def execStealProbeArrival (wheel : Nat) (s : State) : Out :=
  act (decide (wheel < 192)) (fun s =>
    let x := s.wheel wheel
    match x.work.probe with
    | none => s
    | some p =>
      if x.work.probeGave.isSome || !s.serving || s.frozen then s else
      match (victims s wheel)[p]? with
      | none => modWork s wheel fun k => { k with probeGave := some none }
      | some v =>
        match (if (s.wheel v).ctl.state == .on then stealFrom s wheel v else none) with
        | none => modWork (tallyBare s wheel 0x147) wheel fun k => { k with probeGave := some none }
        | some (r, l, n) =>
          let s := modWork s v fun k => { k with
            given := k.given + 1, deque := k.deque.dropLast ++ [{ r with count := r.count - n }] }
          let s := tally s v 0x146 l.saggar l.layer l.op n
          modWork s wheel fun k => { k with
            probeGave := some (some { launch := r.launch, first := r.first + (r.count - n), count := n }) }) s

/-- STEAL_ANSWER: the answer returns to the thief (R107, R109); a stolen range that a reserved wheel may not run goes back to
the market (12 R441). -/
def execStealAnswer (wheel : Nat) (s : State) : Out :=
  act (decide (wheel < 192)) (fun s =>
    let x := s.wheel wheel
    match x.work.probeGave with
    | none => s
    | some a =>
      if !s.serving || s.frozen then s else
      let s := modWork s wheel fun k => { k with probe := none, probeGave := none }
      match a with
      | none =>
        modWork s wheel fun k =>
          if k.nextProbe + 1 < (victims s wheel).length then { k with nextProbe := k.nextProbe + 1 }
          else { k with retry := true, retrySince := s.watch }
      | some r =>
        let s := modWork s wheel fun k => { k with gotEmpty := false, nextProbe := 0 }
        match s.launch? r.launch with
        | none => s
        | some l =>
          let x := s.wheel wheel
          if x.ctl.state == .on && classOk s x l.saggar l.cls && splitOk x l.res && decide (rangesHeld x < 64) &&
              decide (tasksHeld x + r.count ≤ 512) then
            let s := modWork s wheel fun k => { k with taken := k.taken + 1 }
            acceptRange (tally s wheel 0x145 l.saggar l.layer l.op r.count) wheel l r
          else returnRange s wheel r) s

/-- IDLE_RETRY: 1,024 CORE cycles after a full probe order the wheel asks again (R111, 02 R40). -/
def execIdleRetry (wheel : Nat) (s : State) : Out :=
  act (decide (wheel < 192)) (fun s =>
    let x := s.wheel wheel
    if !wheelOn s wheel || !x.work.retry || s.watch < x.work.retrySince + 256 then s
    else modWork s wheel fun k => { k with retry := false, gotEmpty := false, nextProbe := 0 }) s

/-! ### Preemption by interactive work (11 R422) -/

/-- The crews of a wheel that a preemption leaves. -/
def nonBulk (s : State) (x : Wheel) : Tab Crew :=
  Tab.keep x.crews fun _ c => ((s.launch? c.launch).map Launch.cls).getD 0 != 0

/-- The wheel qualifies for the launch. -/
def qualifies (s : State) (l : Launch) (w : Nat) : Bool :=
  let x := s.wheel w
  let y := { x with crews := nonBulk s x }
  s.present w && (s.saggar l.saggar).cfg.rights.getLsbD w && x.ctl.state == .on && x.ctl.resv.isNone && x.ctl.preempt.isNone &&
  splitOk y l.res && decide (0 < furtherCrews y l.res)

/-- Resident bulk crews. -/
def bulkCrews (s : State) (w : Nat) : Nat := (s.wheel w).crews.length - (nonBulk s (s.wheel w)).length

/-- The wheel with the fewest bulk crews, the lowest on a tie. -/
def victimWheel (s : State) (l : Launch) : Option Nat :=
  ((List.range 192).filter (qualifies s l)).foldl (fun best w =>
    match best with
    | none => some w
    | some b => if bulkCrews s w < bulkCrews s b then some w else best) none

/-- INTERACTIVE_WAIT_EXPIRY: the launch has received no task in its window: a wheel's bulk crews are evicted for it, or a new
window opens. -/
def execInteractiveWaitExpiry (launch : Nat) (s : State) : Out :=
  act true (whenD (s.serving && !s.frozen) fun s =>
    match s.launch? launch with
    | none => s
    | some l =>
      if l.cls != 1 || l.pinned || l.served || s.watch < l.window + s.img.interWait then s else
      match victimWheel s l with
      | none => s.modLaunch launch fun l => { l with window := l.window + s.img.interWait }
      | some w =>
        (s.modLaunch launch fun l => { l with served := true }).modWheel w fun x => { x with ctl := { x.ctl with preempt := some launch } }) s

end Sys2Proof.Machine
end

