-- ==== Sys2Proof/Machine/WheelCtl.lean ====
section
/-!
DEFINITION. Clocks and states of a wheel, and evictions (02 R37 to R39, R57 to R59; 03 R111, R114 to R118; 04 R167; 06 R237;
10 R371; 11 R422).
-/
namespace Sys2Proof.Machine

def modCtl (s : State) (w : Nat) (f : WhlCtl → WhlCtl) : State := s.modWheel w fun x => { x with ctl := f x.ctl }

/-- Run on a wheel that is not fused off (00 R6) in a powered module (15 R513). -/
def onWheel (w : Nat) (f : State → State) (s : State) : Out :=
  act (decide (w < 192)) (whenD (s.serving && s.present w) f) s

/-- DROOP: the detector sets the CORE period, 4 (no stretch) to 16 root periods: it engages a stretch at once, and releases it by one
root period in a CORE cycle (02 R37). -/
def execDroop (wheel period : Nat) (s : State) : Out :=
  onWheel wheel (fun s =>
    let x := s.wheel wheel
    if period < 4 || 16 < period || period + 1 < x.ctl.period || x.ctl.stopGts.isSome then s
    else
      let s := if x.ctl.period = 4 ∧ 4 < period then tallyBare s wheel 0x14D else s
      modCtl s wheel fun c => { c with period := period }) s

/-- The first tick at which a clock that stops now does not run: every stamp of the wheel lies below it (02 R57, R58). -/
def stopTick (s : State) (c : WhlCtl) : Nat := if s.gts ≤ c.lastStamp then c.lastStamp + 1 else s.gts

/-- The wheel holds no crew and no task. -/
def wheelIdle (x : Wheel) : Bool := x.crews == [] && x.work.deque == [] && x.work.kept == []

/-- IDLE_GATE: a wheel idle for the image's time is power-gated (03 R111, 02 R38), unless a reservation holds it or the image
disables idle gating; a request to the market or a steal probe on its way puts it off (log entry 79). -/
def execIdleGate (wheel : Nat) (s : State) : Out :=
  onWheel wheel (fun s =>
    let x := s.wheel wheel
    if s.img.idleOff || s.frozen || x.ctl.state != .on || x.ctl.stopGts.isSome || !wheelIdle x || x.ctl.resv.isSome || x.ctl.waking ||
       x.ctl.preempt.isSome || x.work.asking || x.work.probe.isSome || s.watch < x.ctl.idleSince.getD 0 + s.img.idleTicks then s
    else modCtl s wheel fun c => { c with gated := true, stopGts := some (stopTick s c) }) s

/-- WHEEL_RESTART: the clock runs again after a request to wake (02 R39); a CLOCK_GAP record tells of the gap (R57, R59). A wheel
whose enable is set enters ON (03 R116). -/
def execWheelRestart (wheel : Nat) (s : State) : Out :=
  onWheel wheel (fun s =>
    let x := s.wheel wheel
    if !x.ctl.waking || x.ctl.state == .fenced then s else
    let s := modCtl s wheel fun c => { c with
      waking := false, gated := false, stopGts := none, state := if c.state == .off then .on else c.state
      gap := (match c.stopGts with | some a => some (a, s.gts, []) | none => c.gap)
      idleSince := some s.watch, lastStamp := max c.lastStamp s.gts }
    let s := modWork s wheel fun k => { k with retry := false, gotEmpty := false, nextProbe := 0 }
    match x.ctl.stopGts with
    | none => s
    | some a => offer s { gts := s.time.gts, type := 0x00, source := wheel, payload := payload [(a, 64), (s.gts, 0)], mod := true }) s

/-- WHL_CTL_ENABLE: write 1 to ENABLE (R115, R116, R118). -/
def execWhlCtlEnable (wheel : Nat) (s : State) : Out :=
  onWheel wheel (fun s =>
    let x := s.wheel wheel
    match x.ctl.state with
    | .fenced => s
    | .draining => modCtl s wheel fun c => { c with enable := true, state := .pendingOn }
    | .off => modCtl s wheel fun c => { c with enable := true, waking := true }
    | _ => modCtl s wheel fun c => { c with enable := true }) s

/-- WHL_CTL_DISABLE: write 0 to ENABLE; the wheel leaves its reservation's window (12 R442), drains, and its unstarted tasks go back
(R115, R116). -/
def execWhlCtlDisable (wheel : Nat) (s : State) : Out :=
  onWheel wheel (fun s =>
    let x := s.wheel wheel
    match x.ctl.state with
    | .fenced => s
    | .on => returnAll (modCtl s wheel fun c => { c with enable := false, state := .draining, resv := none }) wheel
    | .off => modCtl s wheel fun c => { c with enable := false, waking := false }
    | _ => modCtl s wheel fun c => { c with enable := false, state := .draining }) s

/-- WHL_CTL_EVICT: write 1 to EVICT; ignored but in DRAINING (R117). -/
def execWhlCtlEvict (wheel : Nat) (s : State) : Out :=
  onWheel wheel (fun s =>
    if (s.wheel wheel).ctl.state == .draining then modCtl s wheel fun c => { c with evict := true } else s) s

/-- The wheel enters OFF: its tasks return, its permits go (14 R504), and it is power-gated (R115). `wake`: a latched enable takes it on
into ON by a restart (R116). -/
def wheelOff (s : State) (w : Nat) (wake : Bool) : State :=
  modCtl (dropPermits (returnAll s w) fun p => decide (p.kind ≤ 1) && p.unit == w) w fun c => { c with
    state := .off, gated := true, stopGts := some (c.stopGts.getD (stopTick s c)), evict := false, resv := none, waking := wake }

/-- WHEEL_DRAIN_END: no crew remains: the wheel is OFF, from where a latched enable restarts it into ON (R115, R116). -/
def execWheelDrainEnd (wheel : Nat) (s : State) : Out :=
  onWheel wheel (fun s =>
    let x := s.wheel wheel
    if x.crews != [] then s else
    match x.ctl.state with
    | .draining => wheelOff s wheel false
    | .pendingOn => wheelOff s wheel true
    | _ => s) s

/-! ### Evictions -/

/-- Nothing of the crew but what its context saves is in flight: begun array and matrix-vector entries, copies, stores and reads have
ended (04 R167). -/
def quiescent (s : State) (w : Nat) (c : Crew) : Bool :=
  let x := s.wheel w
  !(x.eng.mxq.any fun e => e.uid == c.uid && e.started) && !(x.eng.mvq.any fun e => e.uid == c.uid && e.begun) &&
  !(x.eng.copies.any fun e => e.uid == c.uid) && !(x.mem.store.any fun e => e.uid == c.uid) &&
  !(x.mem.reads.any fun e => e.uid == c.uid && (match e.dest with
      | .wait _ => false
      | _ => true)) &&
  !(s.crier.arrivals.any fun e => e.2.uid == c.uid) && !(s.crier.gwakes.any fun e => e.2.uid == c.uid)

/-- The context's bytes reach the save area through the copy engine (11 R399). Where in the area they lie and how they are laid out is
not stated: the place and every byte are free values (log entry 68). -/
def saveContext (s : State) (k : Nat) (r : Res) : State :=
  let g := (s.saggar k).cfg
  let n := contextBytes r
  let (v, s) := s.free
  let off := 4096 * (v.toNat % ((g.saveSize - n) / 4096 + 1))
  (List.range (n / 32)).foldl (fun s j =>
    match translate s k (g.saveArea + BitVec.ofNat 64 (off + 32 * j)) with
    | none => s
    | some (pa, _) =>
      let (v, s) := s.free
      performWrite s pa (leBytes 32 v.toNat) 0) s

/-- The MX-class instructions of the crew that are withdrawn, waiting in the queues: how many, and the address of the earliest (04 R167). -/
def withdrawn (x : Wheel) (uid : Nat) : Nat × Option DWord :=
  let l := (x.eng.mxq.filter fun e => e.uid == uid && !e.started).map (fun e => (e.id, e.pc)) ++
    (x.eng.mvq.filter fun e => e.uid == uid && !e.begun).map fun e => (e.id, e.pc)
  (l.length, (l.foldl (fun (b : Option (Nat × DWord)) e => match b with
    | none => some e
    | some f => if e.1 < f.1 then some e else b) none).map Prod.snd)

/-- The crew's threads resume at a withdrawn instruction (04 R167): every live thread, as one path, since the crew had converged there
(04 R137; log entry 35). -/
def rewind (c : Crew) (pc : DWord) : Crew :=
  { c with paths := [(0, { pc, mask := c.live })], splits := [], bells := [], mxSince := none, lastPath := none }

/-- An arrival for which a path of the crew waits at a group bell is withdrawn: the path arrives anew. -/
def unarrive (s : State) (c : Crew) : State :=
  c.paths.foldl (fun s p => match p.2.wait with
    | .gbell h ph =>
      let g := gbell s c.saggar h
      if g.phase = ph then setGbell s c.saggar h { g with
        arrived := g.arrived.filter (· != c.uid), since := if g.arrived.filter (· != c.uid) = [] then none else g.since } else s
    | _ => s) s

/-- Save a crew's context and return its task to the market (R114, R117); its save bytes stay held (11 R400). -/
def evictCrew (s : State) (w slot : Nat) (c : Crew) : State :=
  let x := s.wheel w
  let (n, back) := withdrawn x c.uid
  let mine := s.crier.waits.filter fun e => waitOf w slot c.uid e.2
  let r : Resume := {
    task := c.task, crew := match back with
      | none => c
      | some pc => rewind c pc
    vec := x.eng.vecq.filter fun e => e.uid == c.uid, waits := if back.isSome then [] else mine.map Prod.snd, wheel := w }
  let s := if back.isSome then unarrive s c else s
  let s := tally (saveContext s c.saggar c.res) w 0x07E c.saggar c.layer c.operator n
  let s := s.modWheel w fun x => lingers x (entryFrees (withdraw (leaveSlot x slot) c.uid)) s.watch
  let s := { s with crier := { s.crier with waits := s.crier.waits.filter fun e => !waitOf w slot c.uid e.2 } }
  let s := modCtl s w fun k => { k with idleSince := some s.watch }
  returnRange s w { launch := c.launch, first := c.task, count := 1, saved := some r }

/-- The PREEMPT record of a preemption, to both saggars' ledgers (11 R422, R426). -/
def preemptRecord (s : State) (w : Nat) (l : Launch) (gone : List Crew) : State :=
  let ks := (gone.map Crew.saggar).eraseDups
  let k := match ks with
    | [k] => k
    | _ => 0xFFF
  record s 0x23 518 l.saggar (payload [(l.stream, 108), (l.saggar, 96), (w, 88), (gone.length, 80), (k, 68), (s.gts, 0)])
    (l.saggar :: ks).eraseDups false

/-- EVICTION_COMPLETE: every crew to be evicted is saved and its task is in the market again. -/
def execEvictionComplete (wheel : Nat) (s : State) : Out :=
  onWheel wheel (fun s =>
    let x := s.wheel wheel
    let out := x.crews.filter fun e => evicting s wheel e.2
    if s.frozen || out.any (fun e => !quiescent s wheel e.2) || !(wheelEvicting x || (x.ctl.resv.isSome && out != [])) then s else
    let s := out.foldl (fun s e => tallyCrew s wheel e.2 (if x.ctl.evict then 0x149 else 0x14A)) s
    let s := out.foldl (fun s e => evictCrew s wheel e.1 e.2) s
    let s := modCtl s wheel fun c => { c with evict := false, preempt := none }
    match x.ctl.preempt with
    | none => s
    | some id =>
      let s := { s with front := { s.front with preempts := s.front.preempts + 1 } }
      match s.launch? id with
      | none => s
      | some l =>
        let s := preemptRecord s wheel l (out.map Prod.snd)
        let s := s.modLaunch id fun l => { l with offer := some wheel }
        modWork s wheel fun k => { k with retry := false, gotEmpty := false, nextProbe := 0 }) s

end Sys2Proof.Machine
end

