-- ==== Sys2Proof/Machine/Fences.lean ====
section
/-!
DEFINITION. Error reports and fences (16 R544 to R561; 08 R322 to R327).
-/
namespace Sys2Proof.Machine

/-! ### Units -/

/-- The compute die of a unit of R548, where it lies on one. -/
def unitDie (kind index : Nat) : Option Nat :=
  match kind with
  | 0 => some (index / 96)
  | 1 => some (index / 64)
  | 2 => some (index / 256)
  | 3 => some (index / 4)
  | 4 => some index
  | _ => none

/-- The unit is FENCED. -/
def fenced (s : State) (kind index : Nat) : Bool :=
  match kind with
  | 0 => (s.wheel index).ctl.state == .fenced
  | 1 => (s.slice index).state == 2
  | 2 => (s.pc index).state == 2
  | 3 => (s.stack index).state == 2
  | 4 => s.fen.dies.getLsbD index
  | 5 => s.fen.d2d
  | 6 => s.fen.hubLinks.getLsbD index
  | 7 => (s.port index).st == .fenced
  | 8 => (s.port (24 + index)).st == .fenced
  | 9 => s.fen.ctgs.getLsbD index
  | 10 => (s.grn index).state == .fenced
  | _ => false

/-- The unit is fencing or FENCED, or its die is (R558): a further trigger starts no fence. -/
def down (s : State) (kind index : Nat) : Bool :=
  fenced s kind index || fencing s kind index ||
  (match unitDie kind index with
   | some d => s.fen.dies.getLsbD d && !fencing s 4 d
   | none => false)

/-- The module has the unit (R548, 00 R5, R9; 02 R50: no frame engine but on F768, no granary port nor tier mover on C384). -/
def unitExists (s : State) (kind index : Nat) : Bool :=
  match kind with
  | 0 => s.present index
  | 1 => decide (index < 128)
  | 2 => decide (index < 512)
  | 3 => decide (index < 8)
  | 4 => decide (index < 2)
  | 5 => index == 0
  | 6 => decide (index < 2)
  | 7 => decide (index < 24)
  | 8 => decide (index < 8)
  | 9 => decide (index < 8)
  | 10 => decide (index < 4) && s.fuse.variant != 3
  | 11 => decide (index < 107) && !(decide (24 ≤ index) && decide (index < 32) && s.fuse.variant != 1) &&
      !(decide (32 ≤ index) && decide (index < 40) && s.fuse.variant == 3)
  | 12 => index == 0
  | _ => false

/-- The source number of a unit (01 R23, 02 R49); a unit without one is told of by the fence controller. -/
def unitSource (kind index : Nat) : Nat :=
  match kind with
  | 0 => index
  | 1 => 256 + index
  | 7 => 768 + index
  | 8 => 792 + index
  | 9 => 800 + index
  | 10 => 544 + index
  | 11 => 512 + index
  | _ => 514

/-! ### Fences (R549 to R553, R556) -/

/-- Saggars whose rights name a wheel of the list (R560). -/
def rightsOver (s : State) (ws : List Nat) : List Nat :=
  s.front.saggars.filterMap fun (e : Nat × Saggar) =>
    if (e.2.st == .on || e.2.st == .draining) && ws.any (e.2.cfg.rights.getLsbD ·) then some e.1 else none

/-- A wheel whose crews are gone leaves service (R551): its tasks return, its permits and L1 go. Its clock runs until the shut-down ends
(02 R38). -/
def stopWheel (s : State) (w : Nat) : State :=
  let x := s.wheel w
  let s := match x.work.probeGave with
    | some (some r) => returnRange s w r
    | _ => s
  let s := returnAll s w
  let s := dropPermits s fun p => decide (p.kind ≤ 1) && p.unit == w
  s.modWheel w fun x => { x with
    ctl := { x.ctl with state := .fenced, evict := false, waking := false, resv := none, preempt := none }
    work := { x.work with asking := false, gotEmpty := false, probe := none, probeGave := none, retry := false, nextProbe := 0 }
    eng := { roles := [] }
    mem := { x.mem with reads := [], l1 := [], tlb := [] } }

/-- The shut-down of a FENCED wheel has ended: it is power-gated and its clock stops (02 R38, R551). -/
def gateFenced (s : State) (w : Nat) : State :=
  modCtl s w fun c => if c.state == .fenced then { c with gated := true, stopGts := some (c.stopGts.getD (stopTick s c)) } else c

/-- A crew's first path's address. -/
def crewPc (c : Crew) : DWord := (c.paths.head?.map fun (e : Nat × CPath) => e.2.pc).getD 0

/-- A die fence starts (R553, R556): its wheels stop without a save; a second die ends the module (R553). -/
def fenceDie (s : State) (d etype parent : Nat) : State :=
  if s.fen.dies.getLsbD d then s
  else if s.fen.dies != 0 then enterFailed s 5 4 d etype
  else
    let ws := (List.range 96).map (96 * d + ·)
    let dests := rightsOver s ws
    let s := ws.foldl (fun s w =>
      if !s.present w || (s.wheel w).ctl.state == .fenced then s else
      let s := ((s.wheel w).crews.map Prod.fst).foldl (fun s slot => dropCrew s w slot) s
      (stopWheel s w).modWheel w fun x => { x with mem := {} }) s
    let s := openFence s { kind := 4, index := d, etype, parent, dests }
    { s with fen := { s.fen with dies := s.fen.dies ||| (1#2 <<< d) } }

/-- Wheels of a die that are fenced. -/
def fencedWheels (s : State) (d : Nat) : Nat :=
  ((List.range 96).filter fun i => (s.wheel (96 * d + i)).ctl.state == .fenced).length

/-- A wheel is fenced (R550, R551); more than 48 of a die fence the die (R553). -/
def fenceWheel (s : State) (w etype parent : Nat) : State :=
  let crews := (s.wheel w).crews
  let dests := (crews.map (fun (e : Nat × Crew) => e.2.saggar) ++ rightsOver s [w]).eraseDups
  let s := crews.foldl (fun s (e : Nat × Crew) =>
    match s.crew? w e.1 with
    | some c => if c.uid = e.2.uid then crewFault s w e.1 fOperand (crewPc c) else s
    | none => s) s
  let s := ((s.wheel w).crews.map Prod.fst).foldl (fun s slot => dropCrew s w slot) s
  let s := openFence (stopWheel s w)
    { kind := 0, index := w, etype, parent, dests, faulted := (crews.map fun (e : Nat × Crew) => e.2.stream).eraseDups.length }
  if 48 < fencedWheels s (w / 96) then fenceDie s (w / 96) 0xE 0 else s

/-- A stack is fenced, and its die with it (08 R324). -/
def fenceStack (s : State) (n etype parent : Nat) : State :=
  let s := openFence (s.setStack n { s.stack n with state := 2 }) { kind := 3, index := n, etype, parent }
  fenceDie s (n / 4) 0xE 3

/-- A pseudo-channel is fenced (08 R323, R324): the first of its stack migrates into the spare areas. -/
def fencePc (s : State) (n etype parent : Nat) : State :=
  let st := n / 64
  let k := s.stack st
  let s := openFence s { kind := 2, index := n, etype, parent }
  if k.spareUsed then fenceStack (s.setPc n { s.pc n with state := 2 }) st 0xE 2
  else (s.setStack st { k with spareUsed := true, sparePc := n % 64 }).setPc n { s.pc n with state := 1, since := s.time.gts }

/-- A slice is fenced (08 R325): its homes pass to its partner, or the die is fenced when the partner is. -/
def fenceSlice (s : State) (c etype parent : Nat) : State :=
  let partner := (s.slice (c ^^^ 1)).state != 0
  let s := openFence (s.setSlice c { s.slice c with state := 1 }) { kind := 1, index := c, etype, parent }
  if partner then fenceDie s (c / 64) 0xE 1 else s

/-- An expander is fenced (R552): its accesses return poison. -/
def fenceExpander (s : State) (n etype parent : Nat) : State :=
  let s := dropPermits s fun p => p.kind == 3 && p.unit == 544 + n
  openFence (s.setGrn n { s.grn n with state := .fenced, linkUp := false }) { kind := 10, index := n, etype, parent }

/-- Start the fence of a unit by the table of R549; the die links fence a die (R553). -/
def fenceUnit (s : State) (kind index etype parent : Nat) : State :=
  match kind with
  | 0 => fenceWheel s index etype parent
  | 1 => fenceSlice s index etype parent
  | 2 => fencePc s index etype parent
  | 3 => fenceStack s index etype parent
  | 4 => fenceDie s index etype parent
  | 5 => fenceDie (openFence { s with fen := { s.fen with d2d := true } } { kind, index, etype, parent }) 1 0xE 5
  | 6 => fenceDie (openFence { s with fen := { s.fen with hubLinks := s.fen.hubLinks ||| (1#2 <<< index) } }
      { kind, index, etype, parent }) index 0xE 6
  | 10 => fenceExpander s index etype parent
  | _ => s

/-- A trigger of a fence: recorded, and the fence starts unless the unit is fencing or FENCED (R545, R558). -/
def trigger (s : State) (kind index etype : Nat) (saggar stream count pa : Nat) : State :=
  let cls := if kind = 4 ∨ kind = 5 ∨ kind = 6 then ecHalf else ecUnit
  let was := down s kind index
  let s := unitError s (unitSource kind index) cls kind index etype saggar stream count pa
  if was then s else fenceUnit s kind index etype 15

/-! ### Error windows and counts (R546, R550, R552; 08 R322, R325) -/

def wheelErr (s : State) (w : Nat) : WheelErr := Tab.get {} s.fen.wheelErr w
def setWheelErr (s : State) (w : Nat) (e : WheelErr) : State :=
  { s with fen := { s.fen with wheelErr := Tab.put {} s.fen.wheelErr w e } }

/-- What a unit's corrected count of its window leads to: the record at half its limit (R546), the fence beyond it; a unit recovered in the
same window is fenced by its next error. -/
def judgeCorrected (s : State) (kind index n limit : Nat) : State :=
  if n = limit + 1 || (limit < n && !down s kind index) then trigger s kind index 1 0xFFF 0xFFFFF n 0
  else if n = limit / 2 then unitError s (unitSource kind index) ecCorrected kind index 1 0xFFF 0xFFFFF n
  else s

/-- A corrected error (R546). -/
def corrected (s : State) (kind index : Nat) : State :=
  match kind with
  | 0 =>
    let e := wheelErr s index
    let s := tallyBare s index 0x1C5
    judgeCorrected (setWheelErr s index { e with ce := e.ce + 1 }) 0 index (e.ce + 1) 256
  | 1 =>
    let c := s.slice index
    judgeCorrected (s.setSlice index { c with ce := c.ce + 1, ceWin := c.ceWin + 1 }) 1 index (c.ceWin + 1) 256
  | 2 =>
    let c := s.pc index
    judgeCorrected (s.setPc index { c with ce := c.ce + 1, ceWin := c.ceWin + 1 }) 2 index (c.ceWin + 1) (16 * s.img.ceLimit)
  | 10 => s.setGrn index { s.grn index with ce := (s.grn index).ce + 1 }
  | _ => s

/-- One more error of a unit in its window: contained, or the trigger of a fence at `limit` (R544, R549). -/
def countUnc (s : State) (e : ErrReport) (n limit : Nat) : State :=
  if limit ≤ n then trigger s e.kind e.index e.etype e.saggar e.stream n e.addr
  else unitError s (unitSource e.kind e.index) ecContained e.kind e.index e.etype e.saggar e.stream n e.addr

/-- The stream of a hub operation that met an error faults, and the operation writes nothing further (R547). -/
def failHubOp (s : State) (e : ErrReport) : State :=
  let s := unitError s (512 + e.index) ecContained 11 e.index e.etype e.saggar e.stream 1 e.addr
  if 2 ^ 20 ≤ e.stream || (s.stream e.stream).st = 0 then s else
  let s := ((s.front.tier.filter fun (j : Nat × TierJob) => j.2.stream == e.stream && 36 ≤ e.index).map Prod.fst).foldl endTier s
  let s := { s with link := { s.link with jobs := s.link.jobs.filter fun (j : Nat × GJob) => j.2.stream != e.stream } }
  frontFault s e.stream fOperand 0xFFFFF 0xFFF

/-- Hub engines whose errors are contained (R547): mailbox, stream context cache, collective channels, flows, tier channels, the
securing engine. -/
def containedHub (i : Nat) : Bool :=
  i == 4 || i == 7 || (decide (8 ≤ i) && decide (i < 32)) || (decide (36 ≤ i) && decide (i ≤ 40))

/-- One more uncorrectable error of a wheel's own SRAM in its window (04 R166, R550). -/
def ownError (s : State) (e : ErrReport) : State :=
  let x := wheelErr s e.index
  let s := tally s e.index 0x1C6 e.saggar 0xFFFFF 0xFFF
  countUnc (setWheelErr s e.index { x with ue := x.ue + 1 }) e (x.ue + 1) 2

/-- An uncorrectable error in data (R547, 08 R321, 04 R166); on a die link it fences a die (R553). -/
def uncorrectable (s : State) (e : ErrReport) : State :=
  match e.kind with
  | 0 =>
    ownError (match s.crew? e.index e.slot with
      | some c => crewFault s e.index e.slot fOperand (crewPc c)
      | none => s) e
  | 1 =>
    let c := s.slice e.index
    countUnc (setPoison (s.setSlice e.index { c with ueWin := c.ueWin + 1 }) e.addr) e (c.ueWin + 1) 2
  | 2 =>
    let c := s.pc e.index
    countUnc (setPoison (s.setPc e.index { c with ueWin := c.ueWin + 1 }) e.addr) e (c.ueWin + 1) 2
  | 5 => trigger s 5 e.index e.etype e.saggar e.stream 1 e.addr
  | 6 => trigger s 6 e.index e.etype e.saggar e.stream 1 e.addr
  | 11 =>
    if !containedHub e.index then enterFailed s 9 11 e.index e.etype
    else if 24 ≤ e.index ∧ e.index < 32 then
      let s := unitError s (512 + e.index) ecContained 11 e.index e.etype e.saggar e.stream 1 e.addr
      s.modFlow (e.index - 24) fun f => { f with emission := f.emission.map fun m => { m with poisoned := true } }
    else if e.index = 7 && !e.dirty then
      unitError s 519 ecContained 11 7 e.etype e.saggar e.stream 1 e.addr
    else failHubOp s e
  | _ => s

/-- Counts begin when GTS starts (08 R330): until READY an error adds to its unit's counts only. -/
def countEarly (s : State) (e : ErrReport) : State :=
  match e.kind, e.etype with
  | 1, 1 => s.setSlice e.index { s.slice e.index with ce := (s.slice e.index).ce + 1, ceWin := (s.slice e.index).ceWin + 1 }
  | 1, 2 => setPoison (s.setSlice e.index { s.slice e.index with ueWin := (s.slice e.index).ueWin + 1 }) e.addr
  | 2, 1 => s.setPc e.index { s.pc e.index with ce := (s.pc e.index).ce + 1, ceWin := (s.pc e.index).ceWin + 1 }
  | 2, 2 => setPoison (s.setPc e.index { s.pc e.index with ueWin := (s.pc e.index).ueWin + 1 }) e.addr
  | 10, 1 => s.setGrn e.index { s.grn e.index with ce := (s.grn e.index).ce + 1 }
  | 10, 3 => setPoison (s.setGrn e.index { s.grn e.index with poison := (s.grn e.index).poison + 1
                                                              poisonWin := (s.grn e.index).poisonWin + 1 }) e.addr
  | _, _ => s

/-- ERROR_REPORT: the fence controller takes a report (R545): the error's class and what it starts follow from the unit and the
error type alone. -/
def execErrorReport (e : ErrReport) (s : State) : Out :=
  act (unitExists s e.kind e.index) (fun s =>
    if e.etype = 13 then
      (if e.kind = 12 && (s.serving || (starting s && s.time.locked)) then enterFailed s 3 12 0 13 else s)
    else if !s.serving then (if starting s && s.time.locked then countEarly s e else s)
    else match e.etype with
      | 1 => corrected s e.kind e.index
      | 2 => uncorrectable s e
      | 3 =>
        if e.kind != 10 then s else
        let g := s.grn e.index
        countUnc (setPoison (s.setGrn e.index { g with poison := g.poison + 1, poisonWin := g.poisonWin + 1 }) e.addr) e (g.poisonWin + 1) 16
      | 5 => if e.kind = 5 ∨ e.kind = 6 then trigger s e.kind e.index 5 0xFFF 0xFFFFF 1 0 else s
      | 7 => if e.kind = 10 then trigger s 10 e.index 7 0xFFF 0xFFFFF 1 0 else s
      | 8 => if e.kind = 0 then trigger s 0 e.index 8 0xFFF 0xFFFFF 1 0
        else if e.kind = 11 then enterFailed s 9 11 e.index 8 else s
      | 10 => if e.kind = 0 then trigger s 0 e.index 10 0xFFF 0xFFFFF 1 0
        else if e.kind = 11 then enterFailed s 9 11 e.index 10 else s
      | 12 => if e.kind = 12 then enterFailed s 2 12 0 12 else s
      | _ => s) s

/-- ERROR_WINDOW_END: in the tick in which a window of 2^30 ticks has ended, once, the counts of a unit's window end (02 R56, 08 R322). -/
def execErrorWindowEnd (kind index : Nat) (s : State) : Out :=
  act (unitExists s kind index) (whenD (s.serving && !s.frozen && s.windowEnds (2 ^ 30) (Tab.get 0 s.fen.ended (4096 * kind + index))) fun s =>
    let s := { s with fen := { s.fen with ended := Tab.put 0 s.fen.ended (4096 * kind + index) s.watch } }
    match kind with
    | 0 => setWheelErr s index {}
    | 1 => s.setSlice index { s.slice index with ceWin := 0, ueWin := 0 }
    | 2 => s.setPc index { s.pc index with ceWin := 0, ueWin := 0 }
    | 10 => s.setGrn index { s.grn index with poisonWin := 0 }
    | _ => s) s

/-- HBM_SCRUB: a controller has read every line of its stack, once in each 24 hours of GTS, and written back the lines it corrected (08
R320): one corrected error
in each pseudo-channel listed, as often as listed. -/
def execHbmScrub (stack : Nat) (pcs : List Nat) (s : State) : Out :=
  act (decide (stack < 8)) (whenD ((s.serving || (starting s && s.time.locked)) && Tab.get 0 s.ms.scrubs stack != s.gts / 34560000000000 + 1) fun s =>
    let s := { s with ms := { s.ms with scrubs := Tab.put 0 s.ms.scrubs stack (s.gts / 34560000000000 + 1) } }
    (pcs.filter fun n => n / 64 == stack).foldl (fun s n => if s.serving then corrected s 2 n else countEarly s { kind := 2, index := n, etype := 1 }) s) s

/-- PC_MIGRATION_END: the lines of a fenced pseudo-channel lie in the spare areas; those it could not read are poisoned (08 R323). -/
def execPcMigrationEnd (pc : Nat) (unreadable : List Nat) (s : State) : Out :=
  act (decide (pc < 512)) (whenD (s.serving && (s.pc pc).state == 1 && !s.fen.dies.getLsbD (pc / 256)) fun s =>
    let s := (unreadable.filter fun a => nearTier a && (stackPc a).1 * 64 + (stackPc a).2 == pc).foldl setPoison s
    closeUnit (s.setPc pc { s.pc pc with state := 2 }) 2 pc) s

/-- SLICE_TRANSFER_END: a fenced slice has written its dirty lines back, the unreadable ones as poison, and its partner homes its
lines (08 R325). -/
def execSliceTransferEnd (slice : Nat) (unreadable : List Nat) (s : State) : Out :=
  act (decide (slice < 128)) (whenD (s.serving && (s.slice slice).state == 1 && !s.fen.dies.getLsbD (slice / 64)) fun s =>
    let s := (unreadable.filter fun a => homeSlice s a == slice).foldl setPoison s
    let s := s.setSlice slice { s.slice slice with state := 2, sets := [] }
    closeUnit (s.setSlice (slice ^^^ 1) { s.slice (slice ^^^ 1) with carries := true }) 1 slice) s

/-! ### Recovery (R563): what a request meets -/

/-- Start a recovery, or answer without an attempt. -/
def startRecovery (s : State) (kind index : Nat) : State :=
  let res := fun (r : Nat) => { s with fen := { s.fen with recResult := r, recs := s.fen.recs.filter fun e => !(e.1 == kind && e.2.1 == index) } }
  let c := s.ctg index
  let owned := (kind == 10) && s.ms.frames.any fun (f : Nat × Frame) =>
    f.2.st != .free && granaryBase ≤ 65536 * f.1 && (stripedBase ≤ 65536 * f.1 || expanderOf (65536 * f.1) == index)
  if !(kind == 0 || kind == 7 || kind == 8 || kind == 9 || kind == 10) then res 2
  else if owned then res 4
  else if (kind == 8 && (!c.present || c.fault)) || (kind == 9 && !c.present) then res 1
  else
    let rest := s.fen.recs.filter fun e => !(e.1 == kind && e.2.1 == index)
    { s with fen := { s.fen with recResult := 0, recs := (kind, index, true) :: rest } }

/-- A recovery latched behind the unit's fence starts (R558). -/
def latchedRecovery (s : State) (kind index : Nat) : State :=
  if s.fen.recs.contains (kind, index, false) then startRecovery s kind index else s

/-- Saggars a die fence destroys (R556). -/
def diesWith (s : State) (d : Nat) : List Nat :=
  s.front.saggars.filterMap fun (e : Nat × Saggar) =>
    if e.2.st == .on && (e.2.cfg.placement == .interleaved || e.2.cfg.placement == .die d) then some e.1 else none

/-- A transfer or a migration on a lost die will never end: the unit is FENCED (08 R330). -/
def endHalf (s : State) (kind index : Nat) : State :=
  match kind with
  | 1 => s.setSlice index { s.slice index with state := 2 }
  | 2 => s.setPc index { s.pc index with state := 2 }
  | _ => s

/-- The die fence is complete: FENCED_HALF, and its saggars drain (R556). Fences of units of the die complete with it. -/
def halve (s : State) (id : Nat) (j : FenceJob) : State :=
  let d := j.index
  let ks := diesWith s d
  let s := { s with hub := { s.hub with fencedDie := d } }
  let s := setHub s .fencedHalf
  let s := ks.foldl (fun s k => destroySaggar s k 1) s
  let gone := fun (c : Nat) (x : Sys2Proof.Slice) => if c / 64 = d then { x with sets := [] } else x
  let s := { s with ms := { s.ms with slices := (Tab.mapv s.ms.slices gone).filter fun (e : Nat × Sys2Proof.Slice) => e.2 != ({} : Sys2Proof.Slice) } }
  let inner := s.fen.jobs.filter fun (e : Nat × FenceJob) => e.1 != id &&
    ((e.2.kind != 4 && unitDie e.2.kind e.2.index == some d) || e.2.kind == 5 || e.2.kind == 6)
  let s := inner.foldl (fun s (e : Nat × FenceJob) => closeFence (endHalf s e.2.kind e.2.index) e.1 e.2) s
  let s := (List.range 96).foldl (fun s i => if s.present (96 * d + i) then gateFenced s (96 * d + i) else s) s
  let s := closeFence s id { j with killed := ks.length, dests := (j.dests ++ ks).eraseDups }
  inner.foldl (fun s (e : Nat × FenceJob) => latchedRecovery s e.2.kind e.2.index) s

/-- FEN_RECOVER names a unit. -/
def execFenRecover (value : Word) (s : State) : Out :=
  act true (whenD (hostUp s && s.serving) fun s =>
    let kind := bits value.toNat 28 4
    let index := bits value.toNat 0 12
    let s := { s with fen := { s.fen with recKind := kind, recIndex := index } }
    if s.fen.recs.any fun e => e.1 == kind && e.2.1 == index then { s with fen := { s.fen with recResult := 3 } }
    else if !(kind == 0 || kind == 7 || kind == 8 || kind == 9 || kind == 10) then startRecovery s kind index
    else if !unitExists s kind index || !(fenced s kind index || fencing s kind index) then { s with fen := { s.fen with recResult := 5 } }
    else if fencing s kind index then { s with fen := { s.fen with recResult := 0, recs := (kind, index, false) :: s.fen.recs } }
    else startRecovery s kind index) s

/-- FENCE_COMPLETE: a fence completes within its bound (R549); those of slices and of migrating pseudo-channels end by their own
events, those of units of a fencing die with it; a wheel's once its store path is empty, and the wheel is then power-gated. A latched
recovery then starts (R558). -/
def execFenceComplete (id : Nat) (s : State) : Out :=
  act true (whenD s.serving fun s =>
    match Tab.find s.fen.jobs id with
    | none => s
    | some j =>
      if j.kind = 4 then halve s id j
      else if j.kind = 1 ∨ j.kind = 2 ∨ j.kind = 3 ∨ j.kind = 5 ∨ j.kind = 6 then s
      else if (match unitDie j.kind j.index with
          | some d => fencing s 4 d
          | none => false) then s
      else if j.kind = 0 then
        if (s.wheel j.index).mem.store != [] then s
        else latchedRecovery (closeFence (gateFenced s j.index) id j) j.kind j.index
      else
        latchedRecovery (closeFence s id j) j.kind j.index) s

end Sys2Proof.Machine
end

