-- ==== Sys2Proof/Machine/Media.lean ====
section
/-!
DEFINITION. Media time and the edges of flows (02 R60, R64; 12 R427 to R431): rates, alignment points, predictions.
-/
namespace Sys2Proof.Machine

/-! ### Media time in units of 2^-41 ns -/

/-- Units of a second. -/
def mtSecond : Nat := 10 ^ 9 * 2 ^ 41

/-- Media time gained in a tick (R60): 2.5 ns × (1 + ρ), ρ in units of 2^-40. -/
def mtStep (s : State) : Nat := (5 * (2 ^ 40 + s.time.rate)).toNat

def mtSecs (mt : Nat) : Nat := mt / mtSecond
/-- Nanoseconds of the second, truncated. -/
def mtNanos (mt : Nat) : Nat := mt % mtSecond / 2 ^ 41

/-- TIM_PTP_CFG (R71). -/
def ptpOn (s : State) : Bool := s.img.ptpCfg.getLsbD 31
/-- 0 NONE, 1 PTP, 2 GENLOCK. -/
def timeSource (s : State) : Nat := bits s.img.ptpCfg.toNat 29 2

/-! ### Flows as the image defines them (12 R431, 15 R530) -/

def flowImg (s : State) (f : Nat) : List Byte := s.img.flows.getD f []
def flowCfg (s : State) (f : Nat) : Nat := lf (flowImg s f) 0 4
def flowDefined (s : State) (f : Nat) : Bool := bits (flowCfg s f) 31 1 == 1
def flowPort (s : State) (f : Nat) : Nat := bits (flowCfg s f) 16 3
def flowOffset (s : State) (f : Nat) : Nat := lf (flowImg s f) 4 4
def flowGuard (s : State) (f : Nat) : Nat := lf (flowImg s f) 8 4

/-- Frames per second of a RATE code as numerator and denominator (R427). -/
def rateOf (code : Nat) : Nat × Nat :=
  match code with
  | 0 => (24000, 1001)
  | 1 => (24, 1)
  | 2 => (25, 1)
  | 3 => (30000, 1001)
  | 4 => (30, 1)
  | 5 => (48000, 1001)
  | 6 => (48, 1)
  | 7 => (50, 1)
  | 8 => (60000, 1001)
  | 9 => (60, 1)
  | 10 => (100, 1)
  | 11 => (120000, 1001)
  | _ => (120, 1)

def flowRate (s : State) (f : Nat) : Nat × Nat := rateOf (bits (flowCfg s f) 24 4)

/-- Line bytes, lines and packets of a line (R431, R436, R447). -/
def pictureOf (format : Nat) : Nat × Nat × Nat :=
  match format with
  | 0 => (4800, 1080, 4)
  | 1 => (9600, 2160, 8)
  | _ => (19200, 4320, 16)

def flowPicture (s : State) (f : Nat) : Nat × Nat × Nat := pictureOf (bits (flowCfg s f) 22 2)

/-- Packets of a frame. -/
def flowPackets (s : State) (f : Nat) : Nat := let p := flowPicture s f; p.2.1 * p.2.2

/-- Ticks of a second. -/
def tickRate : Nat := 400000000

/-- The gap `g` of ticks is at least P × `a` / `b` of a rate. -/
def atLeastP (r : Nat × Nat) (g a b : Nat) : Bool := decide (tickRate * r.2 * a ≤ g * r.1 * b)

/-! ### Alignment points (R428) -/

/-- The first alignment point after media time `mt`. -/
def nextPoint (r : Nat × Nat) (mt : Nat) : Nat := mt * r.1 / (r.2 * mtSecond) + 1

/-- The point `j` has been reached. -/
def pointReached (s : State) (r : Nat × Nat) (j : Nat) : Bool := decide (j * r.2 * mtSecond ≤ s.time.mt * r.1)

/-- The first tick at or after which the point's media time was held, for a point reached; the tick it will be reached at ρ as it
is, for one to come. -/
def pointTick (s : State) (r : Nat × Nat) (j : Nat) : Nat :=
  let a := s.time.mt * r.1
  let b := j * r.2 * mtSecond
  let d := r.1 * max 1 (mtStep s)
  if b ≤ a then s.gts - (a - b) / d else s.gts + (b - a + d - 1) / d

/-- EDGE_SOURCE (R453): 0 flywheel begun, 1 genlock regained, 2 media step applied, 3 edge skipped. -/
def edgeRecord (s : State) (f event : Nat) (n : Word) (g : Nat) : State :=
  match (s.flow f).bind with
  | none => s
  | some b => record s 0xA3 (536 + f) b.saggar (payload [(f, 125), (event, 123), (n.toNat, 64), (g, 0)]) [b.saggar] false

/-- A media-time step re-derives the next edge of every flow that is ON and follows media time (R430). -/
def reEdge (s : State) : State :=
  if timeSource s = 2 then s else
  (List.range 8).foldl (fun s f =>
    let x := s.flow f
    if x.st != 1 then s else
    let r := flowRate s f
    let j := nextPoint r s.time.mt
    edgeRecord (s.setFlow f { x with j }) f 2 x.next (pointTick s r j)) s

/-! ### The tick -/

/-- The value of a flow's READY_WORD. -/
def readyWord (s : State) (b : FlowBind) : Word :=
  match translate s b.saggar b.ready with
  | none => 0
  | some (pa, _) => memWord s pa

/-- In a completion deadline's tick READY_WORD is taken, before any operation of that tick (02 R55, 12 R437). -/
def latchReady (s : State) : State :=
  { s with frm := { s.frm with flows := Tab.mapv s.frm.flows fun _ (x : Flow) =>
      match x.bind with
      | none => x
      | some b => { x with edges := x.edges.map fun e => if e.d = s.gts then { e with ready := some (readyWord s b) } else e } } }

/-- One TIME tick (02 R41, R60, R68): GTS and media time advance, the watchdogs' clock with them unless a global stop holds it (18
R616), a pending capture is written, and deadlines of the tick take their READY_WORD. -/
def timeTick (s : State) : State :=
  if !s.time.locked then s else
  let t := s.time
  let gts := t.gts + 1
  let mt := t.mt + mtStep s
  let t := { t with gts, mt, watch := if s.frozen then t.watch else t.watch + 1 }
  let t := match t.pairDue, t.capture with
    | some (g, m), _ => { t with pairGts := g, pairMt := m, pairSeq := t.pairSeq + 1, pairDue := none, capture := false }
    | none, true => { t with pairGts := gts, pairMt := mt, pairSeq := t.pairSeq + 1, capture := false }
    | none, false => t
  latchReady { s with time := t }

end Sys2Proof.Machine
end

