-- ==== Sys2Proof/Machine/Time.lean ====
section
/-!
DEFINITION. The root PLL and its reference (02 R35, R36, R41, R42), the PTP servo (R61 to R65), genlock (R66, R67) and pairing (R68 to
R70).
-/
namespace Sys2Proof.Machine

def modTime (s : State) (f : TimeUnit → TimeUnit) : State := { s with time := f s.time }

/-! ### The root PLL -/

/-- ROOT_PLL_LOCK: GTS starts at zero, and every count that begins with it (R41, R42). -/
def execRootPllLock (s : State) : Out :=
  act true (whenD (s.hub.state == .powering && !s.time.locked) fun s =>
    modTime (zeroCounts s) fun t => { t with locked := true, refPresent := true, holdover := false, epoch := t.epoch + 1, mt := 0, rate := 0 })
    s

/-- REF_LOSS: a loss that is detected starts the holdover; one that ends before leaves no trace (R35). -/
def execRefLoss (detected : Bool) (s : State) : Out :=
  act true (whenD (detected && s.time.locked && !s.time.holdover) fun s =>
    modTime s fun t => { t with holdover := true, refPresent := false, lostAt := s.gts }) s

/-- Ticks of the longest holdover, 1 ms (R35). -/
def holdTicks : Nat := 400000

/-- REF_RETURN: inside 1 ms the PLL relocks without a phase step; a detected loss has been survived and counts (R35). -/
def execRefReturn (s : State) : Out :=
  act true (whenD (s.time.locked && !(s.time.holdover && decide (s.time.lostAt + holdTicks < s.gts))) fun s => modTime s fun t => { t with
    holdover := false, refPresent := true, refLoss := if t.holdover then min 0xFF (t.refLoss + 1) else t.refLoss }) s

/-- HOLDOVER_EXPIRY: the reference has been absent for longer than 1 ms: the root PLL has failed (R36, 16 R555). -/
def execHoldoverExpiry (s : State) : Out :=
  act true (whenD (s.time.locked && s.time.holdover && decide (s.time.lostAt + holdTicks < s.gts) && (s.serving || starting s))
    fun s => enterFailed s 3 12 0 13) s

/-! ### PTP -/

/-- 200 ppm and 0.2 ppm in units of 2^-40 (R60, R63). -/
def ppm200 : Int := 219902325
def ppm02 : Nat := 219902

def msecond : Int := 10 ^ 6 * 2 ^ 41
def usecond : Int := 10 ^ 3 * 2 ^ 41

/-- Set ρ within R60; in LOCKED and HOLDOVER the changes of any one second stay within 0.2 ppm (R63). -/
def steer (s : State) (d : Int) : State :=
  let v := s.time.servo
  let recent := v.changes.filter fun e => decide (s.gts < e.1 + tickRate)
  let room : Int := if v.state = 1 then 2 * ppm200 else ((ppm02 - (recent.map Prod.snd).sum : Nat) : Int)
  let d := max (-room) (min room d)
  let r := max (-ppm200) (min ppm200 (s.time.rate + d))
  let used := (r - s.time.rate).natAbs
  modTime s fun t => { t with rate := r, servo := { v with changes := if used = 0 then recent else (s.gts, used) :: recent } }

/-- A step of media time with its two records (R64); flows re-derive their next edges (12 R430). A step over a second boundary is no
rollover and captures no pair (log entry 77). -/
def stepMedia (s : State) (offset : Int) : State :=
  let rec_ := fun (s : State) (which : Nat) =>
    record s 0x01 512 0xFFF (payload [(mtSecs s.time.mt, 80), (mtNanos s.time.mt, 50), (which, 49)]) [] true
  let s := rec_ s 0
  let s := modTime s fun t => { t with mt := (t.mt - offset).toNat, stepCount := min 0xFF (t.stepCount + 1) }
  reEdge (rec_ s 1)

/-- The offset in ns as its register holds it (R71), a fraction rounded down (log entry 78). -/
def offsetNs (o : Int) : Int := max (-(2 ^ 31 - 1)) (min (2 ^ 31 - 1) (o / 2 ^ 41))

/-- The servo takes an offset (R62). -/
def servo (s : State) (o : Int) (rateStep : Int) : State :=
  let v := s.time.servo
  let small := decide (o.natAbs < usecond.natAbs)
  let big := decide (msecond.natAbs < o.natAbs)
  let s := modTime s fun t => { t with ptpOffset := offsetNs o }
  let set := fun (s : State) (st good bad : Nat) => modTime s fun t => { t with servo := { t.servo with state := st, good, bad } }
  match v.state with
  | 0 => let s := set s 1 0 0; if big then stepMedia s o else steer s rateStep
  | 1 =>
    if small && v.good + 1 == 16 then steer (set s 2 0 0) rateStep
    else steer (set s 1 (if small then v.good + 1 else 0) 0) rateStep
  | 2 =>
    if big && v.bad + 1 == 4 then stepMedia (set s 1 0 0) o
    else steer (set s 2 0 (if big then v.bad + 1 else 0)) rateStep
  | _ =>
    if small then steer (set s 2 0 0) rateStep
    else let s := set s 1 0 0; if big then stepMedia s o else steer s rateStep

/-- A Sync of the selected master with its origin time: offset once the delay is known, and a Delay_Req (R61, R62). Receive and
transmit times carry the image's latency corrections. -/
def takeSync (s : State) (origin : Int) (received : Int) (rateStep : Int) : State :=
  let v := s.time.servo
  let s := modTime s fun t => { t with servo := { t.servo with lastSync := t.watch, syncPend := none, lastT := some (origin, received) } }
  let s := match v.delay with
    | none => s
    | some d => servo s (received - origin - d) rateStep
  let q := (v.seq + 1) % 65536
  let sent : Int := s.time.mt + s.img.txLat * 2 ^ 41
  let s := modTime s fun t => { t with servo := { t.servo with seq := q, delayReq := some (q, sent) } }
  s.emit (.ethernet (bits s.img.ptpCfg.toNat 0 3) (leBytes 1 1 ++ leBytes 2 q ++ leBytes 16 sent.toNat))

/-- The port that carries PTP is ON and the message is of the image's domain. -/
def ptpHears (s : State) (domain : Byte) : Bool :=
  s.serving && ptpOn s && timeSource s != 0 && (s.port (24 + bits s.img.ptpCfg.toNat 0 3)).st == .on &&
  domain.toNat == bits s.img.ptpCfg.toNat 16 8

def ofMaster (s : State) (clock : DWord) : Bool := s.time.servo.master == some clock

def logOk (n : Int) : Bool := decide (-7 ≤ n) && decide (n ≤ 1)

/-- The synchronization metadata of a message goes to the frame engine (R61). -/
def passTlv (s : State) (tlv : List Byte) : State := if tlv = [] then s else { s with frm := { s.frm with tlv } }

/-- PTP_SYNC: one-step, or two-step with a Follow_Up to come (R61). -/
def execPtpSync (msg : SyncMsg) (s : State) : Out :=
  act true (whenD (ptpHears s msg.domain && ofMaster s msg.clock && logOk msg.logInterval) fun s =>
    let received : Int := s.time.mt - s.img.rxLat * 2 ^ 41
    let s := passTlv s msg.tlv
    if msg.twoStep then
      modTime s fun t => { t with servo := { t.servo with syncPend := some (msg.seq, received), lastSync := t.watch } }
    else takeSync s msg.origin received msg.rateStep) s

/-- PTP_FOLLOW_UP: the origin time of the two-step Sync with its sequence number. -/
def execPtpFollowUp (msg : SyncMsg) (s : State) : Out :=
  act true (whenD (ptpHears s msg.domain && ofMaster s msg.clock) fun s =>
    match s.time.servo.syncPend with
    | none => s
    | some (q, received) =>
      if q != msg.seq then s else
      let s := passTlv s msg.tlv
      takeSync s msg.origin received msg.rateStep) s

/-- PTP_DELAY_RESP: the mean path delay, end to end (R61). -/
def execPtpDelayResp (msg : DelayResp) (s : State) : Out :=
  act true (whenD (ptpHears s msg.domain && ofMaster s msg.clock) fun s =>
    match s.time.servo.delayReq, s.time.servo.lastT with
    | some (q, sent), some (origin, received) =>
      if q != msg.seq then s else
      modTime s fun t => { t with servo := { t.servo with
        delayReq := none, delay := some (((received - origin) + ((msg.receive : Int) - sent)) / 2) } }
    | _, _ => s) s

/-- The numbers the default data set comparison takes in turn. -/
def masterKey (m : Master) : List Nat :=
  [m.prio1.toNat, m.cls.toNat, m.accuracy.toNat, m.variance.toNat, m.prio2.toNat, m.clockId.toNat, m.steps.toNat]

/-- The best of the foreign masters. -/
def bestMaster : List Master → Option Master
  | [] => none
  | m :: l =>
    match bestMaster l with
    | none => some m
    | some b => if keyLt (masterKey b) (masterKey m) then some b else some m

/-- PTP_ANNOUNCE: the foreign master is noted, at most 8, and the best is selected (R61). A change of master forgets the delay. -/
def execPtpAnnounce (msg : Announce) (s : State) : Out :=
  act true (whenD (ptpHears s msg.domain) fun s =>
    let m : Master := { clockId := msg.clock, prio1 := msg.prio1, cls := msg.cls, accuracy := msg.accuracy, variance := msg.variance
                        prio2 := msg.prio2, steps := msg.steps }
    let v := s.time.servo
    let rest := v.foreign.filter fun x => x.clockId != m.clockId
    let foreign := if rest.length < 8 then rest ++ [m] else rest
    let best := (bestMaster foreign).map Master.clockId
    let v := { v with foreign, master := best }
    let v := if best = s.time.servo.master then v else
      { v with delay := none, good := 0, bad := 0, syncPend := none, delayReq := none, lastT := none, lastSync := s.time.watch }
    modTime s fun t => { t with servo := v }) s

/-- PTP_SYNC_TIMEOUT: no valid Sync for one second: ρ is held (R62). -/
def execPtpSyncTimeout (s : State) : Out :=
  act true (whenD (s.serving && (s.time.servo.state == 1 || s.time.servo.state == 2) &&
      decide (s.time.servo.lastSync + tickRate ≤ s.watch)) fun s =>
    modTime s fun t => { t with servo := { t.servo with state := 3, good := 0, bad := 0 } }) s

/-! ### Genlock and pairing -/

/-- A rollover or a genlock edge captures its tick; triggers of one tick make one capture (R68). -/
def capturePair (s : State) : State :=
  modTime s fun t => { t with pairDue := some (t.pairDue.getD (t.gts, t.mt)) }

/-- Spacings of stamps, latest first. -/
def spacings : List Nat → List Nat
  | a :: b :: l => (a - b) :: spacings (b :: l)
  | _ => []

/-- Every spacing lies within ±0.1 % of the mean of `n` spacings that sum to `sum`. -/
def steady (l : List Nat) : Bool :=
  let n := l.length
  let sum := l.sum
  l.all fun d => decide (1000 * (d * n - sum) ≤ sum) && decide (1000 * (sum - d * n) ≤ sum)

/-- GENLOCK_EDGE (R66, R67); an edge less than 400 ticks after the one before is a glitch (20 R662). -/
def execGenlockEdge (s : State) : Out :=
  act true (whenD (s.serving && s.time.locked) fun s =>
    let g := s.time.gen
    if g.edges != [] && decide (s.gts < g.edges.headD 0 + 400) then s else
    let edges := (s.gts :: g.edges).take 16
    let d := spacings edges
    let full := edges.length == 16
    let g := { g with
      gts := s.time.gts, last := s.watch, edges
      present := g.present || (full && steady d)
      period := if full then BitVec.ofNat 32 (d.sum / 15) else g.period }
    let s := modTime s fun t => { t with gen := g }
    if s.time.onGenlock then capturePair s else s) s

/-- GENLOCK_TIMEOUT: no edge within twice the mean spacing (R67). -/
def execGenlockTimeout (s : State) : Out :=
  act true (whenD (s.serving && s.time.gen.present && decide (s.time.gen.last + 2 * s.time.gen.period.toNat < s.watch)) fun s =>
    modTime s fun t => { t with gen := { t.gen with present := false, edges := [] } }) s

/-- MEDIA_SECOND_ROLLOVER: the seconds count rolled over in this tick (R68). -/
def execMediaSecondRollover (s : State) : Out :=
  act true (whenD (s.time.locked && s.time.onSecond && decide (mtSecs (s.time.mt - mtStep s) ≠ mtSecs s.time.mt)) capturePair) s

/-- TIM_PAIR_CAPTURE: a write of 1 to CAPTURE captures in the next tick (R68). -/
def execTimPairCapture (s : State) : Out :=
  act true (whenD (hostUp s) fun s => modTime s fun t => { t with capture := true }) s

/-- TIM_MT_NS_READ: reads the nanoseconds and latches the seconds (R70). -/
def execTimMtNsRead (s : State) : Out :=
  act true (whenD (hostUp s) fun s =>
    (modTime s fun t => { t with mtSecLatch := BitVec.ofNat 48 (mtSecs t.mt) }).emit (.readData (BitVec.ofNat 64 (mtNanos s.time.mt)))) s

end Sys2Proof.Machine
end

