-- ==== Sys2Proof/Machine/FlowCmds.lean ====
section
/-!
DEFINITION. Flows: binding, enables and drains (12 R432 to R435).
-/
namespace Sys2Proof.Machine

/-- The frame engine is present on F768 alone (00 R8). -/
def hasFrames (s : State) : Bool := s.fuse.variant == 1

/-- Reservations the image defines for a flow (R440). -/
def resImg (s : State) (r : Nat) : List Byte := s.img.res.getD r []
def resDefined (s : State) (r : Nat) : Bool := bits (lf (resImg s r) 0 4) 31 1 == 1
def resRelease (s : State) (r : Nat) : Bool := bits (lf (resImg s r) 0 4) 30 1 == 1
def resMask (s : State) (r : Nat) : BitVec 192 := BitVec.ofNat 192 (lf (resImg s r) 12 24)
def resStart (s : State) (r : Nat) : Nat := lf (resImg s r) 4 4
def resEnd (s : State) (r : Nat) : Nat := lf (resImg s r) 8 4
def resOf (s : State) (f : Nat) : List Nat := (List.range 16).filter fun r => resDefined s r && resFlow s r == f

def State.resv (s : State) (r : Nat) : Resv := Tab.get {} s.frm.res r
def State.setResv (s : State) (r : Nat) (x : Resv) : State := { s with frm := { s.frm with res := Tab.put {} s.frm.res r x } }

/-- Device-virtual ranges of a bound flow: its buffers and words (R433, R436). -/
def flowRanges (s : State) (f : Nat) (b : FlowBind) : List (Nat × Nat) :=
  let n := (flowPicture s f).2.1 * b.lineStride
  ((List.range b.nbuf).map fun i => (b.base.toNat + i * b.bufStride.toNat, n)) ++ [(b.ready.toNat, 4), (b.free.toNat, 4)]

/-- Every page of a range is mapped onto near-tier frames. -/
def nearMapped (m : Tab Mapping) (va n : Nat) : Nat → Bool
  | 0 => n == 0
  | fuel + 1 =>
    if n = 0 then true else
    match mappingOf m va with
    | none => false
    | some (b, x) => nearTier x.pa && nearMapped m (b + x.size) (n - min n (b + x.size - va)) fuel

/-- A word of the saggar that may be signalled. -/
def signalWord (s : State) (k : Nat) (va : DWord) : Bool :=
  match translate s k va with
  | none => false
  | some (_, m) => m.write

/-- The refusals of FRM_FLOW_BIND, in the order R432 lists them. -/
def bindRefusal (s : State) (k f : Nat) (b : FlowBind) : Option Nat :=
  let x := s.flow f
  let p := flowPicture s f
  let g := s.saggar k
  let n := p.2.1 * b.lineStride
  let masks := (resOf s f).map (resMask s)
  if x.st != 0 || x.bind.isSome then some stBusy
  else if !flowDefined s f || b.base.toNat % 65536 != 0 || b.nbuf < 2 || 4 < b.nbuf || b.bufStride.toNat % 65536 != 0 ||
      b.bufStride.toNat < n || b.lineStride % 64 != 0 || b.lineStride < p.1 || b.ready.toNat % 4 != 0 || b.free.toNat % 4 != 0 ||
      2 ^ 57 ≤ b.base.toNat + b.nbuf * b.bufStride.toNat then some stInvalid
  else if (List.range b.nbuf).any (fun i => !nearMapped g.maps (b.base.toNat + i * b.bufStride.toNat) n (g.maps.length + 1)) ||
      !signalWord s k b.ready || !signalWord s k b.free then some stUnmapped
  else if masks.any fun m => m &&& ~~~g.cfg.rights != 0 then some stConflict
  else match g.cfg.placement with
    | .die d => if masks.any fun m => (List.range 96).any fun i => m.getLsbD (96 * (1 - d) + i) then some stWrongDie else none
    | .interleaved => none

/-- FRM_FLOW_BIND. -/
def execFrmFlowBind (fn req : Nat) (s : State) : Out :=
  mbxRun { code := 0x38, pf := true, sag := true
           used := [fld 18 0 8, fld 19 0 8, fld 20 0 32, fld 24 0 64, fld 32 0 64, fld 40 0 64, fld 48 0 64] } noData (fun s _ r =>
    let f := rf r 18 0 8
    let k := reqSag r
    let b : FlowBind := { saggar := k, base := rAddr r 24, nbuf := rf r 19 0 8, bufStride := rAddr r 32, lineStride := rf r 20 0 32
                          ready := rAddr r 40, free := rAddr r 48 }
    if 7 < f then now stInvalid s else
    match bindRefusal s k f b with
    | some st => now st s
    | none => now stOk (s.modFlow f fun x => { x with bind := some b })) fn req s

/-- FRM_FLOW_UNBIND. -/
def execFrmFlowUnbind (fn req : Nat) (s : State) : Out :=
  mbxRun { code := 0x39, pf := true, used := [fld 18 0 8] } noData (fun s _ r =>
    let f := rf r 18 0 8
    if 7 < f then now stInvalid s
    else if (s.flow f).st != 0 then now stBusy s
    else now stOk (s.modFlow f fun x => { x with bind := none })) fn req s

/-! ### Enables (R434, R435) -/

/-- The active-period rate of a flow (R448) in bits per second times 1001 × 96. -/
def portRate (s : State) (f : Nat) : Nat :=
  let r := flowRate s f
  let wire := if bits (flowCfg s f) 19 1 = 1 then 1290 else 1286
  flowPackets s f * wire * 8 * r.1 * 100 * (1001 / r.2)

/-- The first check of R435 that fails: 0 none. -/
def enableError (s : State) (f : Nat) : Nat :=
  let r := flowRate s f
  let src := timeSource s
  let sum := ((List.range 8).map fun g => if g = f || ((s.flow g).st == 1 && flowPort s g == flowPort s f) then portRate s g else 0).sum
  let p := s.time.gen.period.toNat * r.1
  let q := tickRate * r.2
  if (s.flow f).bind.isNone then 1
  else if (src == 1 && !(s.time.servo.state == 2 || s.time.servo.state == 3)) || (src == 2 && !s.time.gen.present) then 2
  else if src == 2 && (decide (q < 1000 * (p - q)) || decide (q < 1000 * (q - p))) then 3
  else if 400 * 10 ^ 9 * 1001 * 96 < sum then 4
  else if s.dbg.stop != 0 then 5
  else 0

/-- An enable takes effect, or leaves the flow OFF with its error. Frame 0 is the first edge at least P later. -/
def enableFlow (s : State) (f : Nat) : State :=
  let e := enableError s f
  s.modFlow f fun x =>
    if e = 0 then { x with
      st := 1, enErr := 0, consec := 0, seq := 0, m := none, next := 0, since := s.gts, started := false
      j := nextPoint (flowRate s f) s.time.mt, flywheel := false, usedGen := s.time.gen.gts.toNat, edges := [], freeDue := none }
    else { x with st := 0, enErr := e }

/-- FRM_FLOW_CTL.ENABLE ← 1. -/
def execFrmFlowEnable (flow : Nat) (s : State) : Out :=
  act (decide (flow < 8)) (whenD (s.serving && hasFrames s) fun s =>
    let s := s.modFlow flow fun x => { x with enable := true }
    match (s.flow flow).st with
    | 0 => enableFlow s flow
    | 2 => s.modFlow flow fun x => { x with st := 3 }
    | _ => s) s

/-- FRM_FLOW_CTL.ENABLE ← 0. -/
def execFrmFlowDisable (flow : Nat) (s : State) : Out :=
  act (decide (flow < 8)) (whenD (s.serving && hasFrames s) fun s =>
    s.modFlow flow fun x => { x with enable := false, st := if x.st = 1 ∨ x.st = 3 then 2 else x.st }) s

/-- FLOW_DRAIN_END: no emission is in progress and the flow's reservations have ended: it is OFF, or enables (R434). -/
def execFlowDrainEnd (flow : Nat) (s : State) : Out :=
  act (decide (flow < 8)) (whenD s.serving fun s =>
    let x := s.flow flow
    if !(x.st == 2 || x.st == 3) || x.emission.isSome || (resOf s flow).any fun r => (s.resv r).st != 0 then s else
    let s := dropPermits s fun p => p.kind == 5 && p.unit == 536 + flow
    let s := (resOf s flow).foldl (fun s r => s.setResv r { s.resv r with due := [] }) s
    let s := s.modFlow flow fun x => { x with st := 0, edges := [], flywheel := false }
    if x.st = 3 then enableFlow s flow else s) s

end Sys2Proof.Machine
end

