-- ==== Sys2Proof/Machine/Tables.lean ====
section
/-!
DEFINITION. The translation tables (08 R310, R311, R313) and the module's copies in the reserves (R295, R327). The module writes every
table, so a saggar's tree is a function of its leaves: State holds the leaves, and the entries and nodes are read from here.
-/
namespace Sys2Proof.Machine

/-! ### The tree (R310) -/

/-- Index bits of a level. -/
def levelBits (l : Nat) : Nat := if l = 0 then 5 else 9

/-- Node size of a level in bytes. -/
def nodeBytes (l : Nat) : Nat := if l = 0 then 256 else 4096

/-- The size of a page whose leaf is of the level; none where a leaf may not stand. -/
def pageOf (l : Nat) : Option Nat := if l < 3 then some (2 ^ levelShift l) else none

/-- Die whose reserve holds a saggar's tables; an interleaved saggar has the same words in both (R311). -/
def tableDie (s : State) (k : Nat) : Nat :=
  match (s.saggar k).cfg.placement with
  | .die d => d
  | .interleaved => 0

/-- First byte of a die's reserve (R292). -/
def reserveBase (d : Nat) : Nat := if d = 1 then 0x007800000000 else 0x003800000000

/-- Where the module has put a node: the spec leaves its place in the reserve open (log entry 89). -/
def nodeAddr (d k l idx : Nat) : Nat :=
  reserveBase d + Config.tableNode k l idx % (gib / nodeBytes l) * nodeBytes l

/-- The leaf of level `l` at index path `idx`: the address bits from the level's lowest index bit up. -/
def leafAt (m : Tab Mapping) (l idx : Nat) : Option Mapping :=
  (Tab.find m (idx * 2 ^ levelShift l)).filter fun x => pageOf l == some x.size

/-- Some leaf stands below level `l` on the index path. -/
def nodeBelow (m : Tab Mapping) (l idx : Nat) : Bool :=
  m.any fun e => decide (leafLevel e.2.size < l) && e.1 / 2 ^ levelShift l == idx

/-- The 64-bit entry of level `l` on the index path (R311): a leaf, a node, or invalid. -/
def tableWord (d k : Nat) (m : Tab Mapping) (l idx : Nat) : DWord :=
  match leafAt m l idx with
  | some x => BitVec.ofNat 64 (x.home * 2 ^ 48 + x.pa + (if x.exec then 16 else 0) + (if x.write then 8 else 0) + 3)
  | none => if nodeBelow m l idx then BitVec.ofNat 64 (nodeAddr d k (l - 1) idx + 1) else 0

/-- A walk from level `l − 1` down: the leaf's entry and its level (R310). -/
def walkFrom (d k : Nat) (m : Tab Mapping) (va : Nat) : Nat → Option (DWord × Nat)
  | 0 => none
  | l + 1 =>
    let e := tableWord d k m l (va / 2 ^ levelShift l)
    if !e.getLsbD 0 then none
    else if e.getLsbD 1 then some (e, l)
    else walkFrom d k m va l

/-- The physical address, WRITE and EXEC that a walk of the saggar's tree gives for a pointer; none where it fails translation. -/
def walkTables (s : State) (k : Nat) (va : DWord) : Option (Nat × Bool × Bool) :=
  if 2 ^ 57 ≤ va.toNat then none else
  (walkFrom (tableDie s k) k (s.saggar k).maps va.toNat 5).map fun e =>
    (bits e.1.toNat 8 40 * 256 + va.toNat % 2 ^ levelShift e.2, e.1.getLsbD 3, e.1.getLsbD 4)

/-! ### Room in the reserves (R308, R311) -/

/-- Nodes of level `l` of a tree: the root, and one for each path with a leaf at the level or below. -/
def nodesAt (m : Tab Mapping) (l : Nat) : Nat :=
  if l = 4 then 1 else
  ((m.filter fun e => decide (leafLevel e.2.size ≤ l)).map fun e => e.1 / 2 ^ levelShift (l + 1)).eraseDups.length

/-- Bytes of a tree. -/
def tableBytes (m : Tab Mapping) : Nat := ((List.range 5).map fun l => nodesAt m l * nodeBytes l).sum

/-- The saggar's tables stand in the reserve of die `d`. -/
def tablesOn (g : Saggar) (d : Nat) : Bool :=
  g.st != .off && (match g.cfg.placement with
    | .die e => e == d
    | .interleaved => true)

/-- Bytes of tables in the reserve of die `d`. -/
def reserveUsed (s : State) (d : Nat) : Nat :=
  (s.front.saggars.map fun e => if tablesOn e.2 d then tableBytes e.2.maps else 0).sum

/-- Reserve space for page tables is exhausted (R308): the trees exceed a reserve (log entry 18). -/
def reserveFull (s : State) : Bool := (List.range 2).any fun d => decide (gib < reserveUsed s d)

/-! ### Copies (R295, R327) -/

/-- Dies whose reserve holds a copy of every structure that must survive the loss of one die: both, and then the one in service. -/
def copyDies (s : State) : List Nat := (List.range 2).filter fun d => !s.fen.dies.getLsbD d

end Sys2Proof.Machine
end

