-- ==== Sys2Proof/Machine/MemCmds.lean ====
section
/-!
DEFINITION. Frames and mappings (08 R306 to R315, R673), granary ports (R304, 16 R552).
-/
namespace Sys2Proof.Machine

/-! ### Frames -/

def frameBytes : Nat := 65536

/-- Expanders a granary frame lies on: a striped frame lies on all four (R298). -/
def frameExpanders (pa : Nat) : List Nat :=
  if pa < granaryBase then [] else if stripedBase ≤ pa then [0, 1, 2, 3] else [expanderOf pa]

/-- A frame that ASSIGN_FRAMES and MAP refuse with UNIT_ABSENT (R308): granary on C384, a FENCED expander, a fenced die's range. -/
def frameAbsent (s : State) (pa : Nat) : Bool :=
  if nearTier pa then outOfService s pa
  else s.fuse.variant == 3 || (frameExpanders pa).any fun n => (s.grn n).state == .fenced

/-- The frames from `pa` on: the first frame and a count bounded beyond the whole address space. -/
def framesFrom (pa count : Nat) : List Nat := (List.range (min count (2 ^ 32 + 1))).map fun i => pa / frameBytes + i

/-- A near-tier frame outside the range of a die-local saggar's die. -/
def frameWrongDie (s : State) (k f : Nat) : Bool :=
  match (s.saggar k).cfg.placement with
  | .interleaved => false
  | .die d => match rangeOf s (frameBytes * f) with
    | some (.die e) => e != d
    | some .module => true
    | _ => false

/-- The refusals of ASSIGN_FRAMES, first row of R308 first. -/
def assignRefusal (s : State) (k pa count : Nat) : Option Nat :=
  let fs := framesFrom pa count
  if count = 0 then some stInvalid
  else if fs.any fun f => frameAbsent s (frameBytes * f) then some stAbsent
  else if fs.any fun f => (s.frame f).st != .free || (rangeOf s (frameBytes * f)).isNone then some stNotOwner
  else if pa % frameBytes != 0 then some stMisaligned
  else if fs.any (frameWrongDie s k) then some stWrongDie
  else none

/-- ASSIGN_FRAMES: FREE frames go to the saggar, through ZEROING (R306, R307). -/
def execAssignFrames (fn req : Nat) (s : State) : Out :=
  mbxRun { code := 0x20, pf := true, sag := true, used := [fld 24 0 64, fld 32 0 64] } noData (fun s fn r =>
    let k := reqSag r
    let pa := rf r 24 0 64
    let count := rf r 32 0 64
    match assignRefusal s k pa count with
    | some st => (answer st, s)
    | none =>
      let (id, s) := s.fresh
      let fs := framesFrom pa count
      let s := fs.foldl (fun s f => s.setFrame f { st := .zeroing, owner := k }) s
      (none, { s with ms := { s.ms with zeroJobs := Tab.ins s.ms.zeroJobs id { saggar := k, frames := fs, fn, req := r.n } } })) fn req s

/-- Zero frames: bytes, poison and dirty marks go. -/
def zeroFrames (s : State) (p : Nat → Bool) : State :=
  { s with ms := { s.ms with
    mem := s.ms.mem.filter fun e => !p (e.1 / frameBytes)
    poison := s.ms.poison.filter fun e => !p (32 * e.1 / frameBytes)
    dirty := s.ms.dirty.filter fun e => !p (4096 * e.1 / frameBytes) } }

/-- The die whose slices zero granary frames (R309): a die-local saggar's own, else die 0, or the surviving die. -/
def zeroDie (s : State) (k : Option Nat) : Nat :=
  match k.map fun k => (s.saggar k).cfg.placement with
  | some (.die d) => d
  | _ => (copyDies s).headD 0

/-- Slices that the lines of a frame are zeroed through, and how many lines each takes: the home slices of near-tier lines, each of which
has as many (R296, R297), and those of one die for granary lines (R298, R309). -/
def zeroSlices (s : State) (k : Option Nat) (f : Nat) : List Nat × Nat :=
  if moduleBase ≤ frameBytes * f ∧ frameBytes * f < granaryBase then (List.range 128, 4)
  else
    let d := if granaryBase ≤ frameBytes * f then zeroDie s k else if 0x004000000000 ≤ frameBytes * f then 1 else 0
    ((List.range 64).map (64 * d + ·), 8)

/-- Zeroing goes through the slices with the streaming hint (R309): each line is a miss there, which the global tallies count
(18 R606; log entry 105). -/
def zeroTally (s : State) (k : Option Nat) (f : Nat) : State :=
  if s.dbg.gtallies = [] then s else
  let (l, n) := zeroSlices s k f
  l.foldl (fun s c => gtally s (0x101 + 2 * (if (s.slice c).state = 2 then c ^^^ 1 else c)) k n) s

/-- FRAME_ZEROING_END: every frame holds zeros under the saggar's key and is OWNED (R307). A granary port that is down cannot be
written. -/
def execFrameZeroingEnd (id : Nat) (s : State) : Out :=
  act true (whenD (memRuns s) fun s =>
    match Tab.find s.ms.zeroJobs id with
    | none => s
    | some j =>
      if j.frames.any fun f => (frameExpanders (frameBytes * f)).any fun n => (s.grn n).state != .on && (s.grn n).state != .fenced then s
      else
        let s := { zeroFrames s j.frames.contains with ms := { (zeroFrames s j.frames.contains).ms with zeroJobs := Tab.del s.ms.zeroJobs id } }
        let s := j.frames.foldl (fun s f => (zeroTally s (some j.saggar) f).setFrame f { st := .owned, owner := j.saggar }) s
        complete s j.fn j.req stOk) s

/-! ### Mappings (R307 to R314) -/

/-- What a MAP asks for: saggar, page size, rights, home die, addresses, page count. -/
structure MapReq where
  k : Nat
  size : Nat
  write : Bool
  exec : Bool
  home : Nat
  va : Nat
  pa : Nat
  n : Nat
  deriving DecidableEq, Repr

def mapReq (r : Req) : MapReq :=
  let c := rf r 18 0 2
  { k := reqSag r, size := if c = 0 then 2 ^ 16 else if c = 1 then 2 ^ 21 else 2 ^ 30, write := rf r 18 2 1 == 1, exec := rf r 18 3 1 == 1
    home := rf r 18 4 1, va := rf r 24 0 64, pa := rf r 32 0 64, n := rf r 40 0 64 }

/-- A granary home die that a MAP may not name for a frame (R308, R309). -/
def homeRefused (s : State) (q : MapReq) (f : Nat) : Bool :=
  granaryBase ≤ frameBytes * f &&
    ((match (s.saggar q.k).cfg.placement with
      | .die d => q.home != d
      | .interleaved => false) ||
     (match (s.frame f).home with
      | some h => h != q.home
      | none => false))

/-- Enter the leaves of a MAP; a granary frame takes its home die at its first (R309). -/
def mapPages (s : State) (q : MapReq) : State :=
  let home := if granaryBase ≤ q.pa then q.home else 0
  let s := s.modSaggar q.k fun g => { g with
    maps := (List.range q.n).foldl (fun m i => Tab.ins m (q.va + i * q.size)
      { size := q.size, pa := q.pa + i * q.size, write := q.write, exec := q.exec, home }) g.maps }
  if granaryBase ≤ q.pa then
    (framesFrom q.pa (q.n * (q.size / frameBytes))).foldl (fun s f => s.setFrame f { s.frame f with home := some q.home }) s
  else s

/-- The refusals of MAP, first row of R308 first. Page code 3 and pages beyond the 57-bit space are INVALID. -/
def mapRefusal (s : State) (r : Req) (q : MapReq) : Option Nat :=
  let fs := framesFrom q.pa (q.n * (q.size / frameBytes))
  let m := (s.saggar q.k).maps
  if q.n = 0 ∨ rf r 18 0 2 = 3 ∨ 2 ^ 57 < q.va + q.n * q.size then some stInvalid
  else if fs.any fun f => frameAbsent s (frameBytes * f) || (granaryBase ≤ frameBytes * f && s.fen.dies.getLsbD q.home) then some stAbsent
  else if fs.any fun f => !((s.frame f).st == .owned && (s.frame f).owner == q.k) then some stNotOwner
  else if q.va % q.size != 0 || q.pa % q.size != 0 ||
      (List.range q.n).any (fun i => rangeOf s (q.pa + i * q.size) != rangeOf s (q.pa + i * q.size + q.size - 1)) then some stMisaligned
  else if m.any fun e => decide (e.1 < q.va + q.n * q.size) && decide (q.va < e.1 + e.2.size) then some stMapped
  else if fs.any fun f => frameWrongDie s q.k f || homeRefused s q f then some stWrongDie
  else if reserveFull (mapPages s q) then some stNoSpace
  else none

/-- MAP. The module writes every table (R311). -/
def execMap (fn req : Nat) (s : State) : Out :=
  mbxRun { code := 0x21, sag := true, used := [fld 18 0 5, fld 24 0 64, fld 32 0 64, fld 40 0 64] } noData (fun s _ r =>
    let q := mapReq r
    match mapRefusal s r q with
    | some st => (answer st, s)
    | none => (answer stOk, mapPages s q)) fn req s

/-- The `n` consecutive leaves from `va` on, when each is mapped and none is being removed (R314); `fuel` bounds them. -/
def leavesFrom (m : Tab Mapping) (va n : Nat) : Nat → Option (List (Nat × Mapping))
  | 0 => if n = 0 then some [] else none
  | fuel + 1 =>
    if n = 0 then some [] else
    match Tab.find m va with
    | none => none
    | some x => if x.going then none else (leavesFrom m (va + x.size) (n - 1) fuel).map ((va, x) :: ·)

/-- Device-virtual ranges that R314 holds for the saggar's bound flows (R433), ledger (R599) and collectors (R675). -/
def boundRanges (s : State) (k : Nat) : List (Nat × Nat) :=
  ((List.range 8).flatMap fun f => match (s.flow f).bind with
    | some b => if b.saggar = k then flowRanges s f b else []
    | none => []) ++
  (match (s.saggar k).ledger with
   | none => []
   | some l => [(l.base.toNat, 32 * l.entries), (l.countWord.toNat, 4)] ++ (if l.headWord = 0 then [] else [(l.headWord.toNat, 4)])) ++
  (collsOf s k).flatMap fun e => [(e.2.ring.toNat, 16 * e.2.entries), (e.2.countWord.toNat, 4), (e.2.headWord.toNat, 4)]

/-- UNMAP (R314). -/
def execUnmap (fn req : Nat) (s : State) : Out :=
  mbxRun { code := 0x22, sag := true, used := [fld 24 0 64, fld 40 0 64] } noData (fun s fn r =>
    let k := reqSag r
    let n := rf r 40 0 64
    let m := (s.saggar k).maps
    match if n = 0 then none else leavesFrom m (rf r 24 0 64) n (m.length + 1) with
    | none => (answer stInvalid, s)
    | some l =>
      if l.any fun e => (boundRanges s k).any fun b => decide (e.1 < b.1 + b.2) && decide (b.1 < e.1 + e.2.size) then (answer stBusy, s)
      else
        let (id, s) := s.fresh
        let s := s.modSaggar k fun g => { g with maps := l.foldl (fun m e => Tab.ins m e.1 { e.2 with going := true }) g.maps }
        (none, { s with ms := { s.ms with
          unmapJobs := Tab.ins s.ms.unmapJobs id { saggar := k, vas := l.map Prod.fst, fn, req := r.n } } })) fn req s

/-- An access that used one of the leaves has not completed at its home slice (R314). -/
def usesLeaf (s : State) (k : Nat) (l : List Mapping) : Bool :=
  let inside := fun (pa : Nat) => l.any fun x => decide (x.pa ≤ pa) && decide (pa < x.pa + x.size)
  s.wheels.any fun (w : Nat × Wheel) =>
    (w.2.mem.store.any fun (e : StoreEntry) => e.saggar == k && !e.performed && e.op != .fence && inside e.pa) ||
    w.2.mem.reads.any fun (r : ReadTxn) => r.saggar == k && r.value.isNone && inside r.pa

/-- UNMAP_COMPLETE: the entries are gone from every table and cache, and no access that used them is in flight. -/
def execUnmapComplete (id : Nat) (s : State) : Out :=
  act true (whenD (memRuns s) fun s =>
    match Tab.find s.ms.unmapJobs id with
    | none => s
    | some j =>
      let m := (s.saggar j.saggar).maps
      if usesLeaf s j.saggar (j.vas.filterMap (Tab.find m)) then s
      else
        let s := { s with ms := { s.ms with unmapJobs := Tab.del s.ms.unmapJobs id } }
        let s := dropXlats s (fun x => x.saggar == j.saggar && j.vas.contains x.base) fun k => k == j.saggar
        let s := s.modSaggar j.saggar fun g => { g with maps := j.vas.foldl Tab.del g.maps }
        complete s j.fn j.req stOk) s

/-- The refusals of RELEASE_FRAMES, first row of R308 first. -/
def releaseRefusal (s : State) (k pa count : Nat) : Option Nat :=
  let fs := framesFrom pa count
  if count = 0 then some stInvalid
  else if fs.any fun f => !((s.frame f).st == .owned && (s.frame f).owner == k) then some stNotOwner
  else if pa % frameBytes != 0 then some stMisaligned
  else if (s.saggar k).maps.any fun e => decide (e.2.pa < pa + count * frameBytes) && decide (pa < e.2.pa + e.2.size) then some stMapped
  else none

/-- RELEASE_FRAMES: the frames' lines go without being written back, then the frames are FREE (R315). -/
def execReleaseFrames (fn req : Nat) (s : State) : Out :=
  mbxRun { code := 0x23, sag := true, used := [fld 24 0 64, fld 32 0 64] } noData (fun s _ r =>
    let pa := rf r 24 0 64
    let count := rf r 32 0 64
    match releaseRefusal s (reqSag r) pa count with
    | some st => (answer st, s)
    | none =>
      let fs := framesFrom pa count
      let s := dropLines s fun c => fs.contains (128 * c.line / frameBytes)
      let s := { s with ms := { s.ms with dirty := s.ms.dirty.filter fun e => !fs.contains (4096 * e.1 / frameBytes) } }
      (answer stOk, fs.foldl (fun s f => s.setFrame f {}) s)) fn req s

/-! ### Granary ports (R304, R552; 14 R493) -/

/-- Some frame of the expander is owned by a saggar, or being zeroed for one. -/
def expanderOwned (s : State) (n : Nat) : Bool :=
  s.ms.frames.any fun (f : Nat × Frame) => f.2.st != .free && (frameExpanders (frameBytes * f.1)).contains n

/-- The module has the port (00 R9). -/
def hasGrn (s : State) (n : Nat) : Bool := decide (n < 4) && s.fuse.variant != 3

/-- Bring-up leave is asked for, in READY or FENCED_HALF. -/
def grnBringUp (s : State) (n : Nat) : State := if s.serving then askLeave s 3 (544 + n) 0 0 4096 else s

/-- GRN_PORT_CTL_n.ENABLE ← 1. -/
def execGrnPortEnable (port : Nat) (s : State) : Out :=
  act (hasGrn s port) (whenD (hostUp s) fun s =>
    let x := s.grn port
    match x.state with
    | .fenced => s
    | .off => grnBringUp (s.setGrn port { x with enable := true }) port
    | .draining => s.setGrn port { x with enable := true, state := .pendingOn }
    | _ => s.setGrn port { x with enable := true }) s

/-- GRN_PORT_CTL_n.ENABLE ← 0: refused while frames of the expander are owned. -/
def execGrnPortDisable (port : Nat) (s : State) : Out :=
  act (hasGrn s port) (whenD (hostUp s) fun s =>
    let x := s.grn port
    if x.state == .fenced then s
    else if expanderOwned s port then s.setGrn port { x with refused := true }
    else match x.state with
      | .off => giveBack (s.setGrn port { x with enable := false }) fun p => p.kind == 3 && p.unit == 544 + port
      | _ => s.setGrn port { x with enable := false, state := .draining }) s

/-- GRN_PORT_DRAIN_END: OFF; a latched enable trains the port again. -/
def execGrnPortDrainEnd (port : Nat) (s : State) : Out :=
  act (hasGrn s port) (whenD s.serving fun s =>
    let x := s.grn port
    if x.state == .draining || x.state == .pendingOn then
      let s := s.setGrn port { x with state := .off, linkUp := false }
      if x.state == .pendingOn then grnBringUp s port else s
    else s) s

/-- GRN_PORT_TRAINING_END of a port that has its leave: ON, or FENCED when it has not trained within 100 ms. -/
def execGrnPortTrainingEnd (port : Nat) (ok : Bool) (s : State) : Out :=
  act (hasGrn s port) (whenD s.serving fun s =>
    let x := s.grn port
    if x.state != .off || !x.enable || leaveKnown s 3 (544 + port) 0 = 0 then s
    else if ok then
      (giveBack s fun p => p.kind == 3 && p.unit == 544 + port).setGrn port { x with state := .on, linkUp := true }
    else trigger s 10 port 4 0xFFF 0xFFFFF 1 0) s

/-- CXL_LINK_DOWN: a link that does not retrain within 100 ms fences the expander (R552). -/
def execCxlLinkDown (port : Nat) (retrained : Bool) (s : State) : Out :=
  act (hasGrn s port) (whenD (s.serving && (s.grn port).linkUp) fun s =>
    if retrained then s else trigger s 10 port 4 0xFFF 0xFFFFF 1 0) s

/-! ### The end of a recovery (16 R563) -/

/-- What a recovered unit comes back as. -/
def recovered (s : State) (kind index : Nat) : State :=
  match kind with
  | 0 => s.modWheel index fun x => { x with ctl := { x.ctl with state := .off, gated := true, waking := x.ctl.enable } }
  | 9 =>
    let s := s.setCtg index { s.ctg index with fault := false, ready := true }
    let s := { s with fen := { s.fen with ctgs := s.fen.ctgs &&& ~~~(1#8 <<< index) } }
    let n := 24 + index
    if (s.port n).st != .fenced then s
    else
      let s := portState (s.setPort n { s.port n with failCause := 0, retrains := 0 }) n .off
      if (s.port n).enable then portBringUp s n else s
  | 10 =>
    let inside := fun (pa : Nat) => granaryBase ≤ pa && expanderOf pa == index
    let s := { s with ms := { s.ms with
      mem := s.ms.mem.filter fun e => !inside e.1
      poison := s.ms.poison.filter fun e => !inside (32 * e.1) } }
    let s := if s.dbg.gtallies = [] then s else
      (List.range 64).foldl (fun s c => gtally s (0x101 + 2 * (64 * zeroDie s none + c)) none (96 * gib / 128 / 64)) s
    let s := s.setGrn index { s.grn index with state := .off, linkUp := false }
    if (s.grn index).enable then grnBringUp s index else s
  | _ =>
    let n := if kind = 8 then 24 + index else index
    let s := portState (s.setPort n { s.port n with failCause := 0, retrains := 0 }) n .off
    if (s.port n).enable then portBringUp s n else s

/-- RECOVERY_END: an attempt ends, with its RECOVER record (R559, R563). A wheel of a fenced die stays FENCED (R557). -/
def execRecoveryEnd (kind index : Nat) (ok : Bool) (s : State) : Out :=
  act (unitExists s kind index) (whenD (s.serving && s.fen.recs.contains (kind, index, true)) fun s =>
    let ok := ok && !(kind == 0 && s.fen.dies.getLsbD (index / 96)) && fenced s kind index
    let res := if ok then 0 else 1
    let s := { s with fen := { s.fen with recs := s.fen.recs.filter fun e => !(e.1 == kind && e.2.1 == index) } }
    let s := if s.fen.recKind = kind ∧ s.fen.recIndex = index then { s with fen := { s.fen with recResult := res } } else s
    let s := if ok then recovered s kind index else s
    record s 0xC2 514 0xFFF (payload [(kind, 124), (index, 112), (res, 104), (s.gts, 0)]) [] true) s

end Sys2Proof.Machine
end

