-- ==== Sys2Proof/Machine/Cartridges.lean ====
section
/-!
DEFINITION. Link cartridges: presence, faults, cones and wear (13 R475 to R479; 16 R549, R563).
-/
namespace Sys2Proof.Machine

/-- First twelve bytes of a serial number, and the first six, as the cone record holds them. -/
def serial12 (v : BitVec 128) : Nat := v.toNat % 2 ^ 96
def serial6 (v : BitVec 128) : Nat := v.toNat % 2 ^ 48

def ctgRecord (s : State) (c type : Nat) (p : BitVec 128) : State := record s type (800 + c) 0xFFF p [] true

/-- A cone record is whole: format and CRC hold (R478). -/
def coneOk (l : List Byte) : Bool := l.length == 32 && lf l 0 2 == 1 && lf l 30 2 == (crc16 (l.take 30)).toNat

/-- The cartridge is fenced, and its Ethernet port with it (R476, 16 R549). -/
def fenceCtg (s : State) (c : Nat) : State :=
  let was := down s 9 c
  let s := unitError s (800 + c) ecUnit 9 c 6
  if was then s else
  let s := openFence { s with fen := { s.fen with ctgs := s.fen.ctgs ||| (1#8 <<< c) } } { kind := 9, index := c, etype := 6 }
  if (s.port (24 + c)).st = .fenced then s
  else portDown (openFence s { kind := 8, index := c, etype := 14, parent := 9 }) (24 + c) .fenced 4

/-- A cartridge that does not answer or reports a fault (R476). -/
def ctgFault (s : State) (c state code : Nat) : State :=
  let s := s.setCtg c { s.ctg c with fault := true, ready := false }
  fenceCtg (ctgRecord s c 0x8B (payload [(state % 256, 120), (code % 256, 112)])) c

/-- The cone a new cartridge takes: its own record when the serial numbers differ, else the one written more often; a record that
fails is zeros (R478). The result tells whether a record failed, and whether the one taken did. -/
def adoptCone (held : List Byte) (p : CtgPages) : List Byte × Bool × Bool :=
  let own := if coneOk p.cone then p.cone else []
  let mine := if coneOk held then held else []
  if held = [] || lf held 24 6 != serial6 p.serial then (own, !coneOk p.cone, !coneOk p.cone)
  else
    let lost := !coneOk p.cone || !coneOk held
    if lf own 2 2 < lf mine 2 2 then (mine, lost, false) else (own, lost, !coneOk p.cone)

/-- A fenced Ethernet port whose new cartridge has powered up is recovered (16 R563); an enabled port that is OFF trains. -/
def ctgPower (s : State) (c : Nat) : State :=
  let n := 24 + c
  if (s.port n).st = .fenced then
    let s := recovered { s with fen := { s.fen with recs := s.fen.recs.filter fun e => !(e.2.1 == c && (e.1 == 8 || e.1 == 9)) } } 9 c
    record s 0xC2 514 0xFFF (payload [(8, 124), (c, 112), (0, 104), (s.gts, 0)]) [] true
  else
    let s := { s with fen := { s.fen with ctgs := s.fen.ctgs &&& ~~~(1#8 <<< c) } }
    if (s.port n).st = .off && (s.port n).enable && s.serving && !(s.port n).asked then portBringUp s n else s

/-- CTG_INSERT: a cartridge appears and is read; at start-up N rises only when the serial number is a new one (R475 to R478). -/
def execCtgInsert (ctg : Nat) (pages : CtgPages) (s : State) : Out :=
  act (decide (ctg < 8)) (whenD (hostUp s && !(s.ctg ctg).present) fun s =>
    let c := s.ctg ctg
    if !pages.answers then ctgFault (s.setCtg ctg { c with present := true }) ctg 0 0
    else
      let (l, lost, zeroed) := adoptCone c.held pages
      let rise := s.serving || c.held = [] || lf c.held 24 6 != serial6 pages.serial
      let n := (lf l 4 4 + if rise then 1 else 0) % 2 ^ 32
      let b := lf l 8 8
      let th := lf l 16 8
      let s := s.setCtg ctg { c with
        present := true, ready := true, fault := false, app := pages.app, historyLost := c.historyLost || zeroed, serial := pages.serial
        n := n, b := b, th := th, writes := lf l 2 2, windows := 0, win := 0, wrote := 0, hours := [(0, b, th)], wear := 0, remain := 0xFFFFFFFF, state := 0 }
      let s := ctgRecord s ctg 0x89 (payload [(serial12 pages.serial, 32), (n, 0)])
      let s := if lost then ctgRecord s ctg 0x8D (payload [(serial12 pages.serial, 32)]) else s
      ctgPower s ctg) s

/-- CTG_REMOVE: an ON port on it fails (R470, R476). -/
def execCtgRemove (ctg : Nat) (s : State) : Out :=
  act (decide (ctg < 8)) (whenD (hostUp s && (s.ctg ctg).present) fun s =>
    let c := s.ctg ctg
    let s := s.setCtg ctg { c with present := false, ready := false, fault := false, app := false }
    let n := 24 + ctg
    let s := if portUp (s.port n) then portDown s n .off 3 else s
    ctgRecord s ctg 0x8A (payload [(serial12 c.serial, 32), (c.n, 0)])) s

/-- CMIS_FAULT: the cartridge reports a fault, with its module state and fault code. -/
def execCmisFault (ctg state code : Nat) (s : State) : Out :=
  act (decide (ctg < 8)) (whenD (hostUp s && (s.ctg ctg).present) fun s => ctgFault s ctg state code) s

/-- r × 3,600 ≤ 65,536 × 2^((T − 40) / 10), with T in units of 1/256 °C (R477). -/
def heatAtLeast (t : Int) (r : Nat) : Bool :=
  let e := t - 10240
  decide ((r * 3600) ^ 2560 * 2 ^ (-e).toNat ≤ 2 ^ (40960 + e.toNat))

/-- The thermal rise of a window, rounded down, in units of 2^-16 hour. -/
def heatRise (t : Int) : Nat :=
  (List.range 14).foldl (fun r i => if heatAtLeast t (r + 2 ^ (13 - i)) then r + 2 ^ (13 - i) else r) 0

/-- CONE_WINDOW: the samples of one second, at the window's end, once (R477; 02 R56): the highest ratio of bias to reference in units of 2^-16, the case temperature in
units of 1/256 °C. How the two rises are rounded to whole units is not stated: a free bit each. -/
def execConeWindow (ctg bias : Nat) (heat : Int) (s : State) : Out :=
  act (decide (ctg < 8)) (whenD (hostUp s && !s.frozen && (s.ctg ctg).present && s.windowEnds 400000000 (s.ctg ctg).win) fun s =>
    let c := s.ctg ctg
    let (v, s) := s.free
    let up := fun (i : Nat) => if v.getLsbD i then 1 else 0
    let db := if (s.port (24 + ctg)).st = .on then bias / 3600 + (if bias % 3600 = 0 then 0 else up 0) else 0
    s.setCtg ctg { c with b := (c.b + db) % 2 ^ 64, th := (c.th + heatRise heat + up 1) % 2 ^ 64, windows := c.windows + 1, win := s.watch }) s

/-- CONE_WRITE: the write of the record 3,600 s after the last one or the insertion (R478). -/
def execConeWrite (ctg : Nat) (s : State) : Out :=
  act (decide (ctg < 8)) (whenD (hostUp s && (s.ctg ctg).present && decide ((s.ctg ctg).wrote + 3600 ≤ (s.ctg ctg).windows)) fun s =>
    coneWrite s ctg) s

/-- Hours left of a witness: `left` units at a rise of `d` units in `w` seconds; none when it does not rise. -/
def hoursLeft (left d w : Nat) : Option Nat := if d = 0 then none else some (left * w / (d * 3600))

def minHours : Option Nat → Option Nat → Nat
  | some a, some b => min (min a b) 0xFFFFFFFF
  | some a, none => min a 0xFFFFFFFF
  | none, some b => min b 0xFFFFFFFF
  | none, none => 0xFFFFFFFF

/-- WEAR_PREDICTION, once in 3,600 s (R479). -/
def execWearPrediction (ctg : Nat) (s : State) : Out :=
  act (decide (ctg < 8)) (whenD (hostUp s && (s.ctg ctg).present) fun s =>
    let c := s.ctg ctg
    if c.windows < (c.hours.head?.map Prod.fst).getD 0 + 3600 then s else
    let old := (c.hours.filter fun h => decide (c.windows ≤ h.1 + 604800)).getLast?.getD (0, c.b, c.th)
    let w := c.windows - old.1
    let bLife := bits s.img.ctgLim0.toNat 16 16 * 2 ^ 20
    let tLife := bits s.img.ctgLim0.toNat 0 16 * 2 ^ 20
    let iLife := bits s.img.ctgLim1.toNat 16 16
    let warn := bits s.img.ctgLim1.toNat 0 16
    let out := decide (bLife ≤ c.b) || decide (tLife ≤ c.th) || decide (iLife ≤ c.n)
    let wear := if out then 0xFFFF else max (c.b * 65536 / bLife) (max (c.th * 65536 / tLife) (c.n * 65536 / iLife))
    let rem := if out then 0 else minHours (hoursLeft (bLife - c.b) (c.b - old.2.1) w) (hoursLeft (tLife - c.th) (c.th - old.2.2) w)
    let st := if out then 2 else if rem < warn then 1 else 0
    let s := s.setCtg ctg { c with
      hours := (c.windows, c.b, c.th) :: c.hours.filter fun h => decide (c.windows ≤ h.1 + 604800), wear := wear, remain := rem, state := st }
    if st = c.state then s
    else ctgRecord s ctg 0x8C (payload [(st, 126), (wear, 110), (rem, 64)])) s

end Sys2Proof.Machine
end

