-- ==== Sys2Proof/Machine/Crier.lean ====
section
/-!
DEFINITION. Crier signals and waits, group bells (10 R356 to R384): class 0x21 OPs 0x00 and 0x01, class 0x22 OPs 0x10
to 0x15, and the events that belong to them.
-/
namespace Sys2Proof.Machine

/-! ### SIG -/

/-- Each executing thread signals the word at its own address (R356 to R361). -/
def execSig (i : Issue) (s : State) : Out :=
  issue i { legal := i.da == 0 && xf i 22 2 != 3 && xf i 0 21 == 0, pairs := [sa i], regs := [sb i] } (fun s c x m =>
    let vas := (lanesOf m).map fun l => pair c l (sa i)
    if vas.any fun a => a.toNat % 4 != 0 then faultAt s i fMisaligned
    else
      let s := watchAll s i c 3 4 vas
      match firstFault s c.saggar true 4 vas with
      | some code => faultAt s i code
      | none =>
        let rel := i.x.getLsbD 21
        let s := if rel then flushCombining s i.wheel c.uid else s
        next ((lanesOf m).foldl (fun s l =>
          let va := pair c l (sa i)
          let pa := paOf s c.saggar va
          let s := tallyCrew (tallyCrew s i.wheel c (memEvent s i.wheel pa 10)) i.wheel c 0x100
          let (id, s) := s.fresh
          pushStore s i.wheel (crewEntry c i x.pc va pa 0 (.signal (xf i 22 2) (reg c l (sb i))) rel false id)) s) i) s

/-! ### SIGW (R365 to R370) -/

/-- Each executing thread waits on the word at its own address; the wheel reads it at its home slice. -/
def execSigw (i : Issue) (s : State) : Out :=
  issue i { legal := decide (da i < 8) && xf i 22 2 == 0 && xf i 5 15 == 0, pairs := [sa i], regs := [sb i] } (fun s c _ m =>
    let vas := (lanesOf m).map fun l => pair c l (sa i)
    if vas.any fun a => a.toNat % 4 != 0 then faultAt s i fMisaligned
    else
      let s := watchAll s i c 0 4 vas
      match firstFault s c.saggar false 4 vas with
      | some code => faultAt s i code
      | none =>
        if m = 0 then next s i else
        let deadline := if i.x.getLsbD 20 then some (s.watch + 2 ^ (s.saggar c.saggar).cfg.bellExp / 4) else none
        let s := (lanesOf m).foldl (fun s l =>
          let va := pair c l (sa i)
          let pa := paOf s c.saggar va
          let (id, s) := s.fresh
          let wt : Wait := { who := .thread i.wheel i.slot c.uid i.path l, saggar := c.saggar, va, pa,
                             target := reg c l (sb i), reach := reachOf (xf i 0 5), deadline }
          let s := { s with crier := { s.crier with waits := Tab.ins s.crier.waits id wt } }
          let (rid, s) := s.fresh
          s.modWheel i.wheel fun x => { x with mem := { x.mem with reads := x.mem.reads ++ [
            { id := rid, slot := i.slot, uid := c.uid, path := i.path, saggar := c.saggar, pa, len := 4, dest := .wait id
              order := 1 }] } }) s
        s.modCrew i.wheel i.slot fun c => waitPath c i.path (.sigw (i.x.getLsbD 21) (da i))) s

/-- A thread's wait ends with `v` in its result predicate; the path goes on with its last thread (R366, R368, R370). -/
def endThreadWait (s : State) (id : Nat) (w : Wait) (v : Bool) : State :=
  match w.who with
  | .command .. => s
  | .tail _ => s
  | .thread wh sl uid p l =>
    let s := { s with crier := { s.crier with waits := Tab.del s.crier.waits id } }
    match s.crew? wh sl with
    | none => s
    | some c =>
      if c.uid ≠ uid then s else
      match (path? c p).map CPath.wait with
      | some (.sigw acq pred) =>
        let s := s.setCrew wh sl (setPred c l pred v)
        let s := tallyCrew s wh c 0x104
        let more := s.crier.waits.any fun e => match e.2.who with
          | .thread wh' sl' u p' _ => wh' == wh && sl' == sl && u == uid && p' == p
          | _ => false
        if more then s
        else
          let s := if acq then acquire s wh c.saggar c.layer c.operator else s
          s.modCrew wh sl fun c => pathNext (waitPath c p .ready) p
      | _ => s

/-- A stream command's wait ends: the command is complete (11 R416). -/
def endCommandWait (s : State) (id : Nat) (w : Wait) : State :=
  match w.who with
  | .thread .. => s
  | .tail _ => s
  | .command n pos =>
    completeCmd { s with crier := { s.crier with waits := Tab.del s.crier.waits id } } n (BitVec.ofNat 32 pos)

/-- A wake arrives (R368, R382): of a wait on a word, or from a group bell. -/
def execWake (id : Nat) (s : State) : Out :=
  act true (fun s =>
    if !memRuns s then s else
    match Tab.find s.crier.waits id with
    | some w => if w.st = .woken then (match w.who with
        | .thread .. => endThreadWait s id w true
        | _ => endCommandWait s id w) else s
    | none =>
      match Tab.find s.crier.gwakes id with
      | none => s
      | some g =>
        let s := { s with crier := { s.crier with gwakes := Tab.del s.crier.gwakes id } }
        match s.crew? g.wheel g.slot with
        | none => s
        | some c =>
          if c.uid ≠ g.uid then s else
          match (path? c g.path).map CPath.wait with
          | some (.gbell ..) => acquire (s.setCrew g.wheel g.slot (pathNext (waitPath c g.path .ready) g.path)) g.wheel c.saggar c.layer c.operator
          | _ => s) s

/-- A polled wait is read again 512 CORE cycles, 128 ticks, after the last time (R369); a changed TAIL_WORD is offered (11 R411). -/
def execSigwPoll (id : Nat) (s : State) : Out :=
  act true (fun s =>
    match Tab.find s.crier.waits id with
    | none => s
    | some w =>
      if !memRuns s || w.st ≠ .polled || lineBusy s w.pa || decide (s.watch < w.read + 128) then s
      else if poisoned s w.pa then
        match w.who with
        | .thread wh sl uid p _ => faultUid s wh sl uid fOperand (pcOfPath s wh sl p)
        | .command n pos =>
          let b := (s.stream n).begun.find? fun b => b.pos.toNat == pos
          frontFault s n fOperand ((b.map Begun.layer).getD 0xFFFFF) ((b.map Begun.op).getD 0xFFF)
        | .tail _ => s
      else if w.isTail then
        let v := memWord s w.pa
        let w := { w with read := s.watch }
        let s := touchLine s w.pa false 0
        if v = w.target then { s with crier := { s.crier with waits := Tab.ins s.crier.waits id w } } else takeTail s id w v
      else
        let s := match w.who with
          | .thread wh sl _ _ _ => (match s.crew? wh sl with
            | some c => tallyCrew s wh c 0x105
            | none => s)
          | _ => s
        judgeWait (touchLine s w.pa false 0) id w (memWord s w.pa) .polled) s

/-- A SIGW with TIMEOUT expires (R370); a wake in the expiry tick is taken. -/
def execSigwTimeout (id : Nat) (s : State) : Out :=
  act true (fun s =>
    match Tab.find s.crier.waits id with
    | none => s
    | some w =>
      match w.deadline with
      | none => s
      | some d => if w.st ≠ .woken && decide (d < s.watch) then
          (match w.who with
           | .thread wh sl _ _ _ => endThreadWait (s.modWheel wh fun x => { x with mem := { x.mem with
               reads := x.mem.reads.filter fun r => !(r.slot == sl && r.dest == .wait id) } }) id w false
           | _ => s)
        else s) s

/-! ### Group bells (R378 to R384) -/

/-- A group-bell instruction: handle from SA of the lead lane, checks that each shares, then `body`. -/
def gbellOp (i : Issue) (useDa useSb reset : Bool) (body : State → Crew → Nat → GBell → Nat → Word → State) (s : State) : Out :=
  issue i { legal := (useDa || i.da == 0) && (useSb || i.sb == 0) && i.x == 0
            regs := sa i :: (if useDa then [da i] else []) ++ (if useSb then [sb i] else []) } (fun s c _ m =>
    match leadLane m with
    | none => next s i
    | some l =>
      let h := (reg c l (sa i)).toNat % 256
      if (s.saggar c.saggar).cfg.groupBells ≤ h then faultAt s i fBellMask
      else
        let g := gbell s c.saggar h
        if g.broken && !reset then faultAt s i fBellTimeout
        else body s c h g l m) s

/-- The crew becomes a member (R379, R384). -/
def execBellGjoin (i : Issue) (s : State) : Out :=
  gbellOp i false false false (fun s c h g _ _ =>
    if c.uid ∈ g.members || 16384 ≤ g.members.length then faultAt s i fBellMask
    else next (setGbell (tallyCrew s i.wheel c 0x106) c.saggar h { g with members := c.uid :: g.members }) i) s

/-- The crew leaves (R379, R381). -/
def execBellGleave (i : Issue) (s : State) : Out :=
  gbellOp i false false false (fun s c h g _ _ =>
    if c.uid ∈ g.members then
      next (gLeave { s with crier := { s.crier with
        arrivals := s.crier.arrivals.filter fun e => !(e.2.uid == c.uid && e.2.handle == h) } } c.saggar h c.uid) i
    else faultAt s i fBellMask) s

/-- An arrival leaves once the crew's release has completed (R382). -/
def startArrival (s : State) (i : Issue) (c : Crew) (h : Nat) (g : GBell) : State :=
  let (id, s) := issueRelease s i.wheel i.slot c.uid
  let a : GArrival := { wheel := i.wheel, slot := i.slot, uid := c.uid, saggar := c.saggar, handle := h, phase := g.phase }
  { s with crier := { s.crier with arrivals := Tab.ins s.crier.arrivals id a } }

/-- The crew may arrive: a member that has not arrived in this phase, nor is on its way (R384). -/
def mayArrive (s : State) (c : Crew) (h : Nat) (g : GBell) : Bool :=
  g.members.contains c.uid && !g.arrived.contains c.uid &&
  !(s.crier.arrivals.any fun e => e.2.uid == c.uid && e.2.handle == h)

/-- Arrive and wait for the release of the current phase (R379). -/
def execBellGarrive (i : Issue) (s : State) : Out :=
  gbellOp i false false false (fun s c h g _ _ =>
    if mayArrive s c h g then
      let s := startArrival (tallyCrew s i.wheel c 0x107) i c h g
      settleAll (s.modCrew i.wheel i.slot fun c => waitPath c i.path (.gbell h g.phase)) i.wheel
    else faultAt s i fBellMask) s

/-- Arrive, write the phase into DA and go on (R379). -/
def execBellGsignal (i : Issue) (s : State) : Out :=
  gbellOp i true false false (fun s c h g _ m =>
    if mayArrive s c h g then
      let s := startArrival (tallyCrew s i.wheel c 0x107) i c h g
      settleAll (next (s.modCrew i.wheel i.slot fun c => (lanesOf m).foldl (fun c l => setReg c l (da i) g.phase) c) i) i.wheel
    else faultAt s i fBellMask) s

/-- Wait until the phase has reached the value in SB plus one, with the full reach (R379). -/
def execBellGwait (i : Issue) (s : State) : Out :=
  gbellOp i false true false (fun s c h g l _ =>
    if c.uid ∈ g.members then
      let p := reg c l (sb i)
      match judge g.phase (p + 1) (reachOf 0) with
      | .satisfied => next (acquire s i.wheel c.saggar c.layer c.operator) i
      | .stale => next (acquire (recordWheel s i.wheel 0x21 c.saggar
          (payload [(g.phase.toNat, 96), ((p + 1).toNat, 64), (1, 5)]) false c.layer c.operator) i.wheel c.saggar c.layer c.operator) i
      | .waits => s.modCrew i.wheel i.slot fun c => waitPath c i.path (.gbell h p)
    else faultAt s i fBellMask) s

/-- Clear members and arrivals, advance the phase, set READY (R379); a wait the new phase satisfies is woken. -/
def execBellGreset (i : Issue) (s : State) : Out :=
  gbellOp i false false true (fun s c h g _ _ =>
    let s := setGbell s c.saggar h { phase := g.phase + 1 }
    let s := { s with crier := { s.crier with
      arrivals := s.crier.arrivals.filter fun e => !(e.2.saggar == c.saggar && e.2.handle == h) } }
    next (addGWakes s (gWaiters s c.saggar h (g.phase + 1))) i) s

/-- An arrival reaches its bell (R380, R382). -/
def execGbellArrival (id : Nat) (s : State) : Out :=
  act true (fun s =>
    match Tab.find s.crier.arrivals id with
    | none => s
    | some a =>
      if !memRuns s || !released s a.wheel id then s else
      let s := { s with crier := { s.crier with arrivals := Tab.del s.crier.arrivals id } }
      let g := gbell s a.saggar a.handle
      if g.broken then faultUid s a.wheel a.slot a.uid fBellTimeout 0
      else if a.uid ∈ g.members && !g.arrived.contains a.uid then
        gRelease (setGbell s a.saggar a.handle { g with arrived := a.uid :: g.arrived, since := match g.since with
          | none => some s.watch
          | some t => some t }) a.saggar a.handle
      else s) s

/-- The path of a crew that waits on a bell. -/
def bellPath (c : Crew) (h : Nat) : Option CPath :=
  (c.paths.find? fun p => match p.2.wait with
    | .gbell h' _ => h' == h
    | _ => false).map Prod.snd

/-- Crews of a saggar whose paths wait on a bell: wheel, slot, crew, path. -/
def bellWaiters (s : State) (k h : Nat) : List (Nat × Nat × Crew × CPath) :=
  s.wheels.flatMap fun we => we.2.crews.filterMap fun ce =>
    if ce.2.saggar = k then (bellPath ce.2 h).map fun p => (we.1, ce.1, ce.2, p) else none

/-- Crews of a saggar that were evicted while they waited on the bell. -/
def savedWaiters (s : State) (k h : Nat) : List Resume :=
  (s.front.launches.flatMap fun e => e.2.resumables) ++
    (s.wheels.flatMap fun we => (we.2.work.deque ++ we.2.work.kept).filterMap TaskRange.saved) |>.filter fun r =>
      r.crew.saggar == k && (bellPath r.crew h).isSome

/-- Every crew that waits on the bell faults (R383): each resident one with its record, before their streams stop; one that is evicted
stands on no wheel, and its stream's fault carries no address (log entry 84). -/
def bellBreaks (s : State) (k h : Nat) : State :=
  let here := bellWaiters s k h
  let away := savedWaiters s k h
  let s := here.foldl (fun s (w, slot, c, p) => faultRecord s w slot fBellTimeout c.saggar c.stream c.part c.live.toNat c.layer c.operator p.pc) s
  let s := here.foldl (fun s (_, _, c, _) => streamFault s c.stream fBellTimeout) s
  away.foldl (fun s r => if (s.stream r.crew.stream).st = 1 then frontFault s r.crew.stream fBellTimeout r.crew.layer r.crew.operator else s) s

/-- The bell's watchdog expires (R383): BROKEN, its waiters fault, a BELL_BROKEN record. A release in the expiry tick is
taken. -/
def execGbellTimeout (saggar handle : Nat) (s : State) : Out :=
  act (decide (saggar < 4096)) (fun s =>
    let g := gbell s saggar handle
    match g.since with
    | none => s
    | some t =>
      if !g.broken && decide (t + 2 ^ (s.saggar saggar).cfg.bellExp / 4 < s.watch) then
        let s := setGbell s saggar handle { g with broken := true, since := none }
        let s := record s 0x80 512 saggar (payload [(handle, 120), (g.phase.toNat, 88), (g.members.length, 72),
          (g.arrived.length, 56)]) [saggar] false
        bellBreaks s saggar handle
      else s) s

end Sys2Proof.Machine
end

