-- ==== Sys2Proof/Machine/Collect.lean ====
section
/-!
DEFINITION. COLLECT and the collectors (10 R385 to R391).
-/
namespace Sys2Proof.Machine

/-- Offer a completion record to collector SA[5:0] with the tag in SB; with REL once the crew's release has completed
(R360, R386 to R388). -/
def execCollect (i : Issue) (s : State) : Out :=
  issueStall i { legal := i.da == 0 && (i.x == 0 || i.x == 1 <<< 21), regs := [sa i, sb i] }
    (fun s _ _ _ => decide (outstanding s i.wheel < 4)) (fun s c _ m =>
    match leadLane m with
    | none => next s i
    | some l =>
      let n := (reg c l (sa i)).toNat % 64
      let x := s.coll n
      if !x.bound || x.saggar ≠ c.saggar then faultAt s i fTranslation
      else
        let (g, s) := wheelStamp s i.wheel
        let s := tallyCrew s i.wheel c 0x10A
        let r : CRec := { gts := BitVec.ofNat 64 g, tag := reg c l (sb i), stream := c.stream, source := i.wheel, kind := false
                          stretch := decide (4 < (s.wheel i.wheel).ctl.period) }
        if i.x.getLsbD 21 then
          let (id, s) := issueRelease s i.wheel i.slot c.uid
          settleAll (next (offerRec s n { r with rel := some id }) i) i.wheel
        else next (offerRec s n r) i) s

/-- A completion record's 16 bytes (R387). -/
def crecBytes (r : CRec) : List Byte :=
  leBytes 8 r.gts.toNat ++ leBytes 8 (r.tag.toNat * 2 ^ 32 + r.stream % 2 ^ 20 * 2 ^ 12 + r.source % 1024 * 4 +
    (if r.kind then 2 else 0) + (if r.stretch then 1 else 0))

/-- The key of a record (R387, 02 R51). -/
def crecKey (r : CRec) : Nat := r.gts.toNat * 1024 + r.source

/-- Insert a record in key order, after its equals. -/
def insKey (r : CRec) : List CRec → List CRec
  | [] => [r]
  | q :: l => if crecKey r < crecKey q then r :: q :: l else q :: insKey r l

def sortKeys (l : List CRec) : List CRec := l.foldl (fun a r => insKey r a) []

/-- The ring has room for one more record (R389). -/
def ringRoom (x : Collector) : Bool := decide ((BitVec.ofNat 32 x.drained - x.head).toNat < x.entries)

/-- Collector `c` writes its next record's whole sector, under its own source number (R390; 02 R49). The half beside the record stays as it
stands; in a poisoned sector, which the write clears, that half holds what is not stated (log entry 83). -/
def ringWrite (s : State) (c : Nat) (x : Collector) (bs : List Byte) : State :=
  let va := x.ring + BitVec.ofNat 64 (16 * (x.drained % x.entries))
  let s := watchAccess (hubXlat s x.saggar va) 5 x.saggar 0xFFFFF (555 + c) va 32
  match translate s x.saggar va with
  | none => s
  | some (pa, _) =>
    let base := pa / 32 * 32
    let (old, s) := if poisoned s pa then (let (v, s) := s.free; (leBytes 32 v.toNat, s)) else (memBytes s base 32, s)
    performWrite s base (patch old (pa % 32) bs) 0

/-- Drain up to `fuel` held records, lowest key first, into the ring (R388, R389). -/
def drainHeld (s : State) (c : Nat) : Nat → State
  | 0 => s
  | fuel + 1 =>
    let x := s.coll c
    match sortKeys x.held with
    | [] => s
    | r :: rest =>
      if !ringRoom x || !settled s x.saggar (x.ring + BitVec.ofNat 64 (16 * (x.drained % x.entries))) 16 then s else
      let s := ringWrite s c x (crecBytes r)
      drainHeld (s.setColl c { x with held := rest, drained := x.drained + 1, inFlight := x.inFlight ++ [r.stream] }) c fuel

/-- One FABRIC cycle of a collector (R388): first drain, then accept. -/
def execCollectorCycle (c : Nat) (s : State) : Out :=
  act (decide (c < 64)) (whenD (memRuns s) fun s =>
    let x := s.coll c
    if !x.bound then s else
    let s := drainHeld s c 8
    let x := s.coll c
    let ready := sortKeys (x.offered.filter fun r => r.rel.isNone)
    let took := ready.take (min 8 (8 - x.held.length))
    let s := s.setColl c { x with held := x.held ++ took, offered := took.foldl (fun l r => l.erase r) x.offered }
    sendBehind (gtally s 0x007 (some x.saggar) took.length)) s

/-- Announce by MSI-X (R391). -/
def announce (s : State) (c : Nat) : State :=
  let x := s.coll c
  match x.vector with
  | none => s
  | some v => sendMsix (s.setColl c { x with announced := x.count, since := none }) v

/-- Every ring write drained so far has been acknowledged: COUNT_WORD advances by them (R390), and the threshold may announce (R391). An
advance that is not applied announces nothing and faults the streams whose records it covers (R674). -/
def execCollectorCountAdvance (c : Nat) (s : State) : Out :=
  act (decide (c < 64)) (whenD (memRuns s) fun s =>
    let x := s.coll c
    if x.inFlight = [] || !settled s x.saggar x.countWord 4 then s else
    match engSignal s { saggar := x.saggar, source := 555 + c } x.countWord 0 (BitVec.ofNat 32 x.inFlight.length) with
    | (none, s) =>
      let x := { x with count := x.count + x.inFlight.length, inFlight := [] }
      let s := s.setColl c { x with since := if x.coalesce ≠ 0 && x.since.isNone then some s.watch else x.since }
      if x.threshold ≤ x.count - x.announced then announce s c else s
    | (some e, s) =>
      x.inFlight.foldl (fun s n => if (s.stream n).st = 1 then frontFault s n (engCode e) 0xFFFFF 0xFFF else s)
        (s.setColl c { x with inFlight := [] })) s

/-- A full collector rereads HEAD_WORD at its home slice (R389). -/
def execCollectorHeadReread (c : Nat) (s : State) : Out :=
  act (decide (c < 64)) (whenD (memRuns s) fun s =>
    let x := s.coll c
    if !x.bound || !settled s x.saggar x.headWord 4 then s else
    match translate s x.saggar x.headWord with
    | none => s
    | some (pa, _) => (touchLine s pa false 0).setColl c { x with head := memWord s pa }) s

/-- A record has waited unannounced for COALESCE ticks (R391). -/
def execCollectorCoalesce (c : Nat) (s : State) : Out :=
  act (decide (c < 64)) (whenD (memRuns s) fun s =>
    let x := s.coll c
    match x.since with
    | none => s
    | some t => if x.coalesce ≠ 0 && x.announced != x.count && decide (t + x.coalesce ≤ s.watch) then announce s c else s) s

/-- An unbind completes once nothing of the collector is in flight (R675). -/
def execCollectorUnbindEnd (c : Nat) (s : State) : Out :=
  act (decide (c < 64)) (whenD (memRuns s) fun s =>
    let x := s.coll c
    match x.unbinding with
    | none => s
    | some (fn, n) => if x.inFlight = [] then complete (s.setColl c {}) fn n 0 else s) s

end Sys2Proof.Machine
end

