-- ==== Sys2Proof/Machine/Transcend.lean ====
section
/-!
DEFINITION. Transcendental operations (05 R173; 06 R227 to R229; 07 R287).

The spec bounds each result to 1 or 2 ulp of the exact value and makes it a fixed function of the input. Here the exact
value is computed to 576 fractional bits, the results within the bound are counted, and `Config.approxPick` chooses one
of them (log entry 11). An infinite input has no stated result: its result is a fixed function that nothing constrains.
-/
namespace Sys2Proof.Machine

/-- Fractional bits of the computation. -/
def tP : Nat := 576
/-- 2^576. -/
def tOne : Nat := 2 ^ 576
/-- ln 2 × 2^576. -/
def tLn2 : Nat := 171436370447841751810397033449194206923863603888853761105325500776960719192244778072115017417183862947462110757002900991935266221463676335241802912555763396667947900633540805
/-- 2π × 2^576. -/
def tTwoPi : Nat := 1554022744554638759521102088609443152715140802936734802664839337986631027136439827933667415037735500843569437161207703348428146632414094942304462349608702945888601140660270647
/-- 1 / 2π × 2^768. -/
def tInv2Pi : Nat := 247090928629257240812467048839513197145079590955309639667657034118546011264784891256135888446620221111936904229883218140387899222340811122051810771137260186313280134827155229007957048599730889330234681805595815336573510803574056451
/-- 2 / √π × 2^576. -/
def tTwoSqrtPi : Nat := 279082472411620430294579507908382979740026877023878662437981723043019663225062237617166014469249869236745592048541215780236068262848171200237527615548099374287461967455816893

/-- A real number as computed: sign, and magnitude m × 2^e exactly when `ex`, else between m and m + 1 units. -/
structure Real where
  neg : Bool := false
  m : Nat
  e : Int := -576
  ex : Bool := false

/-- The result within `u` ulp of `r` in format `f` that the module returns for `input` of operation `op`. -/
def Fmt.within (f : Fmt) (op input u : Nat) (r : Real) : Nat :=
  let q := max (r.e + bitLen r.m - 1 - f.mb) f.emin
  let sh := q - r.e
  let n := scaleNat r.m (-sh)
  let ex := r.ex && (decide (sh ≤ 0) || decide (r.m % 2 ^ sh.toNat = 0))
  let cnt := if ex then 2 * u + 1 else 2 * u
  let k : Int := (n : Int) - u + (if ex then 0 else 1) + (Config.approxPick op input % cnt : Nat)
  (f.pack 0 false (.fin (r.neg != decide (k < 0)) k.natAbs q)).code

/-- Terms of e^r from t on, r in units of 2^-576. -/
def expSum : Nat → Nat → Nat → Nat → Nat
  | 0, _, _, _ => 0
  | fuel + 1, k, t, r => t + expSum fuel (k + 1) (t * r / tOne / k) r

/-- e^r for 0 ≤ r < 1. -/
def expFix (r : Nat) : Nat := expSum 160 1 tOne r

/-- A finite value in units of 2^-576, its magnitude held to 4096 at most. -/
def fixOf (neg : Bool) (m : Nat) (e : Int) : Int :=
  let n : Int := min (scaleNat m (min (e + tP) 4096)) (4096 * tOne)
  if neg then -n else n

/-- e^x, x in units of 2^-576. -/
def expReal (x : Int) : Real :=
  let k := Int.fdiv x tLn2
  { m := expFix (x - k * tLn2).toNat, e := k - tP, ex := x == 0 }

/-- 2^x. -/
def exp2Real (x : Int) : Real :=
  let k := Int.fdiv x tOne
  let f := (x - k * tOne).toNat
  { m := expFix (f * tLn2 / tOne), e := k - tP, ex := f == 0 }

/-- Terms of atanh from power t of z on, z² given, denominators from k on. -/
def atanhSum : Nat → Nat → Nat → Nat → Nat
  | 0, _, _, _ => 0
  | fuel + 1, k, t, z2 => t / k + atanhSum fuel (k + 2) (t * z2 / tOne) z2

/-- log2 (m × 2^e), m above zero. -/
def log2Real (m : Nat) (e : Int) : Real :=
  let l := bitLen m
  let f := scaleNat m ((tP : Int) - (l - 1))
  let z := (f - tOne) * tOne / (f + tOne)
  let ln := 2 * atanhSum 192 1 z (z * z / tOne)
  let t : Int := (e + l - 1) * tOne + (ln * tOne / tLn2 : Nat)
  { neg := decide (t < 0), m := t.natAbs, ex := f == tOne }

/-- e^-x in units of 2^-576, at least one unit, x at or above zero. -/
def expNeg (x : Int) : Nat :=
  let r := expReal (-x)
  max 1 (scaleNat r.m (r.e + tP))

/-- tanh x. -/
def tanhReal (x : Int) : Real :=
  let u := expNeg (2 * x.natAbs)
  { neg := decide (x < 0), m := if x = 0 then 0 else (tOne - u) * tOne / (tOne + u), ex := x == 0 }

/-- 1 / (1 + e^-x). -/
def sigmoidReal (x : Int) : Real :=
  let u := expNeg x.natAbs
  { m := if x = 0 then tOne / 2 else if 0 < x then tOne * tOne / (tOne + u) else u * tOne / (tOne + u), ex := x == 0 }

/-- Terms of the error function from t = (-1)^k x^(2k+1) / k! on. -/
def erfSum : Nat → Nat → Int → Int → Int
  | 0, _, _, _ => 0
  | fuel + 1, k, t, x2 => t / (2 * k + 1 : Nat) + erfSum fuel (k + 1) (-(t * x2 / tOne / (k + 1 : Nat))) x2

/-- erf x. -/
def erfReal (x : Int) : Real :=
  let a := x.natAbs
  { neg := decide (x < 0), ex := x == 0
    m := if x = 0 then 0 else if 8 * tOne ≤ a then tOne - 1
      else min (tOne - 1) ((erfSum 420 0 a (a * a / tOne : Nat)).natAbs * tTwoSqrtPi / tOne) }

/-- Terms of sine (k = 1) or cosine (k = 0) from t = ± θ^k / k! on. -/
def trigSum : Nat → Nat → Int → Int → Int
  | 0, _, _, _ => 0
  | fuel + 1, k, t, y2 => t + trigSum fuel (k + 2) (-(t * y2 / tOne / ((k + 1) * (k + 2) : Nat))) y2

/-- Sine and cosine of t turns, t in units of 2^-576 below one turn. -/
def trigTurns (t : Nat) (exact : Bool) : Real × Real :=
  let q := (4 * t + tOne / 2) / tOne
  let d : Int := 4 * (t : Int) - q * tOne
  let y := d * tTwoPi / (4 * tOne : Nat)
  let y2 := y * y / tOne
  let ex := exact && d == 0
  let s := trigSum 100 1 y y2
  let c := trigSum 100 0 tOne y2
  let mk := fun (v : Int) => ({ neg := decide (v < 0), m := v.natAbs, ex } : Real)
  match q % 4 with
  | 0 => (mk s, mk c)
  | 1 => (mk c, mk (-s))
  | 2 => (mk (-s), mk (-c))
  | _ => (mk (-c), mk s)

/-- Sine and cosine of ± m × 2^e. -/
def trigReal (neg : Bool) (m : Nat) (e : Int) : Real × Real :=
  let (s, c) := trigTurns (scaleNat (m * tInv2Pi) (e - 192) % tOne) (m == 0)
  ({ s with neg := s.neg != neg }, c)

/-- 1 / (m × 2^e). -/
def rcpReal (neg : Bool) (m : Nat) (e : Int) : Real := { neg, m := tOne / m, e := -(e + tP), ex := tOne % m == 0 }

/-- 1 / √(m × 2^e). -/
def rsqrtReal (m : Nat) (e : Int) : Real :=
  let (m, e) := if e % 2 = 0 then (m, e) else (2 * m, e - 1)
  let r := isqrt (tOne * tOne / m)
  { m := r, e := -(tP : Int) - e / 2, ex := r * r * m == tOne * tOne }

/-- The transcendental operations, numbered by the stage opcodes of 06 R227. -/
def transReal (op : Nat) (neg : Bool) (m : Nat) (e : Int) : Real :=
  match op with
  | 0x20 => rcpReal neg m e
  | 0x21 => rsqrtReal m e
  | 0x23 => exp2Real (fixOf neg m e)
  | 0x24 => log2Real m e
  | 0x25 => expReal (fixOf neg m e)
  | 0x26 => if m = 0 then { neg, m := 0, ex := true } else tanhReal (fixOf neg m e)
  | 0x27 => sigmoidReal (fixOf neg m e)
  | 0x28 => if m = 0 then { neg, m := 0, ex := true } else erfReal (fixOf neg m e)
  | 0x29 => if m = 0 then { neg, m := 0, ex := true } else (trigReal neg m e).1
  | _ => (trigReal neg m e).2

/-- An FP32 transcendental operation (06 R227 to R229): domain results, SQRT rounded correctly, the others within 1 ulp
(RCP, RSQRT, EXP2, LOG2) or 2 ulp. -/
def trans32 (op : Nat) (w : Word) : Word :=
  match f32 w with
  | .nan => canon32
  | .inf s =>
    if op = 0x22 then BitVec.ofNat 32 (fp32.sqrt (.inf s)) else
    if s && (op == 0x21 || op == 0x24) then canon32 else
    let r := BitVec.ofNat 32 (Config.approxPick op w.toNat)
    if (f32 r).isNan then canon32 else r
  | .fin s m e =>
    if op = 0x22 then fsqrt w
    else if m = 0 && (op == 0x20 || op == 0x21) then BitVec.ofNat 32 (fp32.infCode s)
    else if m = 0 && op == 0x24 then BitVec.ofNat 32 (fp32.infCode true)
    else if s && (op == 0x21 || op == 0x24) then canon32
    else BitVec.ofNat 32 (fp32.within op w.toNat (if op ≤ 0x24 then 1 else 2) (transReal op s m e))

def rcp32 (w : Word) : Word := trans32 0x20 w
def rsqrt32 (w : Word) : Word := trans32 0x21 w
def exp2_32 (w : Word) : Word := trans32 0x23 w

/-- The pair (cosine, sine) of a 48-bit phase in a format (07 R287): phase 0 gives (1.0, +0). -/
def phasePair (f : Fmt) (phase : Nat) : Nat × Nat :=
  if phase = 0 then (f.rne (.fin false 1 0), 0) else
  let (s, c) := trigTurns (phase * 2 ^ 528) true
  (f.within 0x41 (phase * 16 + f.mb % 16) 1 c, f.within 0x40 (phase * 16 + f.mb % 16) 1 s)

end Sys2Proof.Machine
end

