-- ==== Sys2Proof/Machine/Chain.lean ====
section
/-!
DEFINITION. Fused chains as values: the descriptor (06 R222 to R227), one element (R224 to R229, R238), reductions (R239,
R240), and the wheel's view of memory that chains and the traversal unit read through.
-/
namespace Sys2Proof.Machine

/-! ### Ordinary reads of engines through the wheel (06 R222, R250) -/

/-- No fault: a line in transfer holds the engine (08 R323, R325). -/
def fWait : Nat := 0x100

/-- One byte as an ordinary load of the wheel sees it: its L1, else its own stores on their way, else the home slice. -/
def viewByte (s : State) (w k : Nat) (va : DWord) : Except Nat Byte :=
  match translate s k va with
  | none => .error fTranslation
  | some (pa, _) =>
    match (l1Sector s w pa).filter fun e => e.saggar == k with
    | some e => .ok (e.bytes.getD (pa % 32) 0)
    | none =>
      let own := (s.wheel w).mem.store.reverse.findSome? fun e =>
        match e.op with
        | .bytes t => if e.pa / 32 = pa / 32 && !e.performed then Tab.find t (pa % 32) else none
        | _ => none
      match own with
      | some b => .ok b
      | none => if lineBusy s pa then .error fWait else if poisoned s pa then .error fOperand else .ok (memByte s pa)

/-- Bytes from an address on. -/
def viewBytes (s : State) (w k : Nat) (va : DWord) : Nat → Except Nat (List Byte)
  | 0 => .ok []
  | n + 1 =>
    match viewByte s w k va with
    | .error e => .error e
    | .ok b =>
      match viewBytes s w k (va + 1) n with
      | .error e => .error e
      | .ok l => .ok (b :: l)

/-! ### The descriptor (R222, R223, R225) -/

def ChainStream.of (l : List Byte) : ChainStream :=
  let c := leNat ((l.drop 8).take 8)
  { addr := BitVec.ofNat 64 (leNat (l.take 8)), kind := bits c 60 4, format := bits c 54 6, round := bits c 51 3
    sat := bits c 50 1 == 1, cache := bits c 48 2, modulus := bits c 24 24 }

def ChainStage.of (l : List Byte) : ChainStage :=
  let c := leNat (l.take 8)
  { op := bits c 56 8, x := bits c 52 4, y := bits c 48 4, z := bits c 44 4, save := bits c 43 1 == 1, hold := bits c 41 2
    round := bits c 38 3, format := bits c 32 6, sat := bits c 31 1 == 1 }

def ChainDesc.of (l : List Byte) : ChainDesc :=
  let st := fun o => ChainStream.of ((l.drop o).take 16)
  let n := bits (l.getD 96 0).toNat 0 4
  { a := st 0, b := st 16, c := st 32, m := st 48, y := st 64, z := st 80
    stages := (List.range n).map fun k => ChainStage.of ((l.drop (128 + 8 * k)).take 8)
    precision := bits (l.getD 97 0).toNat 0 2, redOp := bits (l.getD 98 0).toNat 0 4, maskEn := (l.getD 99 0).getLsbD 0
    ks := (List.range 4).map fun k => BitVec.ofNat 32 (leNat ((l.drop (112 + 4 * k)).take 4)) }

/-- Reserved fields are zero and the stage count is 1 to 8. -/
def descClean (l : List Byte) : Bool :=
  let n := bits (l.getD 96 0).toNat 0 4
  decide (1 ≤ n) && decide (n ≤ 8) && decide ((l.getD 96 0).toNat < 16) && decide ((l.getD 97 0).toNat < 4) &&
  decide ((l.getD 98 0).toNat < 16) && decide ((l.getD 99 0).toNat < 2) && ((l.drop 100).take 12).all (· == 0) &&
  ((List.range 6).all fun k => leNat ((l.drop (16 * k + 8)).take 3) == 0) &&
  ((List.range n).all fun k => leNat ((l.drop (128 + 8 * k)).take 4) % 2 ^ 31 == 0)

/-- Operands a stage opcode reads, or none for an opcode that does not exist (R227). -/
def stageArity : Nat → Option Nat
  | 0x00 => some 1 | 0x01 => some 2 | 0x02 => some 2 | 0x03 => some 2 | 0x04 => some 3 | 0x05 => some 2 | 0x06 => some 2
  | 0x07 => some 1 | 0x08 => some 1 | 0x09 => some 3 | 0x0A => some 2 | 0x0B => some 2 | 0x0C => some 3
  | 0x0D => some 2 | 0x0E => some 2 | 0x0F => some 2 | 0x18 => some 1 | 0x19 => some 1 | 0x1A => some 1
  | 0x20 => some 1 | 0x21 => some 1 | 0x22 => some 1 | 0x23 => some 1 | 0x24 => some 1 | 0x25 => some 1 | 0x26 => some 1
  | 0x27 => some 1 | 0x28 => some 1 | 0x29 => some 1 | 0x2A => some 1 | 0x30 => some 0 | 0x31 => some 0
  | _ => none

/-- The opcode exists in the chain precision (R227). -/
def stageIn (op p : Nat) : Bool :=
  if op ≤ 0x0C || op = 0x31 then true
  else if op ≤ 0x0F then p == 3
  else if op = 0x18 || op = 0x19 then p != 3
  else p == 0 || p == 1

/-- Select codes a stage reads. -/
def stageSels (t : ChainStage) : List Nat := [t.x, t.y, t.z].take ((stageArity t.op).getD 0)

def terminalOf (d : ChainDesc) : Nat := match d.stages.getLast? with
  | some t => if t.op = 0x30 || t.op = 0x31 then t.op else 0
  | none => 0

/-- A stage may stand at place `n` (R227). -/
def stageOk (d : ChainDesc) (n : Nat) (t : ChainStage) : Bool :=
  (stageArity t.op).isSome && stageIn t.op d.precision &&
  (!(t.op == 0x30 || t.op == 0x31) || n + 1 == d.stages.length) &&
  (t.op != 0x1A || (isFormat t.format && decide (t.round ≤ 4))) &&
  (stageSels t).all fun o =>
    (o != 1 || d.a.kind != 0) && (o != 2 || d.b.kind != 0) && (o != 3 || d.c.kind != 0) &&
    (!(decide (8 ≤ o) && decide (o < 12)) || (d.stages.take n).any fun u => u.save && u.hold + 8 == o)

/-- An input stream's fields are ones a chain takes (R223, R224); whether a window's format matches its type is judged apart. -/
def inOk (x : ChainStream) : Bool :=
  x.kind == 0 || (decide (x.kind ≤ 4) && (x.kind == 4 || isFormat x.format) && x.format != 0 && x.format != 11 && x.cache != 3)

/-- The output's fields; the format of a window, and of a chain that quantizes, is judged apart (R224, R231). -/
def outOk (quant : Bool) (x : ChainStream) : Bool :=
  x.kind == 0 || (decide (x.kind ≤ 4) && (x.kind == 4 || quant || isFormat x.format) && decide (x.round ≤ 4) && x.cache != 3)

/-- The descriptor's own checks (R222 to R227, R239). -/
def descOk (d : ChainDesc) : Bool :=
  inOk d.a && inOk d.b && inOk d.c && outOk (terminalOf d == 0x30) d.y && decide (d.m.kind ≤ 4) && decide (d.z.kind ≤ 4) &&
  (!d.maskEn || (decide (1 ≤ d.m.kind) && decide (d.m.kind ≤ 3))) &&
  (((List.range d.stages.length).zip d.stages).all fun e => stageOk d e.1 e.2) &&
  (if terminalOf d = 0x31 then
     (d.z.kind == 2 || d.z.kind == 3) && decide (d.redOp ≤ 7) && (!(d.redOp == 4 || d.redOp == 5) || d.precision == 3)
   else if terminalOf d = 0x30 then d.y.kind != 0 && d.z.kind != 0
   else true)

/-- The chain reads a step scale. -/
def readsScale (d : ChainDesc) : Bool :=
  d.stages.any fun t => t.op == 0x18 || t.op == 0x19 || (stageSels t).contains 0xC

/-! ### Values of a chain

FP32 and BF16 chains carry FP32 codes (a BF16 result is an FP32 code that BF16 holds exactly), FP64 chains FP64 codes and
INT32 chains words. -/

/-- Format code of the chain precision (R171). -/
def precFormat (p : Nat) : Nat := if p = 0 then 6 else if p = 1 then 4 else if p = 2 then 8 else 9
/-- Format code that carries the values. -/
def carrier (p : Nat) : Nat := if p = 2 then 8 else if p = 3 then 9 else 6

def chainDec (p v : Nat) : FV := if p = 2 then fp64.decode v else fp32.decode v

/-- Round an exact value to the chain precision (R228). -/
def chainRound (p : Nat) (v : FV) : Nat :=
  if p = 2 then fp64.rne v
  else if p = 1 then bf16.rne (fp32.decode (fp32.rne v)) * 65536
  else fp32.rne v

/-- Widen an element into the chain precision (R224). -/
def chainIn (p fmt code : Nat) : Nat :=
  if p = 3 then (convert 9 fmt 0 true code).code
  else if p = 2 then fp64.rne (srcValue fmt code)
  else if p = 1 then bf16.rne (srcValue fmt code) * 65536
  else fp32.rne (srcValue fmt code)

/-- A constant operand (R222). -/
def chainConst (p : Nat) (k : Word) : Nat :=
  if p = 3 then k.toNat else if p = 2 then fp64.rne (f32 k) else if p = 1 then bf16.rne (f32 k) * 65536 else k.toNat

/-- An integer operand, exact. -/
def chainInt (p : Nat) (n : Nat) : Nat :=
  if p = 3 then n else if p = 2 then fp64.rne (.fin false n 0) else fp32.rne (.fin false n 0)

/-- 2^k as an operand. -/
def chainPow (p : Nat) (k : Int) (free : Word) : Nat :=
  if p = 3 then (if k < 0 then free.toNat else 2 ^ k.toNat % 2 ^ 32)
  else if p = 2 then fp64.rne (.fin false 1 k) else fp32.rne (.fin false 1 k)

/-- Minimum and maximum under R240: −0 below +0, NaN if either is. -/
def chainMin (x y : FV) : FV := if x.isNan || y.isNan then .nan else if y.below x then y else x
def chainMax (x y : FV) : FV := if x.isNan || y.isNan then .nan else if x.below y then y else x

/-- A stage in INT32 precision. -/
def intStage (op : Nat) (x y z : Word) : Word :=
  match op with
  | 0x00 => x | 0x01 => x + y | 0x02 => x - y | 0x03 => x * y | 0x04 => x * y + z
  | 0x05 => if y.slt x then y else x
  | 0x06 => if x.slt y then y else x
  | 0x07 => if x.slt 0 then -x else x
  | 0x08 => -x
  | 0x09 => let m := if x.slt y then y else x; if z.slt m then z else m
  | 0x0A => if y.slt x then 1 else 0
  | 0x0B => if x = y then 1 else 0
  | 0x0C => if z ≠ 0 then x else y
  | 0x0D => x &&& y | 0x0E => x ||| y | 0x0F => x ^^^ y
  | _ => x

/-- A floating-point stage other than RND: the result in the chain precision (R227, R228). -/
def fpStage (p op : Nat) (sc : Int) (x y z : Nat) : Nat :=
  let d := chainDec p
  let r := chainRound p
  let shift := fun (k : Int) => match d x with
    | .fin n m e => FV.fin n m (e + k)
    | v => v
  match op with
  | 0x00 => r (d x)
  | 0x01 => r ((d x).add (d y))
  | 0x02 => r ((d x).sub (d y))
  | 0x03 => r ((d x).mul (d y))
  | 0x04 => r (FV.fma (d x) (d y) (d z))
  | 0x05 => r (chainMin (d x) (d y))
  | 0x06 => r (chainMax (d x) (d y))
  | 0x07 => r (d x).abs
  | 0x08 => r (d x).neg
  | 0x09 => r (chainMin (chainMax (d x) (d y)) (d z))
  | 0x0A => if (d y).lt (d x) then chainInt p 1 else 0
  | 0x0B => if (d x).eq (d y) then chainInt p 1 else 0
  | 0x0C => if (d z).isZero then r (d y) else r (d x)
  | 0x18 => r (shift sc)
  | 0x19 => r (shift (-sc))
  | 0x22 => if p = 2 then fp64.sqrt (d x) else r (fp32.decode (fp32.sqrt (d x)))
  | op => r (fp32.decode (trans32 op (BitVec.ofNat 32 x)).toNat)

/-- The result is one of the domain results of R229. -/
def domainResult (p op x : Nat) : Bool :=
  let v := chainDec p x
  match op with
  | 0x20 => v.isZero
  | 0x21 => v.isZero || v.sign
  | 0x22 => v.sign
  | 0x24 => v.isZero || v.sign
  | _ => false

/-- What an element's stages gave beside its value. -/
structure ElemNotes where
  beyond : Bool := false
  hard : Bool := false
  nan : Bool := false
  sat : Bool := false
  examined : Nat := 0
  flushed : Nat := 0
  deriving DecidableEq, Repr

/-- Note a conversion from the chain's carrier: overflow, saturation, narrowing counts (R229, R238). -/
def noteConv (n : ElemNotes) (dst p v : Nat) (r : Packed) : ElemNotes :=
  let x := srcValue (carrier p) v
  let ex := narrows dst (precFormat p) && !x.isZero
  let fl := ex && (match fmtOf dst with
    | some f => (f.decode (f.rne x)).isZero
    | none => false)
  { beyond := n.beyond || (r.beyond && x.finite), hard := n.hard, nan := n.nan || (r.beyond && x.finite && dst == 1)
    sat := n.sat || (r.saturated && x.finite), examined := n.examined + (if ex then 1 else 0)
    flushed := n.flushed + (if fl then 1 else 0) }

/-- One stage: the result and its notes. `force`: every conversion saturates (05 R208). -/
def runStage (p : Nat) (sc : Int) (force : Bool) (t : ChainStage) (x y z : Nat) (n : ElemNotes) : Nat × ElemNotes :=
  if p = 3 then ((intStage t.op (BitVec.ofNat 32 x) (BitVec.ofNat 32 y) (BitVec.ofNat 32 z)).toNat, n)
  else if t.op = 0x1A then
    let r := convert t.format 6 t.round (t.sat || force) x
    (chainRound p (srcValue t.format r.code), noteConv n t.format p x r)
  else
    let v := fpStage p t.op sc x y z
    let fin := ((List.range ((stageArity t.op).getD 0)).all fun k => (chainDec p ([x, y, z].getD k 0)).finite)
    let bad := fin && !(chainDec p v).finite && !domainResult p t.op x
    (v, { n with beyond := n.beyond || bad, hard := n.hard || bad, nan := n.nan || (bad && (chainDec p v).isNan) })

/-- The stages of one element: V and the notes. `e` gives the elements of A, B and C. -/
def runStages (d : ChainDesc) (sc : Int) (free : Word) (force : Bool) (i : Nat) (e : Nat × Nat × Nat) : Nat × ElemNotes :=
  let p := d.precision
  (d.stages.foldl (fun (st : Nat × List Nat × ElemNotes) t =>
    let (v, h, n) := st
    if t.op = 0x30 || t.op = 0x31 then st else
    let sel := fun (o : Nat) =>
      match o with
      | 0 => v | 1 => e.1 | 2 => e.2.1 | 3 => e.2.2
      | 12 => chainPow p sc free
      | 13 => 0
      | 14 => chainInt p 1
      | 15 => chainInt p i
      | o => if o < 8 then chainConst p (d.ks.getD (o - 4) 0) else h.getD (o - 8) 0
    let (r, n) := runStage p sc force t (sel t.x) (sel t.y) (sel t.z) n
    (r, if t.save then h.set t.hold r else h, n)) (0, [0, 0, 0, 0], {})) |> fun st => (st.1, st.2.2)

/-! ### Reductions (R239, R240) -/

/-- Identity of a reduction in the chain precision. -/
def redIdent (p op : Nat) : Nat :=
  if p = 3 then (match op with
    | 1 => 1 | 2 => 2 ^ 31 | 3 => 2 ^ 31 - 1 | 4 => 2 ^ 32 - 1 | _ => 0)
  else
    let f := if p = 2 then fp64 else fp32
    match op with
    | 1 => chainInt p 1 | 2 => f.infCode true | 3 => f.infCode false | _ => 0

/-- Combine two values. -/
def redComb (p op : Nat) (x y : Nat) : Nat :=
  if p = 3 then
    (let a : Word := BitVec.ofNat 32 x
     let b : Word := BitVec.ofNat 32 y
     match op with
     | 0 => a + b | 1 => a * b | 2 => maxOp' a b | 3 => minOp' a b | 4 => a &&& b | _ => a ||| b).toNat
  else
    let d := chainDec p
    match op with
    | 0 => chainRound p ((d x).add (d y))
    | 1 => chainRound p ((d x).mul (d y))
    | 2 => chainRound p (chainMax (d x) (d y))
    | _ => chainRound p (chainMin (d x) (d y))
where
  maxOp' (a b : Word) : Word := if a.slt b then b else a
  minOp' (a b : Word) : Word := if b.slt a then b else a

/-- Index of the extreme among active (index, value): lowest index, or the first NaN. -/
def argExtreme (p : Nat) (max : Bool) : List (Nat × Nat) → Nat
  | [] => 0xFFFFFFFF
  | l =>
    match (if p = 3 then none else l.find? fun e => (chainDec p e.2).isNan) with
    | some e => e.1
    | none =>
      let better := fun (a b : Nat) =>
        if p = 3 then (let x : Word := BitVec.ofNat 32 a; let y : Word := BitVec.ofNat 32 b; if max then x.slt y else y.slt x)
        else if max then (chainDec p a).below (chainDec p b) else (chainDec p b).below (chainDec p a)
      (l.foldl (fun (best : Nat × Nat) e => if better best.2 e.2 then e else best) (l.headD (0, 0))).1

/-- Reduce positions: `none` is inactive. The result and EMPTY; positions are padded to whole beats of `beat`. -/
def reduceAll (p op beat : Nat) (l : List (Option Nat)) : Nat × Bool :=
  let act := ((List.range l.length).zip l).filterMap fun e => e.2.map fun v => (e.1, v)
  if op = 6 || op = 7 then (argExtreme p (op == 6) act, act == [])
  else if act = [] then (redIdent p op, true)
  else
    let pad := (l.length + beat - 1) / beat * beat - l.length
    let vs := (l ++ List.replicate pad none).map fun (v : Option Nat) => v.getD (redIdent p op)
    (tree (redComb p op) (redIdent p op) 32 vs, false)

/-- Elements of one beat (R217). -/
def beatOf (p : Nat) : Nat := if p = 1 then 256 else if p = 2 then 64 else 128

end Sys2Proof.Machine
end

