-- ==== Sys2Proof/Machine/CopyRun.lean ====
section
/-!
DEFINITION. Completion of copy-engine operations (03 R97, R99, R102; 04 R157; 05 R180, R187, R193 to R195, R203, R204,
R212; 07 R279, R287; 10 R374, R375).

Each operation takes its whole effect at its completion, sector by sector in order, and stops at a failing sector
(log entry 14).
-/
namespace Sys2Proof.Machine

/-- Who a copy accesses memory as. -/
def copyWho (w : Nat) (e : Copy) : Who := { saggar := e.saggar, stream := e.stream, source := w, cache := e.cache, layer := e.layer, oper := e.operator }

/-- Change the local store of the copy's crew. -/
def copyLs (s : State) (w : Nat) (e : Copy) (a : Nat) (bs : List Byte) : State :=
  s.modCrew w e.slot fun c => if c.uid = e.uid then lsPut c a bs else c

/-- Bytes of the local store of the copy's crew. -/
def lsOfCopy (s : State) (w : Nat) (e : Copy) (a n : Nat) : List Byte :=
  match entryCrew s w e.slot e.uid with
  | none => List.replicate n 0
  | some c => lsGet c a n

/-- Read device memory into local store, sector by sector; `fuel` bounds the sectors. -/
def devToLs (s : State) (w : Nat) (e : Copy) (src : DWord) (dst n : Nat) : Nat → Option AccErr × State
  | 0 => (none, s)
  | fuel + 1 =>
    if n = 0 then (none, s) else
    let m := min n (32 - src.toNat % 32)
    match engRead s (copyWho w e) src m with
    | (.error x, s) => (some x, s)
    | (.ok l, s) => devToLs (copyLs s w e dst l) w e (src + BitVec.ofNat 64 m) (dst + m) (n - m) fuel

/-- One row of a copy, by direction (R96). -/
def copyRow (s : State) (w : Nat) (e : Copy) (dir : Nat) (src dst : DWord) (n : Nat) : Option AccErr × State :=
  let lo := fun (a : DWord) => a.toNat % 2 ^ 32
  match dir with
  | 0 => devToLs s w e src (lo dst) n (sectors n)
  | 1 => engWriteN s (copyWho w e) dst (lsOfCopy s w e (lo src) n) (sectors n)
  | 2 => engCopy s (copyWho w e) src dst n (sectors n)
  | _ => (none, copyLs s w e (lo dst) (lsOfCopy s w e (lo src) n))

/-- Rows of a copy, until one fails. -/
def copyRows (s : State) (w : Nat) (e : Copy) (dir : Nat) (src dst : DWord) (n ss ds : Nat) : Nat → Option AccErr × State
  | 0 => (none, s)
  | rows + 1 =>
    match copyRow s w e dir src dst n with
    | (some x, s) => (some x, s)
    | (none, s) => copyRows s w e dir (src + BitVec.ofNat 64 ss) (dst + BitVec.ofNat 64 ds) n ss ds rows

/-- Write one row at an address of either space. -/
def putRow (s : State) (w : Nat) (e : Copy) (ls : Bool) (a : DWord) (bs : List Byte) : Option AccErr × State :=
  if ls then (none, copyLs s w e a.toNat bs) else engWriteN s (copyWho w e) a bs (sectors bs.length)

/-- Read one row from an address of either space. -/
def getRow (s : State) (w : Nat) (e : Copy) (ls : Bool) (a : DWord) (n : Nat) : Except AccErr (List Byte) × State :=
  if ls then (.ok (lsOfCopy s w e a.toNat n), s) else engReadN s (copyWho w e) a n (sectors n)

/-! ### ACC.RD (04 R157) -/

/-- One word converted to the output format. A Dunob-mode stream rounds by RNE whatever the instruction's mode (05 R173, R210); its
subnormal operands and results are zero of their sign, and NaN is all ones below the sign (R212). -/
def rdWord (isInt dunob : Bool) (fmt round : Nat) (sat : Bool) (v : Word) : Packed :=
  if isInt then { code := v.toNat } else
  let p := convert fmt 6 (if dunob then 0 else round) sat v.toNat
  if dunob then
    match fmtOf fmt with
    | none => p
    | some f =>
      if (f.decode p.code).isNan then { p with code := 2 ^ (f.eb + f.mb) - 1 }
      else
        let (sg, ex, m) := f.split p.code
        if ex = 0 && m != 0 then { p with code := if sg then 2 ^ (f.eb + f.mb) else 0 } else p
  else p

/-- The 64 rows of an ACC.RD. -/
def accRdRows (s : State) (w : Nat) (e : Copy) (ls : Bool) (fmt : Nat) (ws : List Packed) (dst : DWord) (stride : Nat) : Nat →
    Option AccErr × State
  | 0 => (none, s)
  | rows + 1 =>
    let r := 63 - rows
    let bs := ((ws.drop (16 * r)).take 16).flatMap fun p => leBytes ((outBytes fmt).getD 4) p.code
    match putRow s w e ls (dst + BitVec.ofNat 64 (r * stride)) bs with
    | (some x, s) => (some x, s)
    | (none, s) => accRdRows s w e ls fmt ws dst stride rows

/-- ACC.RD's whole effect. -/
def runAccRd (s : State) (w : Nat) (e : Copy) (word : Nat) (isInt : Bool) (fmt round : Nat) (sat ls : Bool) (dst : DWord)
    (stride : Nat) : Option AccErr × State :=
  match entryCrew s w e.slot e.uid with
  | none => (none, s)
  | some c =>
    let dunob := (s.stream e.stream).dunob
    let vs := (List.range 1024).map fun j => accWord c (word + j)
    let ws := vs.map (rdWord isInt dunob fmt round (sat || forcedSat s c))
    match accRdRows s w e ls fmt ws dst stride 64 with
    | (some x, s) => (some x, s)
    | (none, s) =>
      if isInt then (none, s) else
      let ex := vs.filter fun v => !(f32 v).isZero
      let fl := ex.filter fun v => match fmtOf fmt with
        | none => false
        | some f => let r := f.decode (f.rne (f32 v))
          r.isZero || (dunob && (f.split (f.rne (f32 v))).2.1 == 0)
      let s := if narrows fmt 6 && inGradient s c then countNarrow s w e.slot ex.length fl.length else s
      let fin := (vs.zip ws).filter fun p => (f32 p.1).finite
      let s := if fin.any fun p => p.2.saturated then markSat s w e.slot else s
      (none, if fin.any fun p => p.2.beyond then overflowAt s w e.slot (fmt == 1) false else s)

/-! ### ACC.WR (04 R157) -/

/-- What ACC.WR writes of a word that holds `old`: the word read, or with ACC its sum with the old one. -/
def accWrWord (isInt acc dunob : Bool) (old v : Word) : Word :=
  if acc then (if isInt then satAdd old v else if dunob then dunobAdd old v else fadd old v) else v

/-- The rows of an ACC.WR that are left; an overflow of an addition (`ov`, and whether to NaN) is taken with the last (05 R180). -/
def accWrRows (s : State) (w : Nat) (e : Copy) (word : Nat) (isInt acc ls : Bool) (src : DWord) (stride : Nat) (ov nan : Bool) : Nat →
    Option AccErr × State
  | 0 => (none, if ov then overflowAt s w e.slot nan true else s)
  | rows + 1 =>
    let r := 63 - rows
    match getRow s w e ls (src + BitVec.ofNat 64 (r * stride)) 64 with
    | (.error x, s) => (some x, s)
    | (.ok bs, s) =>
      let dunob := (s.stream e.stream).dunob
      let v := fun (j : Nat) => (BitVec.ofNat 32 (leNat ((bs.drop (4 * j)).take 4)) : Word)
      let old := fun (j : Nat) => ((s.crew? w e.slot).map fun c => accWord c (word + 16 * r + j)).getD 0
      let res := fun (j : Nat) => accWrWord isInt acc dunob (old j) (v j)
      let bad := if acc && !isInt then (List.range 16).filter fun j => addBeyond (old j) (v j) (res j) else []
      let s := s.modCrew w e.slot fun c => (List.range 16).foldl (fun c j => setAcc c (word + 16 * r + j) (res j)) c
      accWrRows s w e word isInt acc ls src stride (ov || bad != []) (nan || bad.any fun j => (f32 (res j)).isNan) rows

/-! ### GACC (05 R185, R187, R193, R204) -/

/-- m × 2^s × w, exactly. -/
def gaccTerm (m w : Word) (sc : Int) : FV :=
  match (f32 m).mul (f32 w) with
  | .fin n k e => .fin n k (e + sc)
  | v => v

/-- One row: new codes, the crew after its draws, counts and overflow. -/
def gaccRow (c : Crew) (word row : Nat) (m : Word) (sc : Int) (bs : List Byte) : List Byte × Crew × Nat × Nat × Bool × Bool :=
  (List.range 16).foldl (fun (st : List Byte × Crew × Nat × Nat × Bool × Bool) j =>
    let (out, c, ex, fl, ov, nan) := st
    let (q, c) := drawLane c (row / 2)
    let b := bf16.decode (leNat ((bs.drop (2 * j)).take 2))
    let t := gaccTerm m (accWord c (word + 16 * row + j)) sc
    let p := match b.add t with
      | .fin n k e => bf16.stochastic n k e false q
      | v => bf16.pack 0 false v
    let r := bf16.decode p.code
    let bad := !r.finite && b.finite && (f32 m).finite && (f32 (accWord c (word + 16 * row + j))).finite
    (out ++ leBytes 2 p.code, c, ex + (if t.isZero then 0 else 1),
     fl + (if !t.isZero && (bf16.decode (bf16.rne t)).isZero then 1 else 0), ov || bad, nan || (bad && r.isNan)))
    ([], c, 0, 0, false, false)

def gaccRows (s : State) (w : Nat) (e : Copy) (word : Nat) (dst : DWord) (stride : Nat) (m : Word) (sc : Int) : Nat →
    Option AccErr × State
  | 0 => (none, s)
  | rows + 1 =>
    let r := 63 - rows
    let a := dst + BitVec.ofNat 64 (r * stride)
    match entryCrew s w e.slot e.uid with
    | none => (none, s)
    | some c =>
      match engRead s (copyWho w e) a 32 with
      | (.error x, s) => (some x, s)
      | (.ok bs, s) =>
        let (out, c, ex, fl, ov, nan) := gaccRow c word r m sc bs
        match engWrite s (copyWho w e) a out with
        | (some x, s) => (some x, s)
        | (none, s) =>
          let s := countNarrow (tallyCrew (s.setCrew w e.slot c) w c 0x187 16) w e.slot ex fl
          let s := if ov then overflowAt s w e.slot nan true else s
          gaccRows s w e word dst stride m sc rows

/-! ### OPT (05 R194, R195) -/

/-- β^t by repeated squaring, RNE at each product, from the exponent's least significant bit (log entry 96). -/
def powSquare : Nat → Word → Nat → Word → Word
  | 0, _, _, r => r
  | fuel + 1, b, t, r =>
    if t = 0 then r else powSquare fuel (fmul b b) (t / 2) (if t % 2 = 1 then fmul r b else r)

def fone : Word := 0x3F800000

/-- 2^k as FP32 multiplier of an exact value, rounded once. -/
def scaleF (v : FV) (k : Int) : Word := toF32 (match v with
  | .fin n m e => .fin n m (e + k)
  | v => v)

/-- One element: new weight and moments from the old (R194). -/
def optElem (d : OptDesc) (sc : Int) (gcode : Nat) (w m1 m2 : Word) : Word × Word × Word :=
  let g := scaleF (srcValue d.gfmt gcode) (-sc)
  let (u, n1, n2) := match d.algo with
    | 0 => (if d.prescaled then g else fmul d.lr g, m1, m2)
    | 1 => let n1 := fadd (fmul d.beta1 m1) g; (fmul d.lr n1, n1, m2)
    | _ =>
      let n1 := fadd (fmul d.beta1 m1) (fmul (fsub fone d.beta1) g)
      let n2 := fadd (fmul d.beta2 m2) (fmul (fsub fone d.beta2) (fmul g g))
      let mh := if d.biasCorrect then fdiv n1 (fsub fone (powSquare 32 d.beta1 d.stepT fone)) else n1
      let vh := if d.biasCorrect then fdiv n2 (fsub fone (powSquare 32 d.beta2 d.stepT fone)) else n2
      (fmul d.lr (fdiv mh (fadd (fsqrt vh) d.eps)), n1, n2)
  (fsub (fsub w u) (fmul (fmul d.lr d.wd) w), n1, n2)

/-- Every input of an element is finite. -/
def optFinite (d : OptDesc) (gcode : Nat) (w m1 m2 : Word) : Bool :=
  (srcValue d.gfmt gcode).finite && (f32 w).finite && (d.algo == 0 || (f32 m1).finite) && (d.algo != 2 || (f32 m2).finite) &&
  (f32 d.lr).finite && (f32 d.wd).finite && (d.algo == 0 || (f32 d.beta1).finite) &&
  (d.algo != 2 || ((f32 d.beta2).finite && (f32 d.eps).finite))

/-- Read one FP32 word, or 0 when it is not used. -/
def optRead (s : State) (a : Who) (use : Bool) (va : DWord) : Except AccErr Word × State :=
  if !use then (.ok 0, s) else
  match engReadN s a va 4 2 with
  | (.error x, s) => (.error x, s)
  | (.ok l, s) => (.ok (BitVec.ofNat 32 (leNat l)), s)

def optWrite (s : State) (a : Who) (use : Bool) (va : DWord) (v : Word) : Option AccErr × State :=
  if use then engWriteN s a va (leBytes 4 v.toNat) 2 else (none, s)

/-- Element `n` of an OPT: `none` when it succeeds, with whether it was left unchanged. -/
def optOne (s : State) (a : Who) (d : OptDesc) (sc : Int) (n : Nat) : Except AccErr Bool × State :=
  let sz := (outBytes d.gfmt).getD 4
  let at_ := fun (b : DWord) (k : Nat) => b + BitVec.ofNat 64 (k * n)
  match engReadN s a (at_ d.grad sz) sz 2 with
  | (.error x, s) => (.error x, s)
  | (.ok gb, s) =>
  match optRead s a true (at_ d.master 4) with
  | (.error x, s) => (.error x, s)
  | (.ok w, s) =>
  match optRead s a (d.algo != 0) (at_ d.mom1 4) with
  | (.error x, s) => (.error x, s)
  | (.ok m1, s) =>
  match optRead s a (d.algo == 2) (at_ d.mom2 4) with
  | (.error x, s) => (.error x, s)
  | (.ok m2, s) =>
    let (w', n1, n2) := optElem d sc (leNat gb) w m1 m2
    if optFinite d (leNat gb) w m1 m2 && !((f32 w').finite && (f32 n1).finite && (f32 n2).finite) then (.ok true, s)
    else
      match optWrite s a (d.algo != 0) (at_ d.mom1 4) n1 with
      | (some x, s) => (.error x, s)
      | (none, s) =>
      match optWrite s a (d.algo == 2) (at_ d.mom2 4) n2 with
      | (some x, s) => (.error x, s)
      | (none, s) =>
      match optWrite s a true (at_ d.master 4) w' with
      | (some x, s) => (.error x, s)
      | (none, s) => (.ok false, s)

/-- Elements from the first on; the count left unchanged. -/
def optAll (s : State) (a : Who) (d : OptDesc) (sc : Int) (skipped : Nat) : Nat → Except AccErr Nat × State
  | 0 => (.ok skipped, s)
  | k + 1 =>
    match optOne s a d sc (d.count - (k + 1)) with
    | (.error x, s) => (.error x, s)
    | (.ok b, s) => optAll s a d sc (if b then skipped + 1 else skipped) k

/-- OPT's whole effect. -/
def runOpt (s : State) (w : Nat) (e : Copy) (d : OptDesc) : Option AccErr × State :=
  match optAll s (copyWho w e) d (stepScale s e.saggar d.layer) 0 d.count with
  | (.error x, s) => (some x, s)
  | (.ok n, s) =>
    let (c, s) := match entryCrew s w e.slot e.uid with
      | none => (none, s)
      | some c => (some c, tallyCrew (tallyCrew s w c 0x0AF d.count) w c 0x188 n)
    if n = 0 then (none, s) else
    let s := layerSat s e.saggar d.layer
    (none, recordWheel s w 0x44 e.saggar (payload [(d.layer, 108), ((s.saggar e.saggar).step.toNat, 64), (n, 32)]) false
      d.layer ((c.map Crew.operator).getD 0xFFF))

/-! ### PTAB (07 R287) -/

/-- The phase of (p, F) in units of 2^-48 of a turn. -/
def phaseOf (p f : Nat) : Nat := p * (f % 2 ^ 48) % 2 ^ 48

/-- Pairs from number `k` on, until a sector fails. -/
def ptabAll (s : State) (w : Nat) (e : Copy) (fs : List Nat) (dst : DWord) (ls half : Bool) (p0 m total : Nat) : Nat →
    Option AccErr × State
  | 0 => (none, s)
  | left + 1 =>
    let k := total - (left + 1)
    let (a, b) := phasePair (if half then bf16 else fp32) (phaseOf (p0 + k / m) (fs.getD (k % m) 0))
    let sz := if half then 2 else 4
    match putRow s w e ls (dst + BitVec.ofNat 64 (2 * sz * k)) (leBytes sz a ++ leBytes sz b) with
    | (some x, s) => (some x, s)
    | (none, s) => ptabAll s w e fs dst ls half p0 m total left

/-! ### RPUT (10 R374 to R376) -/

/-- Data packets of a put: up to 2,048 bytes each, cut at sector boundaries of the destination, so that each sector it covers is
written as one access (13 R456, 09 R337). -/
def putCount (dst : DWord) (len : Nat) : Nat := if len = 0 then 0 else (dst.toNat % 32 + len + 2047) / 2048

/-- Send the packets of a put, until its source fails. -/
def putPackets (s : State) (w : Nat) (e : Copy) (g : Guild) (gid q : Nat) (src dst : DWord) (len total : Nat) (attach : Bool) :
    Nat → Option AccErr × State
  | 0 => (none, s)
  | fuel + 1 =>
    if len = 0 then (none, s) else
    let m := min len (2048 - dst.toNat % 32)
    match engReadN s (copyWho w e) src m (sectors m) with
    | (.error x, s) => (some x, s)
    | (.ok bs, s) =>
      let s := sendRank_ s g q { dest := 0, src := 0, kind := 0, tclass := streamCls s e.stream, length := (m + 31) / 32
                                 addr := dst, tag := e.id % 2 ^ 24, guild := gid, count := if attach then 0 else total, data := bs }
      putPackets s w e g gid q (src + BitVec.ofNat 64 m) (dst + BitVec.ofNat 64 m) (len - m) total attach fuel

/-- The put reads its source and its packets leave. -/
def sendPut (s : State) (w : Nat) (e : Copy) (gid q : Nat) (src dst : DWord) (len : Nat) (attach : Option (Nat × DWord × Word)) :
    State :=
  match Tab.find s.link.guilds gid with
  | none => failCopy s w e fCopy
  | some g =>
    let s0 := s
    let total := putCount dst len
    let e := { e with sent := some 1 }
    let s := s.modWheel w fun x => { x with eng := { x.eng with copies := x.eng.copies.map fun d => if d.id = e.id then e else d } }
    let s := match entryCrew s w e.slot e.uid with
      | none => s
      | some c => tallyCrew (tallyCrew s w c 0x103 total) w c 0x0B9 len
    match putPackets s w e g gid q src dst len total attach.isSome (total + 1) with
    | (some x, s) => if x = .busy then s0 else failCopy s w e (if x = .held then fHeldWrite else fCopy)
    | (none, s) =>
      match attach with
      | none => s
      | some (op, va, v) =>
        let s := match entryCrew s w e.slot e.uid with
          | none => s
          | some c => tallyCrew s w c 0x102
        sendRank_ s g q { dest := 0, src := 0, kind := 2, tclass := streamCls s e.stream, addr := va, tag := e.id % 2 ^ 24
                          guild := gid, v, op, count := total }

/-! ### COPY_COMPLETE -/

/-- An earlier copy or chain of the crew on the same counter has not completed (R97). -/
def counterBusy (x : Wheel) (e : Copy) : Bool :=
  (x.eng.copies.any fun d => d.uid == e.uid && d.counter == e.counter && decide (d.id < e.id)) ||
  (x.eng.vecq.any fun d => d.uid == e.uid && d.counter == e.counter && decide (d.id < e.id))

/-- The whole effect of a copy other than a put. -/
def runCopy (s : State) (w : Nat) (e : Copy) : Option AccErr × State :=
  match e.kind with
  | .copy1 dir src dst len => copyRow s w e dir src dst len
  | .copy2 dir src dst rows n ss ds => copyRows s w e dir src dst n ss ds rows
  | .accRd word isInt fmt round sat ls dst stride => runAccRd s w e word isInt fmt round sat ls dst stride
  | .accWr word isInt acc ls src stride => accWrRows s w e word isInt acc ls src stride false false 64
  | .gacc word dst stride m =>
    gaccRows s w e word dst stride m (stepScale s e.saggar ((entryCrew s w e.slot e.uid).map Crew.layer |>.getD 0)) 64
  | .opt bs => runOpt s w e (OptDesc.of bs)
  | .grecv n off ls len =>
    match Tab.find (s.stream e.stream).gslots n with
    | none => (some .translation, s)
    | some g => devToLs s w e (g.dest + BitVec.ofNat 64 off) ls len (sectors len)
  | .ptab freq dst ls half p0 n m =>
    match engReadN s (copyWho w e) freq (8 * m) (sectors (8 * m)) with
    | (.error x, s) => (some x, s)
    | (.ok bs, s) =>
      let fs := (List.range m).map fun j => leNat ((bs.drop (8 * j)).take 8)
      let total := min n (2 ^ 22 - p0) * m
      ptabAll s w e fs dst ls half p0 m total total
  | .rput .. => (none, s)

/-- The byte of a gather's buffer is at its home slice. A shard is a multiple of 64 KiB: the byte's 64 KiB unit is then home too (07 R258,
R279). -/
def unitHome (g : GSlot) (o : Nat) : Bool := g.complete || g.arrived.contains (if g.shardBytes = 0 then 0 else o / g.shardBytes)

/-- A unit that a GRECV reads is still arriving (07 R279). -/
def copyHeld (s : State) (e : Copy) : Bool :=
  match e.kind with
  | .grecv n off _ len => (match Tab.find (s.stream e.stream).gslots n with
    | some g => (List.range (len / 65536 + 2)).any fun u => decide (65536 * u < len + off % 65536) && !unitHome g (off - off % 65536 + 65536 * u)
    | none => false)
  | _ => false

/-- A copy-engine operation is performed: it completes and its counter advances, or it stops and its crew faults; a put
sends its packets and completes with the peer's acknowledgement (R97, R102, 10 R376). -/
def execCopyComplete (wheel id : Nat) (s : State) : Out :=
  act (decide (wheel < 192)) (fun s =>
    match (s.wheel wheel).eng.copies.find? fun e => e.id == id with
    | none => s
    | some e =>
      if !memWheel s wheel || copyHeld s e || e.sent.isSome || counterBusy (s.wheel wheel) e ||
         (e.leave && leaveKnown s 1 wheel id == 0) || !((e.after.map fun r => released s wheel r).getD true) then s
      else
        match e.kind with
        | .rput gid q src dst len attach => sendPut s wheel e gid q src dst len attach
        | _ =>
          match runCopy s wheel e with
          | (some x, t) => if x = .busy then s else failCopy t wheel e (if x = .held then fHeldWrite else fCopy)
          | (none, s) => endCopy s wheel e) s

end Sys2Proof.Machine
end

