-- ==== Sys2Proof/Machine/Vector.lean ====
section
/-!
DEFINITION. The vector engine, classes 0x18 to 0x1A (06 R217 to R241, R253): VL, VCHAIN, VRED, and the queue's events.
-/
namespace Sys2Proof.Machine

/-! ### VL (R220) -/

/-- VSETVL. -/
def execVsetvl (i : Issue) (s : State) : Out :=
  issue i { guarded := true, legal := i.sb == 0 && i.x == 0, regs := [da i, sa i] } (fun s c x m =>
    match leadLane m with
    | none => next s i
    | some l =>
      let v := min (reg c l (sa i)).toNat (2 ^ 24)
      (lanewise i (fun _ d l => setReg d l (da i) (BitVec.ofNat 32 v)) s c x m).modCrew i.wheel i.slot fun c => { c with vl := v }) s

/-- VGETVL. -/
def execVgetvl (i : Issue) (s : State) : Out :=
  issue i { guarded := true, legal := i.sa == 0 && i.sb == 0 && i.x == 0, regs := [da i] }
    (lanewise i fun c d l => setReg d l (da i) (BitVec.ofNat 32 c.vl)) s

/-! ### Streams (R223, R231, R236) -/

/-- Bytes of an element of a format of R171; FP4 takes half a byte. -/
def elemBytes : Nat → Nat
  | 4 => 2 | 5 => 2 | 6 => 4 | 8 => 8 | 9 => 4 | 10 => 4 | _ => 1

/-- Bytes of `n` elements. -/
def streamBytes (fmt n : Nat) : Nat := if fmt = 0 then (n + 1) / 2 else n * elemBytes fmt

/-- Bits 3:0 of a tile stream's address, its slot, and the window and block of a window stream. -/
def tileOf (x : ChainStream) : Nat := x.addr.toNat % 16
def slotOf (x : ChainStream) : Nat := x.addr.toNat / 16 % 16

/-- Elements of an input stream over which its reach is checked (R236). -/
def reachN (x : ChainStream) (vl : Nat) : Nat := if x.modulus = 0 then vl else x.modulus

/-- Elements of an input stream that the chain reads. -/
def readN (x : ChainStream) (vl : Nat) : Nat := if x.modulus = 0 then vl else min vl x.modulus

/-- First accumulator word of a window stream. -/
def winWord (c : Crew) (x : ChainStream) : Nat :=
  match Tab.find c.wins (x.addr.toNat % 4) with
  | none => 0
  | some w => (w.base + x.addr.toNat / 4 % 64) * 1024

/-- The reach of a stream of `n` bytes (`elems` elements for a window): the fault, if any. -/
def reachFault (c : Crew) (x : ChainStream) (n elems : Nat) : Option Nat :=
  match x.kind with
  | 1 => if n != 0 && decide (c.res.t ≤ tileOf x + (n - 1) / 1024) then some fRange else none
  | 2 => if c.res.s * 1024 < x.addr.toNat + n && n != 0 then some fLocal else none
  | 4 =>
    match Tab.find c.wins (x.addr.toNat % 4) with
    | none => some fWindowUnset
    | some w =>
      if x.format != (if w.isInt then 9 else 6) then some fVectorFormat
      else if w.size < x.addr.toNat / 4 % 64 + (elems + 1023) / 1024 then some fAccRange else none
  | _ => none

/-- Every fault found at chain start, in order: the descriptor, formats, the scale, reach (R222 to R236, 05 R191). -/
def chainFault (s : State) (c : Crew) (raw : List Byte) (d : ChainDesc) : Option Nat :=
  let n := c.vl
  let blocks := (n + 31) / 32
  if !descClean raw || !descOk d then some fChain
  else if terminalOf d = 0x30 && (d.y.format != 0 || d.z.format != 11 || d.z.kind == 4) then some fVectorFormat
  else if readsScale d && !layerOk s c.saggar c.layer then some fScaleRange
  else
    let ins := [d.a, d.b, d.c].map fun x => if x.kind = 0 then none else reachFault c x (streamBytes x.format (reachN x n)) (reachN x n)
    let ms := if d.maskEn then reachFault c d.m ((reachN d.m n + 7) / 8) 0 else none
    let ys := if d.y.kind = 0 then none else reachFault c d.y (streamBytes d.y.format n) n
    let zs := if terminalOf d = 0x31 then (if d.z.addr.toNat % 16 != 0 then some fMisaligned else reachFault c d.z 16 0)
      else if terminalOf d = 0x30 then
        (if d.z.kind = 1 then
          (if blocks != 0 && decide (15 < slotOf d.z + (blocks - 1) / 64) then some fRange else reachFault c d.z 1 0)
         else reachFault c d.z blocks 0)
      else none
    (ins ++ [ms, ys, zs]).findSome? id

/-- Accumulator words and tiles a chain touches (R235). -/
def chainWords (c : Crew) (d : ChainDesc) (n : Nat) : List (Nat × Nat) :=
  [(d.a, readN d.a n), (d.b, readN d.b n), (d.c, readN d.c n), (d.y, n)].filterMap fun (e : ChainStream × Nat) =>
    if e.1.kind = 4 then some (winWord c e.1, winWord c e.1 + (e.2 + 1023) / 1024 * 1024) else none

def streamTiles (x : ChainStream) (bytes : Nat) : List Nat :=
  if x.kind = 1 then (List.range ((bytes + 1023) / 1024)).map (tileOf x + ·) else []

def chainReads (d : ChainDesc) (n : Nat) : List Nat :=
  ([d.a, d.b, d.c].flatMap fun x => streamTiles x (streamBytes x.format (readN x n))) ++
  (if d.maskEn then streamTiles d.m ((readN d.m n + 7) / 8) else [])

def chainWrites (d : ChainDesc) (n : Nat) : List Nat :=
  streamTiles d.y (streamBytes d.y.format n) ++ (if terminalOf d = 0x30 && d.z.kind == 1 then [tileOf d.z] else [])

/-! ### VCHAIN (R222, R234, R235) -/

/-- The descriptor's bytes, or the fault of reading them. -/
def readDesc (s : State) (i : Issue) (c : Crew) (l : Nat) : Except Nat (List Byte) :=
  let a := spaceAddr c l (sa i) (i.x.getLsbD 23)
  if a.toNat % 64 != 0 then .error fMisaligned
  else if i.x.getLsbD 23 then (if lsIn c a.toNat 192 then .ok (lsGet c a.toNat 192) else .error fLocal)
  else viewBytes s i.wheel c.saggar a 192

/-- The queue takes the chain: room, and no hazard with earlier work of the crew (R234, R235, 04 R144). -/
def chainGo (i : Issue) (s : State) (c : Crew) (_ : CPath) (m : Word) : Bool :=
  match leadLane m with
  | none => true
  | some l =>
    let x := s.wheel i.wheel
    decide (x.eng.vecq.length < 8) &&
    match readDesc s i c l with
    | .error e => e != fWait
    | .ok raw =>
      let d := ChainDesc.of raw
      (chainFault s c raw d).isSome ||
      (!((chainWords c d c.vl).any fun p => accWaits x c.uid p.1 p.2 s.nextId) &&
       !((chainWrites d c.vl).any fun t => x.eng.mxq.any fun e => e.uid == c.uid && !e.started && (entryTiles e).contains t))

/-- An entry joins the vector queue; with no other there the engine turns to it at once (R234). -/
def joinVec (s : State) (w : Nat) (e : VecEntry) : State :=
  s.modWheel w fun y => { y with eng := { y.eng with vecq := y.eng.vecq ++ [e], vecTurn := if y.eng.vecq = [] then e.slot else y.eng.vecTurn } }

/-- VCHAIN: the descriptor is read and checked, and the chain joins the vector queue. -/
def execVchain (i : Issue) (s : State) : Out :=
  let ls := i.x.getLsbD 23
  issueStall i (spaceForm ls { guarded := true, reads := true, legal := i.da == 0 && i.sb == 0 && xf i 16 7 == 0 && xf i 0 12 == 0 } (sa i))
    (chainGo i)
    (fun s c x m =>
      match leadLane m with
      | none => next s i
      | some l =>
        match readDesc s i c l with
        | .error e => faultAt s i e
        | .ok raw =>
          let d := ChainDesc.of raw
          match chainFault s c raw d with
          | some e => faultAt s i e
          | none =>
            let (v, s) := if d.precision = 3 && readsScale d then s.free else ((0 : BitVec 256), s)
            let (id, s) := s.fresh
            let beats := (c.vl + beatOf d.precision - 1) / beatOf d.precision
            let s := tallyCrew (tallyCrew s i.wheel c (0x080 + 8 * d.precision)) i.wheel c (0x081 + 8 * d.precision) beats
            let s := tallyCrew s i.wheel c (0x083 + 8 * d.precision) (beats * (d.stages.filter fun t => t.op / 16 == 2).length)
            let e : VecEntry := { id, slot := i.slot, uid := c.uid, pc := x.pc, accWords := chainWords c d c.vl
                                  tilesRead := chainReads d c.vl, tilesWritten := chainWrites d c.vl, counter := xf i 12 4
                                  desc := d, vl := c.vl, segsLeft := (beats + 31) / 32 - 1, intScale := v.setWidth 32 }
            next (joinVec s i.wheel e) i) s

/-! ### Running a chain -/

/-- The code at byte offset `o` of a stream, `n` bytes; accumulator words by element. -/
def streamGet (s : State) (w : Nat) (c : Crew) (x : ChainStream) (o n : Nat) : Except Nat (List Byte) :=
  match x.kind with
  | 1 => .ok (getBytes c.tiles (tileOf x * 1024 + o) n)
  | 2 => .ok (lsGet c (x.addr.toNat + o) n)
  | 3 => viewBytes s w c.saggar (x.addr + BitVec.ofNat 64 o) n
  | _ => .ok (leBytes 4 (accWord c (winWord c x + o / 4)).toNat)

/-- Element `i` of an input stream in the chain precision; 0 for a stream that is not set. -/
def inElem (s : State) (w : Nat) (c : Crew) (p : Nat) (x : ChainStream) (i : Nat) : Except Nat Nat :=
  if x.kind = 0 then .ok 0 else
  let i := if x.modulus = 0 then i else i % x.modulus
  match streamGet s w c x (i * elemBytes x.format) (elemBytes x.format) with
  | .error e => .error e
  | .ok bs => .ok (chainIn p x.format (leNat bs))

/-- Element `i` is active (R230). -/
def chainActive (s : State) (w : Nat) (c : Crew) (d : ChainDesc) (i : Nat) : Except Nat Bool :=
  if !d.maskEn then .ok true else
  let j := if d.m.modulus = 0 then i else i % d.m.modulus
  match streamGet s w c d.m (j / 8) 1 with
  | .error e => .error e
  | .ok bs => .ok ((bs.headD 0).getLsbD (j % 8))

/-- An ordinary store of a chain to device memory, performed at its home slice (R235, R236). -/
def chainStore (s : State) (w : Nat) (c : Crew) (cache : Nat) (va : DWord) (bs : List Byte) : Nat → Option Nat × State
  | 0 => (none, s)
  | fuel + 1 =>
    if bs = [] then (none, s) else
    let m := min bs.length (32 - va.toNat % 32)
    let s := watchAccess (wheelXlat s w c.saggar c.layer c.operator va) 5 c.saggar c.stream w va m
    match crewAccess s c.saggar true va m with
    | .error e => (some e, s)
    | .ok pa =>
      if lineBusy s pa then (some fWait, s)
      else if m != 32 && poisoned s pa then (some fOperand, s)
      else chainStore (performWrite (l1Store s w pa (bs.take m)) pa (bs.take m) cache) w c cache (va + BitVec.ofNat 64 m)
        (bs.drop m) fuel

/-- Write bytes at offset `o` of an output stream. -/
def streamPut (s : State) (w slot : Nat) (x : ChainStream) (o : Nat) (bs : List Byte) : Option Nat × State :=
  match s.crew? w slot with
  | none => (none, s)
  | some c =>
    match x.kind with
    | 1 => (none, s.setCrew w slot { c with tiles := putBytes c.tiles (tileOf x * 1024 + o) bs })
    | 2 => (none, s.setCrew w slot (lsPut c (x.addr.toNat + o) bs))
    | 3 => chainStore s w c x.cache (x.addr + BitVec.ofNat 64 o) bs 3
    | 4 => (none, s.setCrew w slot (setAcc c (winWord c x + o / 4) (BitVec.ofNat 32 (leNat bs))))
    | _ => (none, s)

/-- The byte that holds FP4 element `i` of Y beside its neighbour: of device memory, as its home slice has it (R230). -/
def nibbleByte (s : State) (w : Nat) (c : Crew) (x : ChainStream) (o : Nat) : Except Nat (List Byte) :=
  if x.kind = 3 then
    match translate s c.saggar (x.addr + BitVec.ofNat 64 o) with
    | none => .error fTranslation
    | some (pa, _) => .ok [memByte s pa]
  else streamGet s w c x o 1

/-- Write the code of element `i` into Y: a nibble for FP4 (R230). -/
def putElem (s : State) (w slot : Nat) (x : ChainStream) (i code : Nat) : Option Nat × State :=
  if x.format != 0 then streamPut s w slot x (i * elemBytes x.format) (leBytes (elemBytes x.format) code)
  else
    match s.crew? w slot with
    | none => (none, s)
    | some c =>
      match nibbleByte s w c x (i / 2) with
      | .error e => (some e, s)
      | .ok bs =>
        let b := (bs.headD 0).toNat
        let v := if i % 2 = 0 then b / 16 * 16 + code % 16 else b % 16 + 16 * (code % 16)
        streamPut s w slot x (i / 2) [BitVec.ofNat 8 v]

/-- What has been gathered while a chain runs: notes, and V of each position (`none` inactive). -/
structure ChainAcc where
  notes : ElemNotes := {}
  vals : List (Option Nat) := []

/-- V of element `i`, or a fault; `bad` is the element at which an uncorrectable error is met (R236). -/
def elemV (s : State) (w : Nat) (c : Crew) (e : VecEntry) (sc : Int) (bad : Option Nat) (i : Nat) : Except Nat (Option (Nat × ElemNotes)) :=
  if bad = some i then .error fOperand else
  match chainActive s w c e.desc i with
  | .error x => .error x
  | .ok false => .ok none
  | .ok true =>
    match inElem s w c e.desc.precision e.desc.a i, inElem s w c e.desc.precision e.desc.b i, inElem s w c e.desc.precision e.desc.c i with
    | .ok a, .ok b, .ok k => .ok (some (runStages e.desc sc e.intScale (forcedSat s c) i (a, b, k)))
    | .error x, _, _ => .error x
    | _, .error x, _ => .error x
    | _, _, .error x => .error x

/-- Join the notes of two elements. -/
def joinNotes (a b : ElemNotes) : ElemNotes :=
  { beyond := a.beyond || b.beyond, hard := a.hard || b.hard, nan := a.nan || b.nan, sat := a.sat || b.sat
    examined := a.examined + b.examined, flushed := a.flushed + b.flushed }

/-- Elements from `vl - left` on: V computed, Y written unless the chain quantizes. -/
def runElems (s : State) (w : Nat) (e : VecEntry) (sc : Int) (bad : Option Nat) (g : ChainAcc) : Nat → Except Nat ChainAcc × State
  | 0 => (.ok g, s)
  | left + 1 =>
    let i := e.vl - (left + 1)
    match entryCrew s w e.slot e.uid with
    | none => (.ok g, s)
    | some c =>
      match elemV s w c e sc bad i with
      | .error x => (.error x, s)
      | .ok none => runElems s w e sc bad { g with vals := none :: g.vals } left
      | .ok (some (v, n)) =>
        let d := e.desc
        if d.y.kind = 0 || terminalOf d = 0x30 then
          runElems s w e sc bad { notes := joinNotes g.notes n, vals := some v :: g.vals } left
        else
          let r := convert d.y.format (carrier d.precision) d.y.round (d.y.sat || forcedSat s c) v
          let n := noteConv n d.y.format d.precision v r
          match putElem s w e.slot d.y i r.code with
          | (some x, s) => (.error x, s)
          | (none, s) => runElems s w e sc bad { notes := joinNotes g.notes n, vals := some v :: g.vals } left

/-- The scale byte of a block from its active values (05 R170). -/
def quantScale (vs : List FV) : Nat :=
  if vs.any fun v => !v.finite then 0xFF
  else
    let lead := vs.filterMap fun v => match v with
      | .fin _ m e => if m = 0 then none else some (e + bitLen m - 1)
      | _ => none
    match lead with
    | [] => 0
    | a :: l => (clampInt (-127) 127 (l.foldl max a - 2) + 127).toNat

/-- The E2M1 code of a value under a scale (05 R170). -/
def quantCode (scale : Nat) (v : FV) : Nat :=
  if scale = 0xFF then 0 else
  match v with
  | .fin n m e => (fp4.pack 0 true (.fin n m (e - ((scale : Int) - 127)))).code
  | _ => 0

/-- Quantize blocks of 32 positions (R231); `vals` in index order, `j` the block. -/
def runQuant (s : State) (w : Nat) (e : VecEntry) (vals : List (Option Nat)) (j : Nat) (n : ElemNotes) : Nat →
    Except Nat ElemNotes × State
  | 0 => (.ok n, s)
  | fuel + 1 =>
    match vals with
    | [] => (.ok n, s)
    | vals =>
      let blk := vals.take 32
      let d := e.desc
      let act := ((List.range 32).zip blk).filterMap fun (q : Nat × Option Nat) => q.2.map fun v => (q.1, chainDec d.precision v)
      if act = [] then runQuant s w e (vals.drop 32) (j + 1) n fuel
      else
        let sc := quantScale (act.map Prod.snd)
        let (err, s) := act.foldl (fun (st : Option Nat × State) q => match st with
          | (some x, s) => (some x, s)
          | (none, s) => putElem s w e.slot d.y (32 * j + q.1) (quantCode sc q.2)) (none, s)
        match err with
        | some x => (.error x, s)
        | none =>
          let zo := if d.z.kind = 1 then 64 * slotOf d.z + j else j
          match streamPut s w e.slot d.z zo [BitVec.ofNat 8 sc] with
          | (some x, s) => (.error x, s)
          | (none, s) =>
            let ex := act.filter fun q => !q.2.isZero
            let fl := ex.filter fun q => quantCode sc q.2 % 8 == 0
            runQuant s w e (vals.drop 32) (j + 1) { n with examined := n.examined + ex.length, flushed := n.flushed + fl.length } fuel

/-- The record RED writes (R232). -/
def redRecord (p : Nat) (op v : Nat) (empty : Bool) : List Byte :=
  leBytes 8 (if p = 2 && op < 6 then v else v % 2 ^ 32) ++ [if empty then 1 else 0] ++ List.replicate 7 0

/-- A chain's whole effect (log entry 14). -/
def runChain (s : State) (w : Nat) (e : VecEntry) (bad : Option Nat) : Except Nat ElemNotes × State :=
  let sc := match entryCrew s w e.slot e.uid with
    | none => 0
    | some c => if readsScale e.desc then stepScale s c.saggar c.layer else 0
  match runElems s w e sc bad {} e.vl with
  | (.error x, s) => (.error x, s)
  | (.ok g, s) =>
    let vals := g.vals.reverse
    if terminalOf e.desc = 0x30 then runQuant s w e vals 0 g.notes (e.vl / 32 + 1)
    else if terminalOf e.desc = 0x31 then
      let p := e.desc.precision
      let (v, empty) := reduceAll p e.desc.redOp (beatOf p) vals
      let bad := p != 3 && decide (e.desc.redOp < 6) && !empty && !(chainDec p v).finite &&
        vals.all fun v => (v.map fun v => (chainDec p v).finite).getD true
      match streamPut s w e.slot e.desc.z 0 (redRecord p e.desc.redOp v empty) with
      | (some x, s) => (.error x, s)
      | (none, s) => (.ok { g.notes with beyond := g.notes.beyond || bad, hard := g.notes.hard || bad }, s)
    else (.ok g.notes, s)

/-! ### VRED (R239 to R241) -/

/-- Precision, element bytes and format code of a VRED format. -/
def vredFmt : Nat → Option (Nat × Nat × Nat)
  | 0 => some (0, 4, 6) | 1 => some (0, 2, 4) | 2 => some (0, 2, 5) | 3 => some (3, 4, 9) | _ => none

/-- Precision, element bytes and format of a VRED whose operation and format are ones it takes (R239, R241). -/
def vredOf (i : Issue) : Option (Nat × Nat × Nat) :=
  (vredFmt (xf i 16 3)).filter fun f => decide (xf i 20 4 ≤ 7) && (!(xf i 20 4 == 4 || xf i 20 4 == 5) || f.1 == 3)

/-- Element n of a tile in FP32 or INT32. -/
def vredElem (c : Crew) (tile sz fmt p n : Nat) : Nat := chainIn p fmt (leNat (getBytes c.tiles (tile * 1024 + n * sz) sz))

/-- Positions of result `k`: `none` is inactive. -/
def vredLine (i : Issue) (c : Crew) (vl : Nat) (f : Nat × Nat × Nat) (k : Nat) : List (Option Nat) :=
  let cols := 64 / f.2.1
  let axis := i.x.getLsbD 19
  (List.range (if axis then 16 else cols)).map fun j =>
    let n := if axis then j * cols + k else k * cols + j
    if decide (n < vl) && (!i.x.getLsbD 12 || (Tab.get 0 c.tiles (sb i * 1024 + n / 8)).getLsbD (n % 8)) then
      some (vredElem c (sa i) f.2.1 f.2.2 f.1 n) else none

/-- Result `k` and its EMPTY. -/
def vredRes (i : Issue) (c : Crew) (vl : Nat) (f : Nat × Nat × Nat) (k : Nat) : Nat × Bool :=
  reduceAll f.1 (xf i 20 4) 1 (vredLine i c vl f k)

/-- Results of a VRED. -/
def vredCount (i : Issue) (f : Nat × Nat × Nat) : Nat := if i.x.getLsbD 19 then 64 / f.2.1 else 16

/-- Lane `l` takes its result and EMPTY, or has the predicate cleared. -/
def vredLane (i : Issue) (c : Crew) (vl : Nat) (f : Nat × Nat × Nat) (d : Crew) (l : Nat) : Crew :=
  if l < vredCount i f then
    setPred (setReg d l (da i) (BitVec.ofNat 32 (vredRes i c vl f l).1)) l (xf i 13 3) (vredRes i c vl f l).2
  else setPred d l (xf i 13 3) false

/-- A result overflows: Inf or NaN from finite elements (05 R180). -/
def vredBeyond (i : Issue) (c : Crew) (vl : Nat) (f : Nat × Nat × Nat) : Bool :=
  f.1 != 3 && decide (xf i 20 4 < 6) && (List.range (vredCount i f)).any fun k =>
    !(fp32.decode (vredRes i c vl f k).1).finite && !(vredRes i c vl f k).2 &&
      (vredLine i c vl f k).all fun v => (v.map fun v => (fp32.decode v).finite).getD true

/-- The overflow of a VRED, if any. -/
def vredOver (s : State) (w slot : Nat) (i : Issue) (c : Crew) (vl : Nat) (f : Nat × Nat × Nat) : State :=
  if vredBeyond i c vl f then overflowAt s w slot false true else s

/-- VRED: one result per row or column of a tile. On an idle engine it gives its results at once; else it joins the vector queue and its
path waits for them (R234; log entry 102). -/
def execVred (i : Issue) (s : State) : Out :=
  let en := i.x.getLsbD 12
  issueStall i { guarded := true, legal := decide (sa i < 16) && decide (sb i < 16) && xf i 0 12 == 0, regs := [da i]
                 tiles := sa i :: (if en then [sb i] else []) }
    (fun s _ _ m => m == 0 || decide ((s.wheel i.wheel).eng.vecq.length < 8))
    (fun s c x m =>
      if m = 0 then next s i else
      match vredOf i with
      | none => faultAt s i fVectorFormat
      | some f =>
        let s := tallyCrew s i.wheel c (0x084 + 8 * f.1)
        if (s.wheel i.wheel).eng.vecq = [] then
          vredOver (lanewise i (fun c d l => vredLane i c c.vl f d l) s c x m) i.wheel i.slot i c c.vl f
        else
          let (id, s) := s.fresh
          joinVec (s.modCrew i.wheel i.slot fun c => waitPath c i.path (.vec id)) i.wheel
            { id, slot := i.slot, uid := c.uid, pc := x.pc, tilesRead := sa i :: (if en then [sb i] else []), vl := c.vl
              vred := some (i, m) }) s

/-! ### The queue's turns (R234) -/

/-- The crew slot whose entry the engine serves: the first from `vecTurn` on that has one (R234). -/
def vecSlot (x : Wheel) : Option Nat :=
  ((List.range 64).map fun k => (x.eng.vecTurn + k) % 64).find? fun k => x.eng.vecq.any fun e => e.slot == k

/-- The engine turns to the next crew. -/
def vecNext (x : Wheel) (slot : Nat) : Wheel := { x with eng := { x.eng with vecTurn := (slot + 1) % 64 } }

/-- A VRED of the queue gives its results, and its path goes on. -/
def endVred (s : State) (w : Nat) (h : VecEntry) (i : Issue) (m : Word) : State :=
  let s := s.modWheel w fun y => entryFrees (vecNext { y with eng := { y.eng with vecq := y.eng.vecq.filter fun e => e.id != h.id } } h.slot)
  match entryCrew s w h.slot h.uid, vredOf i with
  | some c, some f =>
    let d := (lanesOf m).foldl (fun d l => vredLane i c h.vl f d l) c
    let d := match path? d i.path with
      | some y => if y.wait = .vec h.id then pathNext (waitPath d i.path .ready) i.path else d
      | none => d
    vredOver (s.setCrew w h.slot d) w h.slot i c h.vl f
  | _, _ => s

/-- The engine serves VREDs as long as its turn is one's; `fuel` bounds the queue. -/
def serveVreds (s : State) (w : Nat) : Nat → State
  | 0 => s
  | fuel + 1 =>
    match (vecSlot (s.wheel w)).bind fun k => (s.wheel w).eng.vecq.find? fun e => e.slot == k with
    | none => s
    | some h =>
      match h.vred with
      | none => s
      | some (i, m) => serveVreds (endVred s w h i m) w fuel

/-- A segment other than a chain's last ends (R234). -/
def execChainSegmentEnd (wheel : Nat) (s : State) : Out :=
  act (decide (wheel < 192)) (whenD (memWheel s wheel) fun s =>
    let x := s.wheel wheel
    match vecSlot x with
    | none => s
    | some k =>
      match x.eng.vecq.find? fun e => e.slot == k with
      | none => s
      | some h =>
        if h.vred.isSome then serveVreds s wheel 8 else
        if h.segsLeft = 0 then s else
        let s := s.modWheel wheel fun y => { y with eng := { y.eng with vecq := y.eng.vecq.map fun e =>
          if e.id = h.id then { e with segsLeft := e.segsLeft - 1 } else e } }
        serveVreds (s.modWheel wheel fun y => vecNext y k) wheel 8) s

end Sys2Proof.Machine
end

