-- ==== Sys2Proof/Machine/Commits.lean ====
section
/-!
DEFINITION. Commits of the array and matrix-vector queues and the completion of chains, and the errors they meet (04 R142 to R144, R151,
R160, R166; 06 R229, R235, R236).
-/
namespace Sys2Proof.Machine

/-- An uncorrectable error in a tile register or accumulator word of a crew: it faults with OPERAND_ERROR, and the wheel reports the
error, one more of its own SRAM, to the error and fence controller (R166; 16 R545, R550). -/
def operandError (s : State) (w slot uid : Nat) (pc : DWord) : State :=
  match entryCrew s w slot uid with
  | none => s
  | some c => ownError (crewFault s w slot fOperand pc) { kind := 0, index := w, etype := 2, saggar := c.saggar, stream := c.stream, slot }

/-- The oldest started entry commits, with its partner: an uncorrectable error on an operand read or (`badHead`,
`badPartner`) on an accumulator block makes that half commit nothing and its crew fault, after the other half (R151). A
commit waits for earlier accumulator instructions on its block (R144). -/
def execMxCommit (wheel : Nat) (badHead badPartner : Bool) (s : State) : Out :=
  act (decide (wheel < 192)) (whenD (memWheel s wheel) fun s =>
    match (s.wheel wheel).eng.mxq with
    | [] => s
    | h :: rest =>
      if !h.started then s else
      let p := match h.partner with
        | some id => rest.find? fun e => e.id == id
        | none => none
      let busy := fun (e : MxEntry) => accBusy (s.wheel wheel) e.uid e.word (e.word + 1024) e.id
      if busy h || (p.map busy).getD false then s else
      let hb := h.bad || badHead
      let pb := (p.map MxEntry.bad).getD false || badPartner
      let s := s.modWheel wheel fun x =>
        let q := x.eng.mxq.filter fun e => e.id != h.id && some e.id != p.map MxEntry.id
        entryFrees { x with eng := { x.eng with mxq := q, lingerSince := if q = [] then some s.watch else none } }
      let s := if hb then s else commitEntry s wheel h
      let s := match p with
        | some e => if pb then s else commitEntry s wheel e
        | none => s
      let s := if hb then operandError s wheel h.slot h.uid h.pc else s
      match p with
      | some e => if pb then operandError s wheel e.slot e.uid e.pc else s
      | none => s) s

/-- The oldest MV commits; `bad`: an uncorrectable error on a tile or an accumulator word (R166). -/
def execMvCommit (wheel : Nat) (bad : Bool) (s : State) : Out :=
  act (decide (wheel < 192)) (whenD (memWheel s wheel) fun s =>
    match nextMv s wheel with
    | none => s
    | some e =>
      if accBusy (s.wheel wheel) e.uid e.word (e.word + 16) e.id then s else
      let s := popMv s wheel e.id
      if bad then operandError s wheel e.slot e.uid e.pc else commitMv s wheel e) s

/-! ### Chains (06 R234 to R236) -/

/-- Stores of the crew that left before the chain are on their way: the chain's own wait for them. -/
def ownStores (x : Wheel) (uid id : Nat) : Bool :=
  x.mem.store.any fun e => e.uid == uid && decide (e.id < id) && !e.performed && e.op != .fence

/-- An earlier copy of the crew on the chain's counter has not completed (R235, 03 R97). -/
def chainCounterBusy (x : Wheel) (h : VecEntry) : Bool :=
  x.eng.copies.any fun d => d.uid == h.uid && d.counter == h.counter && decide (d.id < h.id)

/-- A chain's last segment ends: its effect, its counts and overflow, and its counter (R229, R235, R236, R238). `bad`: the element
at which an uncorrectable error in a tile, a window or the local store is met, which the wheel reports (04 R166). -/
def execChainComplete (wheel : Nat) (f : ChainEnd) (s : State) : Out :=
  act (decide (wheel < 192)) (whenD (memWheel s wheel) fun s =>
    let x := s.wheel wheel
    match vecSlot x with
    | none => s
    | some k =>
      match x.eng.vecq.find? fun e => e.slot == k with
      | none => s
      | some h =>
        if h.vred.isSome then serveVreds s wheel 8 else
        if h.id != f.id || h.segsLeft != 0 || ownStores x h.uid h.id || chainCounterBusy x h ||
           h.accWords.any (fun p => mxInto x h.uid p.1 p.2 h.id) then s
        else
          let s0 := s
          let (r, t) := runChain s wheel h f.bad
          if r.toOption.isNone && (match r with
              | .error e => e == fWait
              | .ok _ => false) then s else
          let s := t.modWheel wheel fun y =>
            entryFrees (vecNext { y with eng := { y.eng with vecq := y.eng.vecq.filter fun e => e.id != f.id } } k)
          serveVreds (match entryCrew s wheel h.slot h.uid with
          | none => s
          | some c =>
            match r with
            | .error code =>
              if f.bad.isSome && code = fOperand then operandError s wheel h.slot h.uid h.pc else crewFault s wheel h.slot code h.pc
            | .ok n =>
              let off := ((List.range h.vl).filter fun i => (chainActive s0 wheel c h.desc i).toOption == some false).length
              let s := tallyCrew (s.setCrew wheel h.slot (advanceAc c h.counter)) wheel c (0x085 + 8 * h.desc.precision) off
              let s := if terminalOf h.desc = 0x30 then tallyCrew s wheel c (0x086 + 8 * h.desc.precision) ((h.vl + 31) / 32) else s
              let s := if inGradient s c then countNarrow s wheel h.slot n.examined n.flushed else s
              let s := if n.sat then markSat s wheel h.slot else s
              if n.beyond then overflowAt (tallyCrew s wheel c (0x087 + 8 * h.desc.precision)) wheel h.slot n.nan n.hard else s) wheel 8) s

end Sys2Proof.Machine
end

