-- ==== Sys2Proof/Machine/Control.lean ====
section
/-!
DEFINITION. Control instructions, class 0x05, and SREG, TMRD, BELL.C (03 R84 to R93, R124 to R126).
-/
namespace Sys2Proof.Machine

/-- Threads of a mask by what a function says of each, in lane order. -/
def groupBy (f : Nat → Bool × DWord) (m : Word) : List ((Bool × DWord) × Word) :=
  (lanesOf m).foldl (fun g l =>
    if g.any fun e => e.1 == f l then g.map fun e => if e.1 = f l then (e.1, e.2 ||| laneBit l) else e
    else g ++ [(f l, laneBit l)]) []

/-- Send each thread of the path on: those that take the branch, `taken`, to their targets, the others behind it. A guard that differs
splits the path, and so do targets that differ (R84): one path for each group. The threads that fall through keep the path's number,
else those of the lowest lane; a reconvergence address recorded by JPUSH applies to this split (R86). -/
def goTo (c : Crew) (p : Nat) (x : CPath) (taken : Word) (target : Nat → DWord) : Crew :=
  let to_ := fun l => if taken.getLsbD l then target l else x.pc + 8
  match (groupBy (fun l => (taken.getLsbD l, to_ l)) x.mask).map fun e => (e.1.1, e.1.2, e.2) with
  | [] => c
  | [(_, t, _)] => modPath c p fun x => { x with pc := t }
  | first :: others =>
    let stay := ((first :: others).find? fun e => !e.1).getD first
    let c := match x.reconv with
      | none => c
      | some a => { c with splits := Tab.ins c.splits ((Tab.keys c.splits).getLastD 0 + 1) { addr := a, members := x.mask } }
    let c := modPath c p fun x => { x with pc := stay.2.1, mask := stay.2.2, reconv := none }
    ((first :: others).filter (· != stay)).foldl (fun c e =>
      { c with paths := Tab.ins c.paths (Tab.lowestFree c.paths 0) { pc := e.2.1, mask := e.2.2 } }) c

/-- A branch of the executing threads to `target`; a target that is not 8-byte aligned faults with MISALIGNED. -/
def branch (i : Issue) (f : Form) (target : Crew → CPath → Nat → DWord) (link : Crew → CPath → Word → Crew)
    (s : State) : Out :=
  issue i f (fun s c x m =>
    if (lanesOf m).any fun l => (target c x l).toNat % 8 != 0 then faultAt s i fMisaligned
    else
      let d := goTo (link c x m) i.path x m (target c x)
      let s := s.setCrew i.wheel i.slot d
      if d.paths.length != c.paths.length then tallyCrew s i.wheel c (0x008 + 16 * c.part) else s) s

/-- The address Imm instructions from this one. -/
def relative (i : Issue) (x : CPath) : DWord := x.pc + (i.x.signExtend 64 <<< 3)

/-- Branch by Imm instructions (R124). -/
def execBra (i : Issue) (s : State) : Out :=
  branch i { legal := i.da == 0 && i.sa == 0 && i.sb == 0 } (fun _ x _ => relative i x) (fun c _ _ => c) s
/-- Branch to the address in the SA pair (R124). -/
def execBrx (i : Issue) (s : State) : Out :=
  branch i { legal := i.da == 0 && i.sb == 0 && i.x == 0, pairs := [sa i] } (fun c _ l => pair c l (sa i))
    (fun c _ _ => c) s
/-- Branch by Imm instructions with the return address in the DA pair (R124). -/
def execCall (i : Issue) (s : State) : Out :=
  branch i { legal := i.sa == 0 && i.sb == 0, pairs := [da i] } (fun _ x _ => relative i x)
    (fun c x m => (lanesOf m).foldl (fun c l => setPair c l (da i) (x.pc + 8)) c) s
/-- Branch to the SA pair (R124). -/
def execRet (i : Issue) (s : State) : Out :=
  branch i { legal := i.da == 0 && i.sb == 0 && i.x == 0, pairs := [sa i] } (fun c _ l => pair c l (sa i))
    (fun c _ _ => c) s

/-- Record the reconvergence address of the next split (R86). -/
def execJpush (i : Issue) (s : State) : Out :=
  issue i { legal := i.da == 0 && i.sa == 0 && i.sb == 0 } (fun s c x m =>
    s.setCrew i.wheel i.slot (pathNext (if m = 0 then c else modPath c i.path fun y => { y with reconv := some (relative i x) })
      i.path)) s

/-- The threads of the path whose guard is false leave it and go on behind the instruction as a path of their own. -/
def shed (c : Crew) (p : Nat) (x : CPath) (m : Word) : Crew :=
  let out := x.mask &&& c.live &&& ~~~m
  if out = 0 then c else
  let c := modPath c p fun y => { y with mask := m }
  { c with paths := Tab.ins c.paths (Tab.lowestFree c.paths 0) { pc := x.pc + 8, mask := out } }

/-- The executing threads wait at the reconvergence address of the innermost split that recorded it; elsewhere the path goes on (R86).
Threads whose guard is false do not execute it and go on (log entry 80). -/
def execJoin (i : Issue) (s : State) : Out :=
  issue i { legal := i.da == 0 && i.sa == 0 && i.sb == 0 && i.x == 0 } (fun s c x m =>
    match splitAt c x.pc m with
    | none => next s i
    | some k =>
      tallyCrew (s.setCrew i.wheel i.slot (joinCheck (waitPath (shed c i.path x m) i.path (.join k)) k)) i.wheel c (0x009 + 16 * c.part)) s

/-- End the path's turn: the partition chooses again under R83 (R87); with no executing thread it goes on. -/
def execYield (i : Issue) (s : State) : Out :=
  issue i { legal := i.da == 0 && i.sa == 0 && i.sb == 0 && i.x == 0 } (fun s c _ m =>
    if m = 0 then next s i else
    let d := pathNext (modPath c i.path fun y => { y with run := 0 }) i.path
    tallyCrew (s.setCrew i.wheel i.slot { d with lastPath := none }) i.wheel c (0x00A + 16 * c.part)) s

/-- The executing threads end (R88); the crew ends with its last thread. -/
def execExit (i : Issue) (s : State) : Out :=
  issue i { legal := i.da == 0 && i.sa == 0 && i.sb == 0 && i.x == 0 } (fun s c x m =>
    let live := c.live &&& ~~~m
    let left := x.mask &&& live
    let paths := if left = 0 then Tab.del c.paths i.path
      else Tab.modify c.paths i.path fun (y : CPath) => { y with mask := left, pc := y.pc + 8 }
    let c := { c with live := live, paths := paths }
    let s := s.setCrew i.wheel i.slot c
    if live = 0 then crewExit s i.wheel i.slot
    else if m = 0 then s else afterExit s i.wheel i.slot) s

/-- No operation (R124). -/
def execNop (i : Issue) (s : State) : Out :=
  issue i { legal := i.da == 0 && i.sa == 0 && i.sb == 0 && i.x == 0 } (fun s _ _ _ => next s i) s

/-- Arrive at crew bell X[1:0] with the member mask in SA and wait (R90, R91); the arrival is a release (09 R347). Threads whose guard is
false do not arrive and wait with the path (log entry 91). -/
def execBellC (i : Issue) (s : State) : Out :=
  issue i { legal := i.da == 0 && i.sb == 0 && decide (i.x.toNat < 4), regs := [sa i] } (fun s c _ m =>
    match leadLane m with
    | none => next s i
    | some l0 =>
      let b := xf i 0 2
      let mask := reg c l0 (sa i)
      let x := crewBell c b
      if ((lanesOf m).any fun l => reg c l (sa i) != mask) || (m &&& ~~~mask) != 0 || (x.mask != 0 && x.mask != mask) then
        faultAt s i fBellMask
      else
        let (id, s) := issueRelease s i.wheel i.slot c.uid
        let s := s.modCrew i.wheel i.slot fun c =>
          waitPath { c with bells := Tab.ins c.bells b { x with mask } } i.path (.arrive id b m)
        settleAll s i.wheel) s

/-- The crew bell's watchdog expires (R93, R94): a release in the expiry tick is taken. -/
def bellTicks (s : State) (k : Nat) : Nat := 2 ^ (s.saggar k).cfg.bellExp / 4

def execBellTimeout (wheel slot bell : Nat) (s : State) : Out :=
  act (decide (wheel < 192) && decide (slot < 64) && decide (bell < 4)) (fun s =>
    match s.crew? wheel slot with
    | none => s
    | some c =>
      let x := crewBell c bell
      match x.since with
      | none => s
      | some t =>
        if x.arrived != 0 && decide (t + bellTicks s c.saggar < s.watch) then
          let pc := match c.paths.find? (fun p => p.2.wait == .bell bell) with
            | some p => p.2.pc
            | none => 0
          crewFault (tallyCrew s wheel c 0x109) wheel slot fBellTimeout pc
        else s) s

/-- DA pair ← the stamp of an event of this cycle (R125). -/
def execTmrd (i : Issue) (s : State) : Out :=
  issue i { legal := i.sa == 0 && i.sb == 0 && i.x == 0, pairs := [da i] } (fun s c x m =>
    let (g, s) := wheelStamp s i.wheel
    lanewise i (fun _ d l => setPair d l (da i) (BitVec.ofNat 64 g)) s c x m) s

/-- The special registers of R126. -/
def sreg (i : Issue) (c : Crew) (l sel : Nat) : Option Nat :=
  match sel with
  | 0 => some l | 1 => some i.slot | 2 => some c.part | 3 => some i.wheel | 4 => some c.task | 5 => some (c.saggar % 4096)
  | 6 => some c.stream | 7 => some c.layer | 8 => some c.operator | 9 => some c.live.toNat | _ => none

/-- DA ← special register X[7:0] (R126). -/
def execSreg (i : Issue) (s : State) : Out :=
  issue i { legal := i.sa == 0 && i.sb == 0 && decide (i.x.toNat < 10), regs := [da i] }
    (lanewise i fun c d l => setReg d l (da i) (BitVec.ofNat 32 ((sreg i c l i.x.toNat).getD 0))) s

/-- A word whose CLASS or OP is not assigned faults the crew (R123, R124); one that names an instruction is issued by that instruction's
own command, which refuses the unassigned codes of its fields. -/
def execIllegalInstruction (i : Issue) (cls op : BitVec 6) (s : State) : Out :=
  if (nelolOp cls.toNat op.toNat).isSome then ignored s else issue i { legal := false } (fun s _ _ _ => s) s

end Sys2Proof.Machine
end

