-- ==== Sys2Proof/Machine/Ledgers.lean ====
section
/-!
DEFINITION. Collectors and ledgers bound by the mailbox (10 R385, R675; 18 R599), and the debug controller that writes records into
ledgers (18 R595 to R601; 16 R560, R561).
-/
namespace Sys2Proof.Machine

/-- A 32-bit word a consumer or a hub engine may signal: aligned to 4 bytes in the 57-bit space. -/
def wordAligned (va : DWord) : Bool := va.toNat % 4 == 0 && decide (va.toNat < 2 ^ 57)

def powerOfTwo (n : Nat) : Bool := n == 2 ^ Nat.log2 n

/-! ### Collectors -/

/-- The refusals of COLLECTOR_BIND: BUSY, a value out of range, an unmapped page (R385, R675; 19 R637, R640). -/
def collRefusal (s : State) (r : Req) : Option Nat :=
  let k := reqSag r
  let c := rf r 18 0 8
  let n := rf r 20 0 32
  let v := rf r 48 0 16
  if 64 ≤ c then some stInvalid
  else if (s.coll c).bound then some stBusy
  else if rf r 24 0 64 % 128 != 0 || 2 ^ 57 ≤ rf r 24 0 64 || !powerOfTwo n || n < 256 || 65536 < n ||
      !wordAligned (rAddr r 32) || !wordAligned (rAddr r 40) || rf r 52 0 32 = 0 || 65536 < rf r 52 0 32 || 2 ^ 20 < rf r 56 0 32 ||
      (v != 0xFFFF && (2041 ≤ v || vectorFn v != (s.saggar k).cfg.fn || v = fnVector (vectorFn v) || v = 1)) then some stInvalid
  else if !rangeMapped s k true (rf r 24 0 64) (16 * n) || !rangeMapped s k true (rf r 32 0 64) 4 || !rangeMapped s k false (rf r 40 0 64) 4
    then some stUnmapped
  else none

/-- COLLECTOR_BIND. -/
def execCollectorBind (fn req : Nat) (s : State) : Out :=
  mbxRun { code := 0x28, sag := true, used := [fld 18 0 8, fld 20 0 32, fld 24 0 64, fld 32 0 64, fld 40 0 64, fld 48 0 16, fld 52 0 32,
                                               fld 56 0 32] } noData (fun s _ r =>
    match collRefusal s r with
    | some st => (answer st, s)
    | none =>
      let k := reqSag r
      let v := rf r 48 0 16
      let s := s.setColl (rf r 18 0 8) {
        bound := true, saggar := k, ring := rAddr r 24, entries := rf r 20 0 32, countWord := rAddr r 32, headWord := rAddr r 40
        vector := if v = 0xFFFF then none else some v, fn := (s.saggar k).cfg.fn, threshold := rf r 52 0 32, coalesce := rf r 56 0 32
        head := ((translate s k (rAddr r 40)).map fun e => memWord s e.1).getD 0 }
      (answer stOk, s)) fn req s

/-- COLLECTOR_UNBIND: records not yet written are discarded; it completes once nothing of the collector is in flight. -/
def execCollectorUnbind (fn req : Nat) (s : State) : Out :=
  mbxRun { code := 0x29, sag := true, used := [fld 18 0 8] } noData (fun s fn r =>
    let c := rf r 18 0 8
    let x := s.coll c
    if 64 ≤ c then (answer stInvalid, s)
    else if !x.bound then (answer stOk, s)
    else if x.saggar != reqSag r then (answer stInvalid, s)
    else if x.unbinding.isSome then (answer stBusy, s)
    else (none, dropBehind (s.setColl c { x with held := [], offered := [], since := none, unbinding := some (fn, r.n) }) c)) fn req s

/-! ### Binding a ledger -/

/-- The refusals of LEDGER_BIND: a value out of range, then an unmapped page. -/
def ledgerRefusal (s : State) (r : Req) : Option Nat :=
  let k := reqSag r
  let n := rf r 20 0 32
  let h := rf r 40 0 64
  if rf r 24 0 12 != 0 || 2 ^ 57 ≤ rf r 24 0 64 || !powerOfTwo n || n < 1024 || 67108864 < n || !wordAligned (rAddr r 32) || !wordAligned (rAddr r 40) ||
      (rf r 18 0 1 = 1 && h = 0) then some stInvalid
  else if !rangeMapped s k true (rf r 24 0 64) (32 * n) || !rangeMapped s k true (rf r 32 0 64) 4 || (h != 0 && !rangeMapped s k false h 4)
    then some stUnmapped
  else none

/-- LEDGER_BIND. Losses still to be reported stay pending over a rebind (log entry 19). -/
def execLedgerBind (fn req : Nat) (s : State) : Out :=
  mbxRun { code := 0x2A, sag := true, used := [fld 18 0 1, fld 19 0 8, fld 20 0 32, fld 24 0 64, fld 32 0 64, fld 40 0 64] } noData
    (fun s _ r =>
      match ledgerRefusal s r with
      | some st => (answer st, s)
      | none =>
        let k := reqSag r
        let o := (s.saggar k).ledger.getD {}
        (answer stOk, s.modSaggar k fun g => { g with ledger := some {
          base := rAddr r 24, entries := rf r 20 0 32, stopMode := rf r 18 0 1 == 1, countWord := rAddr r 32, headWord := rAddr r 40
          mask := BitVec.ofNat 64 (rf r 19 0 8), lost := o.lost, firstLost := o.firstLost, firstLostGts := o.firstLostGts } })) fn req s

/-- LEDGER_UNBIND. -/
def execLedgerUnbind (fn req : Nat) (s : State) : Out :=
  mbxRun { code := 0x2B, sag := true } noData (fun s _ r => (answer stOk, s.modSaggar (reqSag r) fun g => { g with ledger := none })) fn req s

/-! ### Writing records -/

/-- The 32 bytes of a record (R595). -/
def recBytes (r : Rec) : List Byte :=
  leBytes 8 r.gts.toNat ++ leBytes 4 (r.type * 2 ^ 24 + r.source % 1024 * 2 ^ 14 + (if r.stretch then 2 ^ 13 else 0) + r.saggar % 4096) ++
    leBytes 4 (r.layer % 2 ^ 20 * 2 ^ 12 + r.op % 4096) ++ leBytes 16 r.payload.toNat

/-- The ring takes one more record: a HOLD ring by HEAD_WORD, a WRAP ring always (R601). -/
def ledgerRoom (s : State) (k : Nat) (l : Ledger) : Bool :=
  !l.stopMode ||
    (match translate s k l.headWord with
     | none => false
     | some (pa, _) => decide ((BitVec.ofNat 32 l.count - memWord s pa).toNat < l.entries))

/-- Write one record into a saggar's ring and advance COUNT_WORD (R600). -/
def ledgerPut (s : State) (k : Nat) (l : Ledger) (r : Rec) : State :=
  let s := match translate s k (l.base + BitVec.ofNat 64 (32 * (l.count % l.entries))) with
    | none => s
    | some (pa, _) => performWrite s pa (recBytes r) 0
  let s := s.modSaggar k fun g => { g with ledger := some { l with count := l.count + 1 } }
  gtally (engSignal s { saggar := k, source := 554 } l.countWord 0 1).2 0x00F (some k)

/-- LEDGER_LOST goes ahead of what follows, once losses are pending and the ring has room. -/
def reportLost (s : State) (k : Nat) : State :=
  match (s.saggar k).ledger with
  | none => s
  | some l =>
    if l.lost = 0 || !ledgerRoom s k l then s
    else ledgerPut s k { l with lost := 0, firstLost := 0, firstLostGts := 0 }
      { gts := s.time.gts, type := 0xE6, source := 554, saggar := k, layer := 0xFFFFF, op := 0xFFF
        payload := payload [(min l.lost (2 ^ 32 - 1), 96), (l.firstLost / 1024, 88), (l.firstLost % 1024, 78), (l.firstLostGts.toNat, 0)] }

/-- One record to a saggar's ledger (R601). -/
def ledgerTake (s : State) (r : Rec) (k : Nat) : State :=
  let s := reportLost s k
  match (s.saggar k).ledger with
  | none => loseTo s k r
  | some l => if !l.mask.getLsbD (recGroup r.type) || !ledgerRoom s k l then loseTo s k r else ledgerPut s k l r

/-- The error class of a record (16 R544, R559): of UNIT_ERROR its own, of a FENCE that of the unit; others have none. -/
def recClass (r : Rec) : Option Nat :=
  let kind := bits r.payload.toNat 124 4
  if r.type = 0xC0 then some (bits r.payload.toNat 125 3)
  else if r.type = 0xC1 then some (if 4 ≤ kind ∧ kind ≤ 6 then ecHalf else ecUnit)
  else none

/-- A record of a class is written (16 R560, R561): status, count, the newest of class UNIT or above, the interrupt, the events of a
FENCE, the PLDM event of a HALF. -/
def fenceWritten (s : State) (r : Rec) (bs : List Byte) : State :=
  match recClass r with
  | none => s
  | some c =>
    let f := s.fen
    let s := { s with fen := { f with
      intStatus := f.intStatus ||| (1#4 <<< c)
      counts := ((List.range 4).zip f.counts).map fun e => if e.1 = c then e.2 + 1 else e.2
      last := if ecUnit ≤ c then (BitVec.ofNat 256 (leNat bs) :: f.last).take 8 else f.last } }
    let s := if f.intEnable.getLsbD c then sendMsix s 1 else s
    let s := if r.type = 0xC1 then
        ((r.dests.filter fun k => (s.saggar k).st != .off).map fun k => (s.saggar k).cfg.fn).eraseDups.foldl
          (fun s fn => postEvent s fn 1 (leBytes 16 r.payload.toNat)) s
      else s
    if c = ecHalf then platformEvent s (leBytes 16 r.payload.toNat) else s

/-- A record enters the module ledger (R598). -/
def moduleTake (s : State) (r : Rec) : State :=
  let bs := recBytes r
  let s := { s with dbg := { s.dbg with
    mled := Tab.put 0 s.dbg.mled (s.dbg.mledCount.toNat % 524288) (BitVec.ofNat 256 (leNat bs))
    mledCount := s.dbg.mledCount + 1 } }
  fenceWritten (gtally s 0x00F (if r.saggar < 4096 then some r.saggar else none)) r bs

/-- The heads of the source queues: of each source the record offered first. -/
def queueHeads (l : List Rec) : List Rec :=
  l.foldl (fun a r => if a.any fun q => q.source == r.source then a else a ++ [r]) []

/-- The head with the lowest key of R51. -/
def lowestHead (l : List Rec) : Option Rec :=
  (queueHeads l).foldl (fun (a : Option Rec) r => match a with
    | none => some r
    | some q => if r.gts.toNat < q.gts.toNat ∨ (r.gts = q.gts ∧ r.source < q.source) then some r else a) none

/-- A ring or COUNT_WORD the record is to be written to is in transfer (08 R323, R325). -/
def ledgerHeld (s : State) (r : Rec) : Bool :=
  r.dests.any fun k => match (s.saggar k).ledger with
    | none => false
    | some l => !settled s k (l.base + BitVec.ofNat 64 (32 * (l.count % l.entries))) 32 || !settled s k l.countWord 4

/-- Take up to `fuel` records from the queues, the lowest keys first. -/
def drainRecs (s : State) : Nat → State
  | 0 => s
  | fuel + 1 =>
    match lowestHead s.dbg.queue with
    | none => s
    | some r =>
      if ledgerHeld s r then s else
      let s := { s with dbg := { s.dbg with queue := s.dbg.queue.erase r } }
      let s := if r.mod then moduleTake s r else s
      drainRecs (r.dests.foldl (fun s k => ledgerTake s r k) s) fuel

/-- LEDGER_DRAIN: one FABRIC cycle of the debug controller (R600), which runs in a global stop too (R616). -/
def execLedgerDrain (s : State) : Out :=
  act true (whenD s.serving fun s =>
    let s := (s.front.saggars.map Prod.fst).foldl reportLost s
    drainRecs s 8) s

end Sys2Proof.Machine
end

