-- ==== Sys2Proof/Machine/Debug.lean ====
section
/-!
DEFINITION. Tallies read and written, samples (18 R602 to R608), watchpoints set (R609 to R611), the global stop (R612 to R618).
-/
namespace Sys2Proof.Machine

/-! ### Tallies -/

/-- Where a tally lies: a wheel's for a wheel number below 192, the hub's otherwise. -/
def tallyOf (s : State) (w i : Nat) : Tally :=
  if w < 192 then Tab.get {} (s.wheel w).tallies i else Tab.get {} s.dbg.gtallies i

def setTally (s : State) (w i : Nat) (t : Tally) : State :=
  if w < 192 then s.modWheel w fun x => { x with tallies := Tab.put {} x.tallies i t }
  else { s with dbg := { s.dbg with gtallies := Tab.put {} s.dbg.gtallies i t } }

/-- The module has the tally. -/
def hasTally (s : State) (w i : Nat) : Bool := if w < 192 then s.present w && decide (i < 32) else decide (i < 64)

/-- Saggar of a tally's filter, when SAG_MATCH is set. -/
def tallySaggar (t : Tally) : Option Nat := if t.cfg.getLsbD 28 then some (bits t.cfg.toNat 16 12) else none

/-- The payload of TALLY_SAMPLE and TALLY_OVERFLOW. -/
def tallyPayload (w i : Nat) (t : Tally) : BitVec 128 :=
  payload [(t.value.toNat, 64), (if w < 192 then w else 0, 56), (i, 50), (bits t.cfg.toNat 0 9, 41), (bits t.cfg.toNat 29 1, 40),
    (if w < 192 then 0 else 1, 39)]

/-- A record of a tally, to its saggar's ledger or the module's (R604, R607). -/
def tallyRecord (s : State) (type w i gts : Nat) (t : Tally) : State :=
  let k := tallySaggar t
  offer s { gts := BitVec.ofNat 64 gts, type, source := if w < 192 then w else 554
            stretch := decide (w < 192) && decide (4 < (s.wheel w).ctl.period), saggar := k.getD 0xFFF, layer := 0xFFFFF, op := 0xFFF
            payload := tallyPayload w i t, dests := k.toList, mod := k.isNone }

/-- TALLY_WRITE: a register write sets the value (R603). -/
def execTallyWrite (wheel index : Nat) (value : DWord) (s : State) : Out :=
  act (hasTally s wheel index) (whenD (hostUp s) fun s => setTally s wheel index { tallyOf s wheel index with value }) s

/-- TALLY_WRAP: a running tally has wrapped to `value`; OVF is set and recorded (R604). -/
def execTallyWrap (wheel index : Nat) (value : DWord) (s : State) : Out :=
  act (hasTally s wheel index) (whenD (s.serving && !s.frozen && (tallyOf s wheel index).cfg.getLsbD 31) fun s =>
    let t := tallyOf s wheel index
    let t := { t with value, cfg := t.cfg ||| (1#32 <<< 29) }
    tallyRecord (setTally s wheel index t) 0xE1 wheel index s.gts t) s

/-- SAMPLE_WINDOW_END: in the tick in which a window has ended, once, every running tally with SAMPLE writes a sample stamped with the
window's last tick; a stopped wheel writes none (R607; 02 R56). A global stop holds the windows (R616). -/
def execSampleWindowEnd (s : State) : Out :=
  act true (whenD (s.serving && !s.frozen && s.dbg.sampleOn && s.windowEnds (2 ^ s.dbg.interval) s.dbg.sampled) fun s =>
    let g := s.gts - 1
    let s := { s with dbg := { s.dbg with sampled := s.watch } }
    let one := fun (w : Nat) (s : State) (e : Nat × Tally) =>
      if e.2.cfg.getLsbD 31 && e.2.cfg.getLsbD 30 then tallyRecord s 0xE0 w e.1 g e.2 else s
    let s := s.wheels.foldl (fun s (x : Nat × Wheel) => if x.2.ctl.stopGts.isSome then s else x.2.tallies.foldl (one x.1) s) s
    s.dbg.gtallies.foldl (one 192) s) s

/-- TALLY_READ: a virtual function reads only tallies filtered to a saggar bound to it (R608). -/
def execTallyRead (fn req : Nat) (s : State) : Out :=
  mbxRun { code := 0x2C, sag := true, used := [fld 18 0 16, fld 20 0 8], query := true } noData (fun s fn r =>
    let w := if rf r 18 0 16 = 0xFFFF then 192 else rf r 18 0 16
    let i := rf r 20 0 8
    let t := tallyOf s w i
    if 192 < w || (if w < 192 then 32 ≤ i else 64 ≤ i) then (answer stInvalid, s)
    else if w < 192 && !s.present w then (answer stAbsent, s)
    else if fn != 0 && (match tallySaggar t with
        | none => true
        | some k => (s.saggar k).st == .off || (s.saggar k).cfg.fn != fn) then (answer stNotPermitted, s)
    else (some (stOk, leBytes 8 t.value.toNat ++ leBytes 4 t.cfg.toNat), s)) fn req s

/-! ### Watchpoints -/

def watchpoint (s : State) (i : Nat) : Watchpoint := Tab.get {} s.dbg.watch i
def setWatch (s : State) (i : Nat) (x : Watchpoint) : State := { s with dbg := { s.dbg with watch := Tab.put {} s.dbg.watch i x } }

/-- Write DBG_WATCH_CTL_i: an enable waits while the saggar is PENDING_ON (R611). -/
def writeWatchCtl (s : State) (i : Nat) (v : Word) : State :=
  let v := v &&& 0xFFC00FFF
  let wait := v.getLsbD 31 && (s.saggar (bits v.toNat 0 12)).st == .pendingOn
  setWatch s i { watchpoint s i with ctl := if wait then v &&& ~~~(1#32 <<< 31) else v, latched := wait, fired := false, last := none }

/-- WATCH_SET: all fields but SAGGAR of a watchpoint assigned to a saggar of the sender (R611). -/
def execWatchSet (fn req : Nat) (s : State) : Out :=
  mbxRun { code := 0x2D, sag := true, used := [fld 18 0 8, fld 20 0 12, fld 20 22 10, fld 24 0 57, fld 32 0 57] } noData (fun s fn r =>
    let i := rf r 18 0 8
    let x := watchpoint s i
    let k := bits x.ctl.toNat 0 12
    if 64 ≤ i then (answer stInvalid, s)
    else if fn != 0 && ((s.saggar k).st == .off || (s.saggar k).cfg.fn != fn) then (answer stNotPermitted, s)
    else
      let s := setWatch s i { x with base := BitVec.ofNat 57 (rf r 24 0 57), limit := BitVec.ofNat 57 (rf r 32 0 57) }
      (answer stOk, writeWatchCtl s i (BitVec.ofNat 32 (rf r 20 12 20 * 4096 + k)))) fn req s

/-! ### The global stop -/

/-- The first tick at or after which media time reaches a value, at ρ as it is. -/
def mediaTick (s : State) (mt : Nat) : Nat :=
  if mt ≤ s.time.mt then s.gts else s.gts + (mt - s.time.mt + mtStep s - 1) / max 1 (mtStep s)

/-- DBG_STOP_CTL.ARM (R612): a new arm before T replaces the old one. -/
def execDbgStopArm (byMedia : Bool) (s : State) : Out :=
  act true (whenD (hostUp s) fun s =>
    let d := { s.dbg with byMedia }
    let t := if byMedia then mediaTick s (d.mtSec.toNat * mtSecond + d.mtNs.toNat * 2 ^ 41) else d.t.toNat
    let refused := decide (t < s.gts + 256) || ((List.range 8).any fun f => (s.flow f).st != 0) || !s.serving || decide (2 ≤ d.stop)
    { s with dbg := if refused then { d with armError := true } else { d with stop := 1, t := BitVec.ofNat 64 t, armError := false } }) s

/-- DBG_STOP_CTL.CANCEL before T. -/
def execDbgStopCancel (s : State) : Out :=
  act true (whenD (hostUp s && s.dbg.stop == 1) fun s => { s with dbg := { s.dbg with stop := 0 } }) s

/-- DBG_STOP_CTL.RESUME (R617, R618). -/
def execDbgStopResume (s : State) : Out :=
  act true (whenD (hostUp s) fun s =>
    let d := s.dbg
    { s with dbg := if d.stop = 3 && decide (s.gts + 256 ≤ d.u.toNat) then { d with stop := 4, armError := false } else { d with armError := true } }) s

/-- What a port records at T: a mark, and every flit or datagram sent and not acknowledged (R615). -/
def stopMarks (s : State) (n : Nat) : State :=
  let x := s.port n
  if !portUp x && !x.retraining then s else
  let t := s.dbg.t.toNat
  let rec_ := fun (s : State) (kind seq peer g : Nat) =>
    record s 0xE5 (768 + n) 0xFFF (payload [(n, 123), (kind, 121), (seq % 4096, 109), (peer, 93), (g, 0)]) [] true
  let held := s.gts - s.watch
  if n < 24 then
    x.kept.foldl (fun s k => rec_ s 0 k.seq x.peerId k.gts.toNat) (rec_ s 2 x.rxSeq x.peerId t)
  else
    s.link.conns.foldl (fun s (e : Nat × Conn) =>
      if ethPort s e.1 != some n then s else
      e.2.kept.foldl (fun s k => rec_ s 0 k.seq e.1 (k.at_ + held)) (rec_ s 2 e.2.rxSeq e.1 t)) s

/-- GLOBAL_STOP_TICK: from T no unit issues anything new; the ports record what is in flight (R613, R615). -/
def execGlobalStopTick (s : State) : Out :=
  act true (whenD (s.serving && s.dbg.stop == 1 && decide (s.dbg.t.toNat ≤ s.gts)) fun s =>
    (List.range 32).foldl stopMarks { s with dbg := { s.dbg with stop := 2 } }) s

/-- Every unit begun before T has been performed. -/
def stopQuiet (s : State) : Bool :=
  (s.wheels.all fun (w : Nat × Wheel) => w.2.mem.store == [] && w.2.mem.reads == [] && w.2.eng.mxq.all fun e => !e.started) &&
  s.crier.arrivals == [] && s.crier.gwakes == [] && (s.link.inbound.all fun (e : Nat × Nat × Packet) => 2 ≤ e.2.2.kind)

def onSaggars (s : State) : List Nat :=
  s.front.saggars.filterMap fun (e : Nat × Saggar) => if e.2.st == .on then some e.1 else none

/-- STOP_DRAIN_END. -/
def execStopDrainEnd (s : State) : Out :=
  act true (whenD (s.serving && s.dbg.stop == 2 && stopQuiet s) fun s =>
    record { s with dbg := { s.dbg with stop := 3 } } 0xE3 554 0xFFF (payload [(s.dbg.t.toNat, 64), (s.gts, 0)]) (onSaggars s) true) s

/-- The buffers of what a Spanor port held beyond its capture buffer of 4,096 flits are free, by hop class (R615; 13 R455). -/
def freeHeld (s : State) (n : Nat) (l : List Packet) : State :=
  if 24 ≤ n then s else
  [0, 1, 2, 3].foldl (fun s h =>
    let k := ((l.drop 4096).filter fun p => p.hop == h).length
    if k = 0 then s else s.emit (.flit n { type := 0, ackSeq := (s.port n).rxSeq, creditClass := h, credits := k })) s

/-- A port performs what it held, in order of arrival (R617). -/
def performHeld (s : State) (n : Nat) : State :=
  let l := (s.port n).held
  freeHeld (l.foldl (fun s p => deliverNow s n p) (s.setPort n { s.port n with held := [] })) n l

/-- GLOBAL_RESUME_TICK. -/
def execGlobalResumeTick (s : State) : Out :=
  act true (whenD (s.serving && s.dbg.stop == 4 && decide (s.dbg.u.toNat ≤ s.gts)) fun s =>
    let s := (List.range 32).foldl performHeld { s with dbg := { s.dbg with stop := 0 } }
    record s 0xE4 554 0xFFF (payload [(s.dbg.t.toNat, 64), (s.dbg.u.toNat, 0)]) (onSaggars s) true) s

end Sys2Proof.Machine
end

