-- ==== Sys2Proof/Machine/Flags.lean ====
section
/-!
DEFINITION. The comparisons that write predicates (03 R669); the block has no other flags.
-/
namespace Sys2Proof.Machine

/-- ISETP: the condition on two words (03 R669); `none` for a code that faults. -/
def icond (code : Nat) (signed : Bool) (a b : Word) : Option Bool :=
  let lt := if signed then a.slt b else a.ult b
  let gt := if signed then b.slt a else b.ult a
  match code with
  | 0 => some (a == b) | 1 => some (a != b) | 2 => some lt | 3 => some (!gt) | 4 => some gt | 5 => some (!lt)
  | _ => none

/-- FSETP: the condition on two FP32 values (03 R669). -/
def fcond (code : Nat) (a b : Word) : Option Bool :=
  let x := f32 a
  let y := f32 b
  let un := x.isNan || y.isNan
  let eq := x.eq y
  let lt := x.lt y
  let gt := y.lt x
  match code with
  | 0 => some eq | 1 => some (!un && !eq) | 2 => some lt | 3 => some (lt || eq) | 4 => some gt | 5 => some (gt || eq)
  | 6 => some (!un) | 7 => some un | 8 => some (un || eq) | 9 => some (un || !eq) | 10 => some (un || lt)
  | 11 => some (un || lt || eq) | 12 => some (un || gt) | 13 => some (un || gt || eq)
  | _ => none

/-- PLOP: AND, OR, XOR, ANDN (03 R124). -/
def plop (op : Nat) (a b : Bool) : Bool :=
  match op with
  | 0 => a && b | 1 => a || b | 2 => a != b | _ => a && !b

end Sys2Proof.Machine
end

