-- ==== Sys2Proof/Machine/FpOps.lean ====
section
/-!
DEFINITION. FP32 and FP64 scalar instructions and compares, classes 0x02 to 0x04 (03 R124, R668, R669; 05 R173, R180).
-/
namespace Sys2Proof.Machine

/-- Some executing lane overflowed: finite operands and a result that is Inf or NaN (05 R180). `bad` judges one lane
of the crew as it stood; a NaN result is told from Inf by `nan`. -/
def afterOverflow (i : Issue) (c : Crew) (m : Word) (bad nan : Crew → Nat → Bool) (s : State) : State :=
  if (lanesOf m).any (bad c) then
    overflowAt s i.wheel i.slot ((lanesOf m).any fun l => bad c l && nan c l) true
  else s

/-- An FP32 operation with operand registers `rs` and result `f` of their values; `dom` excludes domain results (05
R180). -/
def fpOp (i : Issue) (legal : Bool) (rs : List Nat) (dom : List Word → Bool) (f : List Word → Word) (s : State) : Out :=
  issue i { legal, regs := da i :: rs } (fun s c x m =>
    let ops := fun (c : Crew) (l : Nat) => rs.map (reg c l)
    let s := lanewise i (fun c d l => setReg d l (da i) (f (ops c l))) s c x m
    afterOverflow i c m
      (fun c l => ((ops c l).all fun w => (f32 w).finite) && !(f32 (f (ops c l))).finite && !dom (ops c l))
      (fun c l => (f32 (f (ops c l))).isNan) s) s

def two (f : Word → Word → Word) (l : List Word) : Word := f (l.getD 0 0) (l.getD 1 0)
def one (f : Word → Word) (l : List Word) : Word := f (l.getD 0 0)
def noDom (_ : List Word) : Bool := false

/-- FP32 add, RNE (R173). -/
def execFadd (i : Issue) (s : State) : Out := fpOp i (i.x == 0) [sa i, sb i] noDom (two fadd) s
/-- FP32 subtract, RNE (R173). -/
def execFsub (i : Issue) (s : State) : Out := fpOp i (i.x == 0) [sa i, sb i] noDom (two fsub) s
/-- FP32 multiply, RNE (R173). -/
def execFmul (i : Issue) (s : State) : Out := fpOp i (i.x == 0) [sa i, sb i] noDom (two fmul) s
/-- FP32 minimum (R668). -/
def execFmin (i : Issue) (s : State) : Out := fpOp i (i.x == 0) [sa i, sb i] noDom (two fmin) s
/-- FP32 maximum (R668). -/
def execFmax (i : Issue) (s : State) : Out := fpOp i (i.x == 0) [sa i, sb i] noDom (two fmax) s
/-- DA ← SA × SB + X[23:16], one rounding (R124). -/
def execFfma (i : Issue) (s : State) : Out :=
  fpOp i (xf i 0 16 == 0) [sa i, sb i, xf i 16 8] noDom (fun l => ffma (l.getD 0 0) (l.getD 1 0) (l.getD 2 0)) s
/-- Reciprocal within 1 ulp (05 R173); ±0 gives ±Inf, which is no overflow (R180). -/
def execFrcp (i : Issue) (s : State) : Out :=
  fpOp i (i.x == 0 && i.sb == 0) [sa i] (fun l => (f32 (l.getD 0 0)).isZero) (one rcp32) s
/-- Reciprocal square root within 1 ulp (05 R173). -/
def execFrsq (i : Issue) (s : State) : Out :=
  fpOp i (i.x == 0 && i.sb == 0) [sa i] (fun l => (f32 (l.getD 0 0)).isZero || (f32 (l.getD 0 0)).sign) (one rsqrt32) s
/-- Square root, correctly rounded (05 R173). -/
def execFsqrt (i : Issue) (s : State) : Out :=
  fpOp i (i.x == 0 && i.sb == 0) [sa i] (fun l => (f32 (l.getD 0 0)).sign) (one fsqrt) s
/-- Base-2 exponential within 1 ulp (05 R173). -/
def execFexp2 (i : Issue) (s : State) : Out :=
  fpOp i (i.x == 0 && i.sb == 0) [sa i] noDom (one exp2_32) s

/-- An FP64 operation on register pairs. -/
def dpOp (i : Issue) (legal : Bool) (rs : List Nat) (arith : Bool) (f : List DWord → DWord) (s : State) : Out :=
  issue i { legal, pairs := da i :: rs } (fun s c x m =>
    let ops := fun (c : Crew) (l : Nat) => rs.map (pair c l)
    let s := lanewise i (fun c d l => setPair d l (da i) (f (ops c l))) s c x m
    if arith then
      afterOverflow i c m (fun c l => ((ops c l).all fun w => (f64 w).finite) && !(f64 (f (ops c l))).finite)
        (fun c l => (f64 (f (ops c l))).isNan) s
    else s) s

/-- FP64 add (R124). -/
def execDadd (i : Issue) (s : State) : Out :=
  dpOp i (i.x == 0) [sa i, sb i] true (fun l => dadd (l.getD 0 0) (l.getD 1 0)) s
/-- FP64 multiply (R124). -/
def execDmul (i : Issue) (s : State) : Out :=
  dpOp i (i.x == 0) [sa i, sb i] true (fun l => dmul (l.getD 0 0) (l.getD 1 0)) s
/-- FP64 fused multiply-add, third pair in X[23:16] (R124). -/
def execDfma (i : Issue) (s : State) : Out :=
  dpOp i (xf i 0 16 == 0) [sa i, sb i, xf i 16 8] true (fun l => dfma (l.getD 0 0) (l.getD 1 0) (l.getD 2 0)) s
/-- FP64 pair move: no bit changes (05 R177). -/
def execDmov (i : Issue) (s : State) : Out := dpOp i (i.x == 0 && i.sb == 0) [sa i] false (fun l => l.getD 0 0) s

/-- ISETP (R669). -/
def execIsetp (i : Issue) (s : State) : Out :=
  issue i { legal := decide (da i < 8) && xf i 0 19 == 0 && (icond (xf i 20 4) (i.x.getLsbD 19) 0 0).isSome,
            regs := [sa i, sb i] }
    (lanewise i fun c d l =>
      setPred d l (da i) ((icond (xf i 20 4) (i.x.getLsbD 19) (reg c l (sa i)) (reg c l (sb i))).getD false)) s
/-- FSETP (R669). -/
def execFsetp (i : Issue) (s : State) : Out :=
  issue i { legal := decide (da i < 8) && xf i 0 20 == 0 && (fcond (xf i 20 4) 0 0).isSome, regs := [sa i, sb i] }
    (lanewise i fun c d l => setPred d l (da i) ((fcond (xf i 20 4) (reg c l (sa i)) (reg c l (sb i))).getD false)) s
/-- PLOP (R124). -/
def execPlop (i : Issue) (s : State) : Out :=
  issue i { legal := decide (da i < 8) && decide (sa i < 8) && decide (sb i < 8) && decide (i.x.toNat < 4) }
    (lanewise i fun c d l => setPred d l (da i) (plop (xf i 0 2) (predOf c l (sa i)) (predOf c l (sb i)))) s

/-- Convert one source operand: format codes and mode as X gives them (R124, 05 R171). -/
def cvtLane (s : State) (i : Issue) (c : Crew) (l : Nat) : Packed :=
  let src := xf i 12 6
  let v := if src = 8 then (pair c l (sa i)).toNat else (reg c l (sa i)).toNat
  convert (xf i 18 6) src (xf i 9 3) (i.x.getLsbD 8 || forcedSat s c) v

/-- The source operand of a lane is finite. -/
def cvtFinite (i : Issue) (c : Crew) (l : Nat) : Bool :=
  (srcValue (xf i 12 6) (if xf i 12 6 = 8 then (pair c l (sa i)).toNat else (reg c l (sa i)).toNat)).finite

/-- Elements a narrowing conversion examines and flushes (05 R204). -/
def cvtCounts (i : Issue) (c : Crew) (m : Word) : Nat × Nat :=
  let vals := (lanesOf m).map fun l =>
    srcValue (xf i 12 6) (if xf i 12 6 = 8 then (pair c l (sa i)).toNat else (reg c l (sa i)).toNat)
  let ex := vals.filter fun v => !v.isZero
  let fl := ex.filter fun v => match fmtOf (xf i 18 6) with
    | some f => (f.decode (f.rne v)).isZero
    | none => false
  (ex.length, fl.length)

/-- CVT (R124, 05 R171 to R180, R204). -/
def execCvt (i : Issue) (s : State) : Out :=
  let dst := xf i 18 6
  let src := xf i 12 6
  issue i { legal := isFormat dst && isFormat src && decide (xf i 9 3 ≤ 4) && xf i 0 8 == 0 && i.sb == 0,
            pairs := (if dst = 8 then [da i] else []) ++ (if src = 8 then [sa i] else []), regs := [da i, sa i] }
    (fun s c x m =>
      let r := fun (l : Nat) => cvtLane s i c l
      let s0 := s
      let s := lanewise i (fun c d l =>
        let v := (cvtLane s0 i c l).code
        if dst = 8 then setPair d l (da i) (BitVec.ofNat 64 v) else setReg d l (da i) (BitVec.ofNat 32 v)) s c x m
      let s := if narrows dst src && inGradient s c then
          let (e, f) := cvtCounts i c m
          countNarrow s i.wheel i.slot e f
        else s
      let s := if (lanesOf m).any fun l => (r l).saturated && cvtFinite i c l then markSat s i.wheel i.slot else s
      if (lanesOf m).any fun l => (r l).beyond then overflowAt s i.wheel i.slot (dst == 1) false else s) s

end Sys2Proof.Machine
end

