-- ==== Sys2Proof/Machine/Frames.lean ====
section
/-!
DEFINITION. Frame edges, reservations, deadlines and emission (12 R427 to R430, R436 to R451).
-/
namespace Sys2Proof.Machine

/-! ### Edges (R428 to R430) -/

/-- The flow uses an edge at tick `g` with media time or alignment point `rtp`: every tick derived from it is fixed. -/
def useEdge (s : State) (f g : Nat) (rtp : Word) : State :=
  let x := s.flow f
  let e := g + flowOffset s f
  let s := s.setFlow f { x with
    frame := BitVec.ofNat 64 x.next.toNat, edgeGts := BitVec.ofNat 64 g, next := x.next + 1, started := true
    edges := x.edges ++ [{ n := x.next, gts := g, d := e - flowGuard s f, e, rtp }] }
  (resOf s f).foldl (fun s r =>
    let y := s.resv r
    s.setResv r { y with due := y.due ++ [{ n := x.next, s := g + resStart s r, e := g + resEnd s r }] }) s

/-- An edge at tick `g` counts: from P after the enable on; less than P / 2 after the one before it is skipped, with its record, the
next edge to come at `after`. -/
def offerEdge (s : State) (f g : Nat) (rtp : Word) (after : Nat) : State :=
  let x := s.flow f
  let r := flowRate s f
  if !x.started then (if atLeastP r (g - x.since) 1 1 then useEdge s f g rtp else s)
  else if atLeastP r (g - x.edgeGts.toNat) 1 2 then useEdge s f g rtp
  else edgeRecord s f 3 x.next after

/-- Media time of tick `g`, which is not after this one. -/
def mtAt (s : State) (g : Nat) : Nat := s.time.mt - (s.gts - g) * mtStep s

/-- RTP timestamp of a media time (R449). -/
def rtpOf (mt : Nat) : Word := BitVec.ofNat 32 (mt * 90000 / mtSecond)

/-- FRAME_EDGE: the next alignment point of the flow, or the next genlock or flywheel edge, has come. -/
def execFrameEdge (flow : Nat) (s : State) : Out :=
  act (decide (flow < 8)) (whenD (s.serving && !s.frozen && (s.flow flow).st == 1) fun s =>
    let x := s.flow flow
    let r := flowRate s flow
    if timeSource s != 2 then
      if !pointReached s r x.j then s else
      let g := pointTick s r x.j
      let s := s.setFlow flow { x with j := x.j + 1 }
      offerEdge s flow g (BitVec.ofNat 32 (x.j * r.2 * 90000 / r.1)) (pointTick s r (x.j + 1))
    else
      let gen := s.time.gen
      let p := gen.period.toNat
      if gen.present then
        if gen.gts.toNat ≤ x.usedGen then s else
        let g := gen.gts.toNat
        let s := s.setFlow flow { x with usedGen := g, flywheel := false }
        let s := if x.flywheel then edgeRecord s flow 1 x.next g else s
        offerEdge s flow g (rtpOf (mtAt s g)) (g + p)
      else
        let g := (if x.started || x.flywheel then max x.edgeGts.toNat x.usedGen else x.usedGen) + p
        if s.gts < g || p = 0 then s else
        let s := if x.flywheel then s else edgeRecord (s.setFlow flow { x with flywheel := true }) flow 0 x.next g
        offerEdge (s.modFlow flow fun x => { x with usedGen := g }) flow g (rtpOf (mtAt s g)) (g + p)) s

/-! ### Reservations (R440 to R444) -/

/-- The window of a reservation that comes next. -/
def nextWindow (s : State) (r : Nat) : Option ResWin := (s.resv r).due.head?

/-- Wheels of a reservation's mask. -/
def resWheels (s : State) (r : Nat) : List Nat := (List.range 192).filter fun w => (resMask s r).getLsbD w && s.present w

/-- RESERVATION_WAKE: gated wheels of the mask are woken at S − 8,000 (R441). -/
def execReservationWake (res : Nat) (s : State) : Out :=
  act (decide (res < 16)) (whenD (s.serving && !s.frozen && (s.flow (resFlow s res)).st == 1) fun s =>
    match nextWindow s res with
    | none => s
    | some w =>
      if s.gts + 8000 < w.s then s else
      (resWheels s res).foldl (fun s i => if (s.wheel i).ctl.gated && (s.wheel i).ctl.state == .on then
        modCtl s i fun c => { c with waking := true } else s) s) s

/-- A wheel joins the window: its tasks are set aside (03 R113), its leave is the reservation's (14 R504). -/
def joinWindow (s : State) (r k w : Nat) : State :=
  let s := s.modWheel w fun x => { x with
    ctl := { x.ctl with resv := some r, preempt := none }
    work := { x.work with kept := x.work.kept ++ x.work.deque, deque := [], retry := false, gotEmpty := false, nextProbe := 0 } }
  let own : Nat → Permit → Permit := fun _ p => if p.kind ≤ 1 ∧ p.unit = w then { p with cls := 2, saggar := k } else p
  { s with rve := { s.rve with permits := Tab.mapv s.rve.permits own } }

/-- RESERVATION_START: at S the wheels of the mask that are ON, or gated and woken, are reserved (R441, R442); one that still runs out
the window before stays reserved, in the new window. A flow that drains opens no further window. -/
def execReservationStart (res : Nat) (s : State) : Out :=
  act (decide (res < 16)) (whenD (s.serving && !s.frozen) fun s =>
    match nextWindow s res, (s.flow (resFlow s res)).bind with
    | some w, some b =>
      let y := s.resv res
      if s.gts < w.s || !(y.st == 0 || y.st == 3) then s
      else if (s.flow (resFlow s res)).st != 1 || w.e ≤ s.gts then s.setResv res { y with due := y.due.drop 1 }
      else
        let ws := (resWheels s res).filter fun i =>
          let c := (s.wheel i).ctl
          c.state == .on && (!c.gated || c.waking) && (c.resv.isNone || c.resv == some res)
        let s := s.setResv res { y with st := 1, held := ws.length, due := y.due.drop 1, cur := some w }
        (ws.filter fun i => (s.wheel i).ctl.resv.isNone).foldl (fun s i => joinWindow s res b.saggar i) s
    | _, _ => s) s

/-- Wheels a reservation holds. -/
def heldWheels (s : State) (r : Nat) : List Nat :=
  (s.wheels.filter fun (e : Nat × Wheel) => e.2.ctl.resv == some r).map Prod.fst

/-- Deadline crews resident on a wheel. -/
def deadlineCrews (s : State) (w : Nat) : Nat :=
  ((s.wheel w).crews.filter fun (e : Nat × Crew) => (s.stream e.2.stream).cls == 2).length

/-- The reservation of a wheel ends: its kept tasks, and the split they were accepted under, are its own again (R443); deadline tasks
it has not started wait in the market (R444). -/
def freeWheel (s : State) (w : Nat) : State :=
  let late := (s.wheel w).work.deque
  let s := s.modWheel w fun x =>
    let tasks := x.work.kept
    let split := match tasks.head? with
      | none => x.ctl.split
      | some t => ((s.launch? t.launch).map fun l => l.res.l / 64).getD x.ctl.split
    { x with
      ctl := { x.ctl with resv := none, split, idleSince := some s.watch }
      work := { x.work with deque := tasks, kept := [], retry := false, gotEmpty := false, nextProbe := 0 } }
  placePinned (late.reverse.foldl (fun s r => returnRange s w r) s) w 64

/-- Wheels without a deadline crew leave the window; the reservation is over with its last wheel. -/
def leaveWindow (s : State) (r beyond : Nat) : State :=
  let s := ((heldWheels s r).filter fun w => deadlineCrews s w == 0).foldl freeWheel s
  let y := s.resv r
  if heldWheels s r = [] then s.setResv r { y with st := 0, cur := none }
  else if beyond = 1 then s.setResv r { y with st := 3 } else s

/-- RESERVATION_END: at the window end, wheels with deadline crews run out, with one RES_OVERRUN; later, each wheel ends with its last
deadline crew (R444). -/
def execReservationEnd (res : Nat) (s : State) : Out :=
  act (decide (res < 16)) (whenD (s.serving && !s.frozen) fun s =>
    let y := s.resv res
    match y.cur with
    | none => s
    | some w =>
      if s.gts < w.e || y.st = 0 then s else
      let late := (heldWheels s res).filter fun i => deadlineCrews s i != 0
      let f := resFlow s res
      let s := if y.st != 3 && late != [] then
          let k := ((s.flow f).bind.map FlowBind.saggar).getD 0xFFF
          record (s.setResv res { y with overruns := y.overruns + 1 }) 0xA2 (536 + f) k
            (payload [(res, 124), (f, 121), (w.n.toNat, 64), (min 255 (late.map (deadlineCrews s)).sum, 56), (late.length, 48)])
            (if k < 4096 then [k] else []) false
        else s
      leaveWindow s res 1) s

/-- RELEASE_ON_READY: READY_WORD has reached the window's frame: wheels without a deadline crew are released (R444). -/
def execReleaseOnReady (res : Nat) (s : State) : Out :=
  act (decide (res < 16)) (whenD (s.serving && !s.frozen) fun s =>
    let y := s.resv res
    match y.cur, (s.flow (resFlow s res)).bind with
    | some w, some b =>
      if !resRelease s res || y.st == 0 || !reached (readyWord s b) w.n then s else leaveWindow s res 0
    | _, _ => s) s

/-! ### Deadlines and emission (R437 to R439, R447 to R451) -/

/-- FREE_WORD of flow `f` takes j − 1 as a release (R438). -/
def writeFree (s : State) (f : Nat) (b : FlowBind) (j : Word) : State :=
  (engSignal s { saggar := b.saggar, source := 536 + f } b.free 1 (j - 1)).2

/-- The tick of packet `k` of an emission (R448): E_n + floor(k × 0.96 × P / N). -/
def packetTick (s : State) (f e k : Nat) : Nat :=
  let r := flowRate s f
  e + k * 96 * tickRate * r.2 / (100 * r.1 * flowPackets s f)

/-- The tick in which an emission from tick `e` ends: the one after the last bit of its last packet, 1,286 bytes at 800 Gb/s (R448). -/
def emissionEndTick (s : State) (f e : Nat) : Nat := packetTick s f e (flowPackets s f - 1) + 6

/-- An emission of the flow from before edge `e`, in progress or chosen, lasts past E_n (R450). -/
def stillEmitting (s : State) (f : Nat) (x : Flow) (e : FEdge) : Bool :=
  x.emission.any (fun m => decide (e.e < emissionEndTick s f m.e)) ||
  x.edges.any fun q => q.checked && q.frame.isSome && !q.skip && q.n != e.n && decide (e.e < emissionEndTick s f q.e)

/-- COMPLETION_DEADLINE: at D_n the engine looks once at READY_WORD as it stood before that tick, and chooses (R437; 02 R55); it asks for emission leave when packets will
be sent (R439). The check of an edge whose emission cannot take place does not count (R450). -/
def execCompletionDeadline (flow : Nat) (s : State) : Out :=
  act (decide (flow < 8)) (whenD (s.serving && !s.frozen && (s.flow flow).st == 1) fun s =>
    let x := s.flow flow
    match x.bind, x.edges.find? fun e => !e.checked with
    | some b, some e =>
      if s.gts < e.d then s
      else if stillEmitting s flow x e then
        s.setFlow flow { x with edges := x.edges.map fun q => if q.n = e.n then { q with checked := true, skip := true } else q }
      else
      let v := e.ready.getD (readyWord s b)
      let hit := reached v e.n
      let newer := match x.m with
        | none => false
        | some m => reached v m && v != m
      let frame := if hit then some e.n else if newer then some v else x.m
      let out := if hit then 3 else if newer then 0 else if x.m.isSome then 1 else 2
      let mt := s.time.mt - (s.gts - e.d) * mtStep s
      let held := ((resOf s flow).map fun r => (s.resv r).held).sum
      let s := if hit then s else
        offer s { gts := BitVec.ofNat 64 e.d, type := 0xA0, source := 536 + flow, saggar := b.saggar, layer := 0xFFFFF, op := 0xFFF
                  payload := payload [(mtSecs mt % 2 ^ 48, 80), (mtNanos mt, 50), (e.n.toNat, 18), (flow, 15), (out, 13), (min 255 held, 5)]
                  dests := [b.saggar], mod := true }
      let took := if hit || newer then frame else none
      let s := s.setFlow flow { x with
        edges := x.edges.map fun q => if q.n = e.n then { q with checked := true, frame } else q
        m := if hit || newer then frame else x.m
        missed := if hit then x.missed else x.missed + 1, consec := if hit then 0 else min 0xFF (x.consec + 1)
        freeDue := if x.emission.isSome && took.isSome then took else x.freeDue }
      let s := match took with
        | some j => if x.emission.isSome then s else writeFree s flow b j
        | none => s
      if frame.isSome then askLeave s 5 (536 + flow) 0 2 b.saggar else s
    | _, _ => s) s

/-- EMISSION_START: at E_n the chosen frame's emission begins, once the one before has ended; one that cannot take place is recorded
(R448, R450). -/
def execEmissionStart (flow : Nat) (s : State) : Out :=
  act (decide (flow < 8)) (whenD (s.serving && !s.frozen && (s.flow flow).st == 1) fun s =>
    let x := s.flow flow
    match x.bind, x.edges.head? with
    | some b, some e =>
      if s.gts < e.e || !e.checked then s
      else if e.skip then
        record (s.setFlow flow { x with edges := x.edges.drop 1, skipped := x.skipped + 1 }) 0xA1
          (536 + flow) b.saggar (payload [(e.n.toNat, 96), (flow, 93), (e.e, 0)]) [b.saggar] false
      else
      match e.frame with
      | none => s.setFlow flow { x with edges := x.edges.drop 1 }
      | some j =>
        if x.emission.isSome || leaveKnown s 5 (536 + flow) 0 = 0 then s
        else s.setFlow flow { x with
          edges := x.edges.drop 1, emission := some { n := e.n, frame := j, rtp := e.rtp, e := e.e }
          emitted := if j = e.n then x.emitted + 1 else x.emitted }
    | _, _ => s) s

/-- Big-endian bytes. -/
def beBytes (n v : Nat) : List Byte := (leBytes n v).reverse

/-- One's-complement checksum of an IPv4 header. -/
def ipSum (l : List Byte) : Nat :=
  let t := (List.range 10).foldl (fun a i => a + (l.getD (2 * i) 0).toNat * 256 + (l.getD (2 * i + 1) 0).toNat) 0
  let t := t % 65536 + t / 65536
  65535 - (t % 65536 + t / 65536)

/-- The headers of packet `k` of `n` of a frame (R447, R449). -/
def videoHeader (s : State) (f k n line offset : Nat) (seq rtp : Word) : List Byte :=
  let i := flowImg s f
  let eth := s.img.eth.getD (flowPort s f) []
  let vlan := if bits (flowCfg s f) 19 1 = 1 then [0x81, 0x00] ++ beBytes 2 (lf i 18 2 % 2 ^ 15) else []
  let ip := fun (c : Nat) => [0x45] ++ beBytes 1 (4 * lf i 33 1) ++ beBytes 2 1248 ++ [0, 0, 0x40, 0] ++ beBytes 1 (lf i 32 1) ++ [17] ++
    beBytes 2 c ++ (i.drop 24).take 4 ++ (i.drop 20).take 4
  (i.drop 12).take 6 ++ eth.take 6 ++ vlan ++ [0x08, 0x00] ++ ip (ipSum (ip 0)) ++
  beBytes 2 (lf i 28 2) ++ beBytes 2 (lf i 30 2) ++ beBytes 2 1228 ++ [0, 0] ++
  [0x80] ++ beBytes 1 ((if k + 1 = n then 128 else 0) + lf i 34 1) ++ beBytes 2 (seq.toNat % 65536) ++ beBytes 4 rtp.toNat ++
    beBytes 4 (lf i 36 4) ++
  beBytes 2 (seq.toNat / 65536) ++ beBytes 2 1200 ++ beBytes 2 line ++ beBytes 2 offset

/-- The black byte at an offset of a line (R451). -/
def blackByte (o : Nat) : Byte := [0x80, 0x04, 0x08, 0x00, 0x40].getD (o % 5) 0

/-- Read `n` bytes of a line from offset `o` on; a poisoned sector is replaced by black, recorded and reported (R451). -/
def readLine (s : State) (f : Nat) (b : FlowBind) (frame : Word) (line : Nat) (o n : Nat) : Nat → List Byte × State
  | 0 => ([], s)
  | fuel + 1 =>
    if n = 0 then ([], s) else
    let va := line + o
    let m := min n (32 - va % 32)
    let (r, s) := engRead s { saggar := b.saggar, source := 536 + f } (BitVec.ofNat 64 va) m
    let (l, s) := match r with
      | .ok l => (l, s)
      | .error _ =>
        let s := record s 0xA4 (536 + f) b.saggar (payload [(frame.toNat, 96), (f, 93), (va / 32 * 32, 0)]) [b.saggar] false
        let s := unitError s (536 + f) ecContained 11 (24 + f) 2 0xFFF 0xFFFFF 1
          (((translate s b.saggar (BitVec.ofNat 64 va)).map Prod.fst).getD 0)
        ((List.range m).map fun i => blackByte (o + i), s)
    let (rest, s) := readLine s f b frame line (o + m) (n - m) fuel
    (l ++ rest, s)

/-- Bytes of a line that the engine has read once packet bytes [o, o + 1200) are out: to the end of the sector in which they end, so
that each sector is read once (09 R337), and no further than the line. -/
def lineRead (base o per : Nat) : Nat := min (1200 * per) ((base + o + 1231) / 32 * 32 - base)

/-- Address of byte 0 of the line of the emission's next packet. -/
def lineBase (s : State) (f : Nat) (b : FlowBind) (e : Emission) : Nat :=
  b.base.toNat + (e.frame.toNat % b.nbuf) * b.bufStride.toNat + e.k / (flowPicture s f).2.2 * b.lineStride

/-- Nothing of the next packet's bytes is in transfer (08 R323, R325). -/
def lineFree (s : State) (f : Nat) (b : FlowBind) (e : Emission) : Bool :=
  settled s b.saggar (BitVec.ofNat 64 (lineBase s f b e + 1200 * (e.k % (flowPicture s f).2.2))) 1232

/-- FRAME_PACKET: the next packet of the emission is sent at its tick (R448). A packet buffer error is sent as black (16 R547); a port
that has left service sends nothing (R433). -/
def execFramePacket (flow : Nat) (s : State) : Out :=
  act (decide (flow < 8)) (whenD (s.serving && !s.frozen) fun s =>
    let x := s.flow flow
    match x.bind, x.emission with
    | some b, some e =>
      let n := flowPackets s flow
      if n ≤ e.k || s.gts < packetTick s flow e.e e.k || !lineFree s flow b e then s else
      let per := (flowPicture s flow).2.2
      let line := e.k / per
      let o := 1200 * (e.k % per)
      let base := lineBase s flow b e
      let at_ := o + e.carry.length
      let (l, s) := readLine s flow b e.frame base at_ (lineRead base o per - at_) 40
      let l := e.carry ++ l
      let (data, s) := if e.poisoned then
          ((List.range 1200).map fun i => blackByte (o + i),
            record s 0xA4 (536 + flow) b.saggar (payload [(e.frame.toNat, 96), (flow, 93), (base + o, 0)]) [b.saggar] false)
        else (l.take 1200, s)
      let head := videoHeader s flow e.k n line (480 * (e.k % per)) x.seq e.rtp
      let s := s.setFlow flow { x with seq := x.seq + 1, emission := some { e with k := e.k + 1, poisoned := false, carry := l.drop 1200 } }
      if portUp (s.port (24 + flowPort s flow)) then s.emit (.ethernet (flowPort s flow) (head ++ data)) else s
    | _, _ => s) s

/-- EMISSION_END (R448): the permit ends unless a further frame waits for its time, and FREE_WORD takes a value that waited (R438, 14
R495). -/
def execEmissionEnd (flow : Nat) (s : State) : Out :=
  act (decide (flow < 8)) (whenD (s.serving && !s.frozen) fun s =>
    let x := s.flow flow
    match x.bind, x.emission with
    | some b, some e =>
      if e.k < flowPackets s flow || s.gts < emissionEndTick s flow e.e || (x.freeDue.isSome && !settled s b.saggar b.free 4) then s else
      let s := s.setFlow flow { x with emission := none, freeDue := none }
      let s := match x.freeDue with
        | some j => writeFree s flow b j
        | none => s
      if x.st == 1 && x.edges.any fun q => q.checked && q.frame.isSome then s
      else dropPermits s fun p => p.kind == 5 && p.unit == 536 + flow
    | _, _ => s) s

end Sys2Proof.Machine
end

