-- ==== Sys2Proof/Machine/GuildMath.lean ====
section
/-!
DEFINITION. Chunks, compression and the reduction of the collective engine (07 R265 to R271; 13 R484, R485).
-/
namespace Sys2Proof.Machine

/-- Words of a little-endian byte list. -/
def wordsOf (n : Nat) (l : List Byte) : List Word := (List.range n).map fun i => BitVec.ofNat 32 (leNat ((l.drop (4 * i)).take 4))
def wordBytes (l : List Word) : List Byte := l.flatMap fun w => leBytes 4 w.toNat

/-- The pairwise tree of FP32 additions, in pairs (0, 1), (2, 3) and so on, an odd last node passing up. -/
def sumTree (l : List Word) : Word := tree fadd 0 32 l

/-- First unit of chunk `c` of `total` units (R484). -/
def chunkLo (total n c : Nat) : Nat := if n ≤ c then total else 16 * (c * total / n / 16)

/-! ### Compression (R267 to R271) -/

/-- An FP32 word's magnitude as it compares. -/
def magnitude (w : Word) : Nat := w.toNat % 2 ^ 31
def nonFinite (w : Word) : Bool := 0x7F800000 ≤ magnitude w

/-- A block padded with +0. -/
def padBlock (l : List Word) : List Word := l ++ List.replicate (4096 - l.length) 0

/-- Indices of the k elements of largest magnitude, the lower index first among equals, in ascending order (R268). -/
def topIndices (k : Nat) (l : List Word) : List Nat :=
  let m := (List.range l.length).zip (l.map magnitude)
  (m.filter fun e => decide ((m.filter fun f => decide (e.2 < f.2) || (f.2 == e.2 && decide (f.1 < e.1))).length < k)).map Prod.fst

/-- A top-k block record (R268, R271). -/
def topkRecord (kcode : Nat) (l : List Word) : List Byte :=
  let k := 16 * (kcode + 1)
  if l.any nonFinite then (List.range k).flatMap fun i => leBytes 4 (0x7FC0 * 65536 + i)
  else
    let p := padBlock l
    (topIndices k p).flatMap fun i => leBytes 4 ((convert 4 6 0 true (p.getD i 0).toNat).code * 65536 + i)

/-- A sign block record (R269, R271). -/
def signRecord (l : List Word) : List Byte :=
  if l.any nonFinite then leBytes 4 0x7FC00000 ++ List.replicate 512 0
  else
    let scale := fdiv (sumTree (l.map fun w => w &&& 0x7FFFFFFF)) (toF32 (.fin false l.length 0))
    let bit := fun i => if (l.getD i 0).getLsbD 31 then 1 else 0
    leBytes 4 scale.toNat ++ (List.range 512).map fun b =>
      BitVec.ofNat 8 (((List.range 8).map fun i => bit (8 * b + i) * 2 ^ i).sum)

/-- The record of a block: COMP 1 top-k, 2 sign. -/
def blockRecord (comp kcode : Nat) (l : List Word) : List Byte := if comp = 1 then topkRecord kcode l else signRecord l

def recordLen (comp kcode : Nat) : Nat := if comp = 1 then 64 * (kcode + 1) else 516

/-- What a record decodes to, as `n` words (R268, R269). -/
def decodeRecord (comp kcode n : Nat) (r : List Byte) : List Word :=
  if comp = 1 then
    let l := wordsOf (16 * (kcode + 1)) r
    (List.range n).map fun i =>
      match l.find? fun w => bits w.toNat 0 12 == i with
      | some w => BitVec.ofNat 32 (bits w.toNat 16 16 * 65536)
      | none => 0
  else
    let scale : Word := BitVec.ofNat 32 (leNat (r.take 4))
    (List.range n).map fun i => if (r.getD (4 + i / 8) 0).getLsbD (i % 8) then scale ^^^ 0x80000000 else scale

/-- Error feedback of a compressed block (R270, R271). -/
def feedback (comp kcode : Nat) (l : List Word) : List Word :=
  if l.any nonFinite then l.map fun _ => 0
  else (l.zip (decodeRecord comp kcode l.length (blockRecord comp kcode l))).map fun e => fsub e.1 e.2

/-- Words of blocks decoded from their records, `n` in all. -/
def decodeBlocks (comp kcode n : Nat) (bs : List Byte) : List Word :=
  (List.range ((n + 4095) / 4096)).flatMap fun b =>
    decodeRecord comp kcode (min 4096 (n - 4096 * b)) ((bs.drop (recordLen comp kcode * b)).take (recordLen comp kcode))

/-! ### Contributions and the sum (R485) -/

def fmtBytes (f : Nat) : Nat := if f = 6 then 4 else 2

/-- Elements of a format widened to FP32. -/
def widenAll (fmt n : Nat) (l : List Byte) : List Word :=
  (List.range n).map fun i =>
    let b := leNat ((l.drop (fmtBytes fmt * i)).take (fmtBytes fmt))
    if fmt = 6 then BitVec.ofNat 32 b else BitVec.ofNat 32 (convert 6 fmt 0 false b).code

/-- A reduced element in OUT_FORMAT. -/
def outElem (out : Nat) (w : Word) : List Byte := if out = 6 then leBytes 4 w.toNat else leBytes 2 (convert 4 6 0 false w.toNat).code

/-- Sum the contributions of all ranks, element by element, in rank order. -/
def sumMembers (n : Nat) (l : List (List Word)) : List Word := (List.range n).map fun i => sumTree (l.map fun (c : List Word) => c.getD i 0)

end Sys2Proof.Machine
end

