-- ==== Sys2Proof/Machine/Remote.lean ====
section
/-!
DEFINITION. Remote signals and puts (10 R372 to R377, R392; 13 R460, R461): SIG.R and RPUT, and what their packets do at
the peer and back at the sender.
-/
namespace Sys2Proof.Machine

/-- The guild and rank a register names, when the guild is bound to the saggar and holds the rank (R372). -/
def peerOf (s : State) (k : Nat) (v : Word) : Option (Guild × Nat × Nat) :=
  let gid := v.toNat / 65536
  let q := v.toNat % 65536
  match Tab.find s.link.guilds gid with
  | none => none
  | some g => if g.saggar = k && q < g.n then some (g, gid, q) else none

/-- SIG.R: a bare signal to a peer (R373). -/
def execSigR (i : Issue) (s : State) : Out :=
  issue i { legal := i.da == 0 && xf i 22 2 != 3 && xf i 16 6 == 0 && xf i 0 8 == 0, pairs := [sa i], regs := [sb i, xf i 8 8] }
    (fun s c _ m =>
      match leadLane m with
      | none => next s i
      | some l =>
        let va := pair c l (sa i)
        if va.toNat % 4 != 0 then faultAt s i fMisaligned else
        match peerOf s c.saggar (reg c l (xf i 8 8)) with
        | none => faultAt s i fTranslation
        | some (g, gid, q) =>
          let (id, s) := s.fresh
          let tag := id % 2 ^ 24
          let o : OpenSig := { wheel := i.wheel, saggar := c.saggar, guild := gid, rank := q, va, op := xf i 22 2, v := reg c l (sb i)
                               layer := c.layer, oper := c.operator }
          let s := tallyCrew { s with link := { s.link with sigs := Tab.ins s.link.sigs tag o } } i.wheel c 0x101
          next (sendRank_ s g q { dest := 0, src := 0, kind := 1, tclass := streamCls s c.stream, addr := va, tag, guild := gid
                                  v := o.v, op := o.op }) i) s

/-- RPUT: device memory to a peer (R374, R375); it is performed by the copy engine. -/
def execRput (i : Issue) (s : State) : Out :=
  let r := xf i 8 8
  issueStall i { legal := i.da == 0 && xf i 22 2 != 3 && xf i 16 4 == 0 && xf i 0 4 == 0, pairs := [sa i, sb i, r]
                 regs := [r, r + 1, r + 2, r + 3, r + 4] }
    (fun s c _ m => m == 0 || copyRoom s i c) (fun s c x m =>
      match leadLane m with
      | none => next s i
      | some l =>
        let len := (reg c l (r + 1)).toNat
        let att := i.x.getLsbD 21
        let wa := pair c l (r + 2)
        if (pair c l (sa i)).toNat % 4 != 0 || (pair c l (sb i)).toNat % 4 != 0 || (att && wa.toNat % 4 != 0) then faultAt s i fMisaligned else
        match peerOf s c.saggar (reg c l r) with
        | none => faultAt s i fTranslation
        | some (_, gid, q) =>
          if len = 0 || 2 ^ 28 < len then faultAt s i fCopy else
          let attach := if att then some (xf i 22 2, wa, reg c l (r + 4)) else none
          let kind := CopyKind.rput gid q (pair c l (sa i)) (pair c l (sb i)) len attach
          if i.x.getLsbD 20 then
            let (id, s) := issueRelease s i.wheel i.slot c.uid
            settleAll (next (pushCopy s i c x.pc (xf i 4 4) 0 kind len (some id)) i) i.wheel
          else next (pushCopy s i c x.pc (xf i 4 4) 0 kind len) i) s

/-! ### At the peer -/

/-- A REMOTE_DENIED record (R394): kind 0 bare signal, 1 put data, 2 attached signal. -/
def deniedRecord (s : State) (n k gid rank : Nat) (va : DWord) (sender : Bool) (kind : Nat) : State :=
  portRecord s n 0x81 (payload [(gid, 112), (rank, 96), (va.toNat % 2 ^ 57, 7), (if sender then 1 else 0, 2), (kind, 0)]) k

/-- The word of a remote signal may be written: its address, or none (R372, R377; 05 R198; 11 R401). -/
def remoteWord (s : State) (k : Nat) (va : DWord) : Option Nat :=
  match translate s k va with
  | none => none
  | some (pa, m) => if (s.saggar k).st == .on && m.write && !poisoned s pa && !heldRange s k va.toNat 4 && va.toNat % 4 == 0 then some pa else none

/-- Every sector of a remote write may be written (R372, R377; 05 R198; 11 R401). -/
def remoteOk (s : State) (k : Nat) (va : DWord) (n : Nat) : Bool :=
  (s.saggar k).st == .on && rangeMapped s k true va.toNat n && !heldRange s k va.toNat n

/-- Perform a remote write, sector by sector, as engine writes the peer has already checked. -/
def remoteWrite (s : State) (k n : Nat) (va : DWord) (bs : List Byte) : Option AccErr × State :=
  let s := watchAccess (hubXlat s k va) 6 k 0xFFFFF (768 + n) va bs.length
  engWriteN s { saggar := k, source := 768 + n, own := true, waits := false } va bs (sectors bs.length)

/-- The tag's key: its source and number (13 R461). -/
def tagKey (p : Packet) : Nat := p.src * 2 ^ 24 + p.tag

/-- An acknowledgement leaves for the sender; OP 3 tells of a denial (log entry 15). -/
def ackBack (s : State) (n : Nat) (p : Packet) (denied : Bool) : State :=
  sendBack s n p { dest := 0, src := 0, kind := 3, tclass := p.tclass, op := if denied then 3 else 0, count := p.kind }

def dropInbound (s : State) (id : Nat) : State := { s with link := { s.link with inbound := Tab.del s.link.inbound id } }
def setTag (s : State) (k : Nat) (t : OpenTag) : State := { s with link := { s.link with tags := Tab.ins s.link.tags k t } }
def dropTag (s : State) (k : Nat) : State := { s with link := { s.link with tags := Tab.del s.link.tags k } }

/-- A put packet is performed; an attached signal waits for its packets and is applied after the last, as a release (R353,
R375, 13 R461). -/
def execRemoteWrite (id : Nat) (s : State) : Out :=
  act true (fun s =>
    match Tab.find s.link.inbound id with
    | none => s
    | some (n, p) =>
      if !memRuns s then s else
      let key := tagKey p
      let t := Tab.get {} s.link.tags key
      if !settled s p.saggar p.addr (max 4 p.data.length) then s
      else if p.kind = 0 then
        if !Tab.has s.link.tags key && decide (16384 ≤ s.link.tags.length) then s else
        let s := dropInbound s id
        let (err, s) := if remoteOk s p.saggar p.addr p.data.length then
            (match remoteWrite s p.saggar n p.addr p.data with
             | (some _, s) => (true, s)
             | (none, s) => (false, s))
          else (true, s)
        let s := if err then deniedRecord s n p.saggar p.guild p.rank p.addr false 1 else s
        let t := { t with done := t.done + 1, denied := t.denied || err }
        if p.count != 0 && decide (p.count ≤ t.done) then ackBack (dropTag s key) n p t.denied else setTag s key t
      else if p.kind = 2 then
        if t.done < p.count then s else
        let s := dropTag (dropInbound s id) key
        if t.denied then ackBack s n p true
        else
          match remoteWord s p.saggar p.addr with
          | none => ackBack (deniedRecord s n p.saggar p.guild p.rank p.addr false 2) n p true
          | some pa =>
            let s := watchAccess (hubXlat s p.saggar p.addr) 6 p.saggar 0xFFFFF (768 + n) p.addr 4
            ackBack (applySignal s pa p.op p.v) n p false
      else s) s

/-- A bare signal from another module is applied once, or denied (R373, R377). -/
def execRemoteSignal (id : Nat) (s : State) : Out :=
  act true (fun s =>
    match Tab.find s.link.inbound id with
    | none => s
    | some (n, p) =>
      if !memRuns s || p.kind != 1 || !settled s p.saggar p.addr 4 then s else
      let s := dropInbound s id
      match remoteWord s p.saggar p.addr with
      | none => ackBack (deniedRecord s n p.saggar p.guild p.rank p.addr false 0) n p true
      | some pa =>
        let s := watchAccess (hubXlat s p.saggar p.addr) 6 p.saggar 0xFFFFF (768 + n) p.addr 4
        ackBack (applySignal s pa p.op p.v) n p false) s

/-- The peer's acknowledgement returns: the put completes or its crew faults; a denied bare signal is recorded (R376,
R377); an acknowledgement of a securing packet ends its transfer (17 R574). -/
def execPutAck (id : Nat) (s : State) : Out :=
  act true (fun s =>
    match Tab.find s.link.inbound id with
    | none => s
    | some (_, p) =>
      if p.kind != 3 then s else
      match copyOfTag s p.tag with
      | some (w, e) =>
        if p.op = 3 then failCopy (dropInbound s id) w e fCopy
        else if counterBusy (s.wheel w) e then s
        else endCopy (dropInbound s id) w e
      | none =>
        let s := dropInbound s id
        match Tab.find s.link.sigs p.tag with
        | none => secAcked s p.tag (p.op == 3)
        | some o =>
          let s := { s with link := { s.link with sigs := Tab.del s.link.sigs p.tag } }
          if p.op = 3 then
            portRecord s o.port 0x81 (payload [(o.guild, 112), (o.rank, 96), (o.va.toNat % 2 ^ 57, 7), (1, 2)]) o.saggar o.layer o.oper
          else s) s

end Sys2Proof.Machine
end

