-- ==== Sys2Proof/Machine/Guilds.lean ====
section
/-!
DEFINITION. Guilds and the collective engine (13 R480 to R488; 07 R260, R264 to R272). Forms of its packets: log entry 16.
-/
namespace Sys2Proof.Machine

def State.guild? (s : State) (gid : Nat) : Option Guild := Tab.find s.link.guilds gid
def State.setGuild (s : State) (gid : Nat) (g : Guild) : State := { s with link := { s.link with guilds := Tab.ins s.link.guilds gid g } }
def State.modJob (s : State) (id : Nat) (f : GJob → GJob) : State := { s with link := { s.link with jobs := Tab.modify s.link.jobs id f } }
def State.dropJob (s : State) (id : Nat) : State := { s with link := { s.link with jobs := Tab.del s.link.jobs id } }

/-! ### Binding (R480, R481) -/

/-- Bytes of a saggar's memory; an unmapped byte reads zero. -/
def readVa (s : State) (k va n : Nat) : List Byte :=
  (List.range n).map fun i => match translate s k (BitVec.ofNat 64 (va + i)) with
    | none => 0
    | some (pa, _) => memByte s pa

/-- A member entry whose reserved bits, or whose address without FAMILY, are nonzero. -/
def memberBad (e : DWord) : Bool := bits e.toNat 32 3 != 0 || (!e.getLsbD 35 && bits e.toNat 0 32 != 0)

/-- Bind the guild of a GUILD_BIND body: a status. -/
def bindGuild (s : State) (b : List Byte) : Nat × State :=
  let k := bf b 16 0 12
  let gid := bf b 18 0 16
  let rank := bf b 20 0 32
  let n := bf b 24 0 32
  let va := bf b 32 0 64
  if (s.guild? gid).isSome then (stBusy, s)
  else if n < 2 || 65536 < n || n ≤ rank then (stInvalid, s)
  else if !rangeMapped s k false va (8 * n) then (stUnmapped, s)
  else
    let l := readVa s k va (8 * n)
    let ms := (List.range n).map fun i => (BitVec.ofNat 64 (leNat ((l.drop (8 * i)).take 8)) : DWord)
    if ms.any memberBad || bits (ms.getD rank 0).toNat 48 16 != s.link.fabricId then (stInvalid, s)
    else if 1024 ≤ s.link.guilds.length then (stNoSpace, s)
    else (stOk, s.setGuild gid { saggar := k, rank, n, members := ms })

/-- GUILD_BIND: a DRAINING guild latches the bind. -/
def execGuildBind (fn req : Nat) (s : State) : Out :=
  mbxRun { code := 0x30, sag := true, used := [fld 18 0 16, fld 20 0 32, fld 24 0 32, fld 32 0 64] } noData (fun s fn r =>
    let gid := rf r 18 0 16
    match s.guild? gid with
    | some g =>
      if g.st = 2 then (none, s.setGuild gid { g with st := 3, latched := some (fn, r.n, r.body) }) else now stBusy s
    | none =>
      let (st, s) := bindGuild s r.body
      now st s) fn req s

/-- GUILD_UNBIND: the drain ends every begun command of the guild. -/
def execGuildUnbind (fn req : Nat) (s : State) : Out :=
  mbxRun { code := 0x31, sag := true, used := [fld 18 0 16] } noData (fun s fn r =>
    let gid := rf r 18 0 16
    match s.guild? gid with
    | none => now stInvalid s
    | some g =>
      if g.saggar != reqSag r then now stInvalid s
      else
        let s := s.setGuild gid { g with st := 2, waiters := g.waiters ++ [(fn, r.n)], latched := none }
        (none, match g.latched with
          | some (f, n, _) => completeFree s f n
          | none => s)) fn req s

/-- GUILD_DRAIN_END: no begun command of the guild remains; a latched bind takes effect. -/
def execGuildDrainEnd (guild : Nat) (s : State) : Out :=
  act (decide (guild < 65536)) (whenD (memRuns s) fun s =>
    match s.guild? guild with
    | none => s
    | some g =>
      if g.st = 1 || (s.link.jobs.any fun (e : Nat × GJob) => e.2.guild == guild) then s
      else
        let s := { s with link := { s.link with guilds := Tab.del s.link.guilds guild } }
        let s := g.waiters.foldl (fun s w => complete s w.1 w.2 stOk) s
        match g.latched with
        | none => s
        | some (fn, n, b) =>
          let (st, s) := bindGuild s b
          complete s fn n st) s

/-! ### The command (R487) -/

/-- The fields of a GUILD command. -/
structure GCmd where
  op : Nat
  fmt : Nat
  outFmt : Nat
  weight : Option Nat
  gid : Nat
  cols : Nat
  rows : Nat
  src : DWord
  dst : DWord
  sig : DWord
  sstride : Nat
  dstride : Nat

def gcmd (c : List Byte) : GCmd :=
  let two := cf c 16 20 1 == 1
  { op := cf c 16 28 4, fmt := cf c 16 25 3, outFmt := cf c 16 22 3, weight := if cf c 16 21 1 = 1 then some (cf c 48 0 16) else none
    gid := cf c 16 0 16, cols := cf c 20 0 32 + 1, rows := if two then cf c 80 0 32 else 1, src := cAddr c 24, dst := cAddr c 32
    sig := cAddr c 40, sstride := if two then cf c 64 0 64 else 0, dstride := if two then cf c 72 0 64 else 0 }

/-- ALL_REDUCE or REDUCE_SCATTER. -/
def reduces (op : Nat) : Bool := op < 2

/-! Fields of a weight's entry (R258). -/
def wEf (e : List Byte) : DWord := BitVec.ofNat 64 (leNat ((e.drop 8).take 8))
def wPartial (e : List Byte) : DWord := BitVec.ofNat 64 (leNat ((e.drop 16).take 8))
def wElems (e : List Byte) : Nat := leNat ((e.drop 24).take 4)
def wComp (e : List Byte) : Nat := bits (e.getD 35 0).toNat 6 2
def wKcode (e : List Byte) : Nat := bits (e.getD 35 0).toNat 0 5
def wSlots (e : List Byte) : Nat := leNat ((e.drop 36).take 2)

/-- First element or byte of chunk `q` (R484): counted in blocks of 4,096 when foreign blocks are compressed. -/
def partLo (total n comp q : Nat) : Nat :=
  if comp = 0 then chunkLo total n q else min total (4096 * chunkLo ((total + 4095) / 4096) n q)

def partLen (total n comp q : Nat) : Nat := partLo total n comp (q + 1) - partLo total n comp q

/-- Bytes a member contributes from its source buffer, and bytes of its result. -/
def srcLen (g : Guild) (m : GCmd) : Nat :=
  let t := m.cols * m.rows
  if reduces m.op then t * fmtBytes m.fmt else if m.op = 2 then partLen t g.n 0 g.rank else t

def resLen (op total n rank comp outFmt : Nat) : Nat :=
  if op = 0 then total * fmtBytes outFmt else if op = 1 then partLen total n comp rank * fmtBytes outFmt else total

/-- Bytes of one row of a buffer. -/
def rowLen (m : GCmd) (elem : Nat) : Nat := m.cols * elem

/-- The rows of a buffer of `len` bytes: address and bytes of each. -/
def rowsIn (base : DWord) (stride row len : Nat) : List (DWord × Nat) :=
  if row = 0 then [] else
  (List.range ((len + row - 1) / row)).map fun i => (base + BitVec.ofNat 64 (i * stride), min row (len - i * row))

/-- Every row is mapped. -/
def rowsMapped (s : State) (k : Nat) (write : Bool) (l : List (DWord × Nat)) : Bool := l.all fun e => rangeMapped s k write e.1.toNat e.2

/-- What makes a GUILD command LAUNCH_INVALID at its beginning (R260, R487). -/
def guildBad (s : State) (x : Stream) (c : List Byte) : Option Nat :=
  let k := x.saggar
  let m := gcmd c
  match s.guild? m.gid with
  | none => some fLaunch
  | some g =>
    let red := reduces m.op
    let e := match m.weight with
      | some w => weightEntry s k w
      | none => []
    let w := red && m.weight.isSome
    let isz := if red then fmtBytes m.fmt else 1
    let osz := if red then fmtBytes m.outFmt else 1
    let t := m.cols * m.rows
    if g.saggar != k || g.st != 1 || 3 < m.op || t = 0 then some fLaunch
    else if red && (m.fmt < 4 || 6 < m.fmt || !(m.outFmt == 4 || m.outFmt == 6)) then some fLaunch
    else if !red && m.cols % 32 != 0 then some fLaunch
    else if (match m.weight with
        | some w => weightBad s k w
        | none => false) then some fLaunch
    else if !(w && wSlots e != 0) && !rowsMapped s k false (rowsIn m.src m.sstride (rowLen m isz) (srcLen g m)) then some fLaunch
    else if w && (!rangeMapped s k true (wPartial e).toNat (4 * wElems e * wSlots e) ||
        (wEf e != 0 && !rangeMapped s k true (wEf e).toNat (4 * t))) then some fLaunch
    else if !rowsMapped s k true (rowsIn m.dst m.dstride (rowLen m osz)
        (resLen m.op t g.n g.rank (if w then wComp e else 0) m.outFmt)) then some fLaunch
    else if m.sig != 0 && !wordOk s k m.sig then some fLaunch
    else none

/-- A buffer the command reads or writes as it begins is in transfer (08 R323, R325). -/
def guildWait (s : State) (x : Stream) (c : List Byte) : Bool :=
  let k := x.saggar
  let m := gcmd c
  match s.guild? m.gid with
  | none => false
  | some g =>
    let e := match m.weight with
      | some w => weightEntry s k w
      | none => []
    let w := reduces m.op && m.weight.isSome
    !((rowsIn m.src m.sstride (rowLen m (if reduces m.op then fmtBytes m.fmt else 1)) (srcLen g m)).all fun r => settled s k r.1 r.2) ||
    (w && !(settled s k (wPartial e) (4 * wElems e * wSlots e) && (wEf e == 0 || settled s k (wEf e) (4 * m.cols * m.rows))))

/-! ### This member's contribution (R265 to R271) -/

/-- Bytes of a row at `va` that unit `u` of 64 KiB takes, the row's first byte being byte `o` of the data: from and to, whole sectors
but at the row's ends. -/
def unitSpan (va : DWord) (o n u : Nat) : Nat × Nat :=
  let cut := fun (k : Nat) =>
    let e := 65536 * k - o
    if k = 0 ∨ 65536 * k ≤ o then 0 else if n ≤ e then n else e - (va.toNat + e) % 32
  (cut u, cut (u + 1))

/-- Rows in the units of 64 KiB that the engine deals to its channels: the unit, the address and the bytes of each piece; `o` bytes stand
before (R483). -/
def unitRows (o : Nat) : List (DWord × Nat) → List (Nat × DWord × Nat)
  | [] => []
  | (va, n) :: l =>
    ((List.range (((o + n + 65535) / 65536) - o / 65536)).map fun i =>
      let u := o / 65536 + i
      let p := unitSpan va o n u
      (u, va + BitVec.ofNat 64 p.1, p.2 - p.1)) ++ unitRows (o + n) l

/-- Read pieces of units, each by its channel. -/
def readPieces (s : State) (a : Who) : List (Nat × DWord × Nat) → (Except AccErr (List Byte)) × State
  | [] => (.ok [], s)
  | (u, va, n) :: l =>
    match engReadN s { a with source := collSource u } va n (sectors n) with
    | (.error e, s) => (.error e, s)
    | (.ok b, s) =>
      match readPieces s a l with
      | (.error e, s) => (.error e, s)
      | (.ok r, s) => (.ok (b ++ r), s)

/-- Write pieces of units, each by its channel. -/
def writePieces (s : State) (a : Who) (bs : List Byte) : List (Nat × DWord × Nat) → Option AccErr × State
  | [] => (none, s)
  | (u, va, n) :: l =>
    match engWriteN s { a with source := collSource u } va (bs.take n) (sectors n) with
    | (some e, s) => (some e, s)
    | (none, s) => writePieces s a (bs.drop n) l

/-- Read rows, one after another. -/
def readRows (s : State) (a : Who) (l : List (DWord × Nat)) : (Except AccErr (List Byte)) × State := readPieces s a (unitRows 0 l)

/-- Write rows, one after another. -/
def writeRows (s : State) (a : Who) (bs : List Byte) (l : List (DWord × Nat)) : Option AccErr × State :=
  writePieces s a bs (unitRows 0 l)

/-- The gradient of a weight: its slots summed in a tree, or the source buffer. -/
def gradient (s : State) (a : Who) (m : GCmd) (e : List Byte) : (Except AccErr (List Word)) × State :=
  let t := m.cols * m.rows
  if wSlots e = 0 then
    match readRows s a (rowsIn m.src m.sstride (rowLen m (fmtBytes m.fmt)) (t * fmtBytes m.fmt)) with
    | (.error x, s) => (.error x, s)
    | (.ok b, s) => (.ok (widenAll m.fmt t b), s)
  else
    let slot := fun (u : Nat) => (wPartial e + BitVec.ofNat 64 (4 * wElems e * u), 4 * t)
    match readRows s a ((List.range (wSlots e)).map slot) with
    | (.error x, s) => (.error x, s)
    | (.ok b, s) =>
      (.ok ((List.range t).map fun i => sumTree ((List.range (wSlots e)).map fun u =>
        (BitVec.ofNat 32 (leNat ((b.drop (4 * t * u + 4 * i)).take 4)) : Word))), s)

/-- The blocks of 4,096 elements of a list. -/
def blocksOf (l : List Word) : List (List Word) := (List.range ((l.length + 4095) / 4096)).map fun b => (l.drop (4096 * b)).take 4096

/-- A COMPRESS_NONFINITE record for each block sent that holds an Inf or a NaN (R271). -/
def nonfiniteRecords (s : State) (k gid wid layer oper first : Nat) (l : List (List Word)) : State :=
  ((List.range l.length).zip l).foldl (fun s e =>
    let n := (e.2.filter nonFinite).length
    if n = 0 then s else
    record s 0x60 520 k (payload [(wid, 112), (gid, 96), ((s.saggar k).step.toNat, 64), (first + e.1, 32), (n, 0)]) [k] false layer oper) s

/-- The member's data for every rank, with the error feedback written and the slots zeroed. -/
def formOuts (s : State) (a : Who) (gid : Nat) (g : Guild) (m : GCmd) (layer oper : Nat) : (Except AccErr (Tab (List Byte))) × State :=
  let t := m.cols * m.rows
  let cut := fun (b : List Byte) (comp elem : Nat) =>
    (List.range g.n).map fun q => (q, (b.drop (partLo t g.n comp q * elem)).take (partLen t g.n comp q * elem))
  if !reduces m.op || m.weight.isNone then
    let elem := if reduces m.op then fmtBytes m.fmt else 1
    match readRows s a (rowsIn m.src m.sstride (rowLen m elem) (srcLen g m)) with
    | (.error x, s) => (.error x, s)
    | (.ok b, s) => (.ok (if reduces m.op then cut b 0 elem else (List.range g.n).map fun q => (q, b)), s)
  else
    let wid := m.weight.getD 0
    let e := weightEntry s a.saggar wid
    let s := latchWeight s a.saggar wid
    let comp := wComp e
    let kc := wKcode e
    match gradient s a m e with
    | (.error x, s) => (.error x, s)
    | (.ok gr, s) =>
      match (if wEf e = 0 then (Except.ok [], s) else readRows s a [(wEf e, 4 * t)]) with
      | (.error x, s) => (.error x, s)
      | (.ok eb, s) =>
        let ef := wordsOf t eb
        let v := if wEf e = 0 then gr else (gr.zip ef).map fun (x : Word × Word) => fadd x.1 x.2
        let part := fun (q : Nat) => (v.drop (partLo t g.n comp q)).take (partLen t g.n comp q)
        let foreign := fun (q : Nat) => comp != 0 && q != g.rank
        let outs := (List.range g.n).map fun q =>
          (q, if foreign q then (blocksOf (part q)).flatMap (blockRecord comp kc) else wordBytes (part q))
        let s := (List.range g.n).foldl (fun s q => if foreign q then
          nonfiniteRecords s a.saggar gid wid layer oper (partLo t g.n comp q / 4096) (blocksOf (part q)) else s) s
        let ne := (List.range g.n).flatMap fun q =>
          if foreign q then (blocksOf (part q)).flatMap (feedback comp kc) else (part q).map fun _ => (0 : Word)
        match (if wEf e = 0 then (none, s) else writeRows s a (wordBytes ne) [(wEf e, 4 * t)]) with
        | (some x, s) => (.error x, s)
        | (none, s) =>
          let slots := (List.range (wSlots e)).map fun u => (wPartial e + BitVec.ofNat 64 (4 * wElems e * u), 4 * t)
          match writeRows s a (List.replicate (4 * t * wSlots e) 0) slots with
          | (some x, s) => (.error x, s)
          | (none, s) => (.ok outs, s)

/-! ### Exchanging data (R482, R484, R485) -/

/-- Insert bytes at an offset, zero bytes included. -/
def insBytes (t : Tab Byte) (at_ : Nat) : List Byte → Tab Byte
  | [] => t
  | b :: l => insBytes (Tab.ins t at_ b) (at_ + 1) l

/-- Bytes of a byte table from offset 0 on. -/
def tabBytes (t : Tab Byte) (n : Nat) : List Byte := (List.range n).map fun i => Tab.get 0 t i

/-- Send data of a command to a rank: `op` 0 contribution, 1 result; `at_` its first offset. -/
def sendData (s : State) (gid : Nat) (g : Guild) (q : Nat) (j : GJob) (op at_ : Nat) (l : List Byte) : State :=
  (partsOf l).foldl (fun s p =>
    sendRank_ s g q { dest := 0, src := 0, kind := 4, tclass := streamCls s j.stream, length := (p.2.length + 31) / 32
                      addr := BitVec.ofNat 64 (at_ + p.1), guild := gid, v := j.seq, op, data := p.2 }) s

/-- Other ranks this member sends its contribution to. -/
def sendsTo (g : Guild) (op q : Nat) : Bool := q != g.rank && (op != 3 || q == (g.rank + 1) % g.n)

/-- Send rank `q` what is due to it: it is ready and has not been sent it. -/
def pushRank (s : State) (id q : Nat) : State :=
  match Tab.find s.link.jobs id with
  | none => s
  | some j =>
    match s.guild? j.guild with
    | none => s
    | some g =>
      if j.stalled || rankLost s g q || !g.heard.contains (j.seq, q, j.check) then s else
      let s := if sendsTo g j.op q && !j.sentTo.contains q then
          sendData (s.modJob id fun j => { j with sentTo := q :: j.sentTo }) j.guild g q j 0 0 (Tab.get [] j.outs q)
        else s
      match Tab.find s.link.jobs id with
      | none => s
      | some j =>
        if j.op = 0 && j.reduced && !j.stalled && q != g.rank && !j.sentTo.contains (q + 65536) then
          let lo := partLo (j.cols * j.rows) g.n j.comp g.rank * fmtBytes j.outFmt
          let n := partLen (j.cols * j.rows) g.n j.comp g.rank * fmtBytes j.outFmt
          sendData (s.modJob id fun j => { j with sentTo := (q + 65536) :: j.sentTo }) j.guild g q j 1 lo
            ((List.range n).map fun i => Tab.get 0 j.result (lo + i))
        else s

def pushJob (s : State) (id : Nat) : State :=
  match Tab.find s.link.jobs id with
  | none => s
  | some j =>
    match s.guild? j.guild with
    | none => s
    | some g => (List.range g.n).foldl (fun s q => pushRank s id q) s

/-- Bytes a rank contributes to this member's chunk. -/
def contribLen (g : Guild) (j : GJob) : Nat :=
  let n := partLen (j.cols * j.rows) g.n j.comp g.rank
  if !j.weighted then n * fmtBytes j.fmt else if j.comp = 0 then 4 * n else (n + 4095) / 4096 * recordLen j.comp j.kcode

/-- A rank's contribution as FP32 words. -/
def contribution (g : Guild) (j : GJob) (q : Nat) : List Word :=
  let n := partLen (j.cols * j.rows) g.n j.comp g.rank
  let b := if q = g.rank then Tab.get [] j.outs q else tabBytes (Tab.get [] j.parts q) (contribLen g j)
  if !j.weighted then widenAll j.fmt n b
  else if j.comp = 0 || q = g.rank then wordsOf n b
  else decodeBlocks j.comp j.kcode n b

/-- Reduce the owned chunk once every rank's contribution is here; ALL_REDUCE then sends it (R485). -/
def tryReduce (s : State) (id : Nat) : State :=
  match Tab.find s.link.jobs id with
  | none => s
  | some j =>
    match s.guild? j.guild with
    | none => s
    | some g =>
      if !reduces j.op || j.reduced ||
         (List.range g.n).any (fun q => q != g.rank && (Tab.get [] j.parts q).length != contribLen g j) then s
      else
        let n := partLen (j.cols * j.rows) g.n j.comp g.rank
        let r := (sumMembers n ((List.range g.n).map (contribution g j))).flatMap (outElem j.outFmt)
        let at_ := if j.op = 0 then partLo (j.cols * j.rows) g.n j.comp g.rank * fmtBytes j.outFmt else 0
        pushJob (s.modJob id fun j => { j with reduced := true, parts := [], result := insBytes j.result at_ r }) id

/-- Take data of a command from rank `q`. -/
def ingest (s : State) (id : Nat) (g : Guild) (q op at_ : Nat) (l : List Byte) : State :=
  let s := s.modJob id fun j =>
    if op = 1 then { j with result := insBytes j.result at_ l }
    else if reduces j.op then (if j.reduced then j else { j with parts := Tab.ins j.parts q (insBytes (Tab.get [] j.parts q) at_ l) })
    else if j.op = 2 then { j with result := insBytes j.result (partLo (j.cols * j.rows) g.n 0 q + at_) l }
    else if q = (g.rank + g.n - 1) % g.n then { j with result := insBytes j.result at_ l }
    else j
  tryReduce s id

/-- A command ends on a check that differs (R482): no result, its stream faults, GUILD_MISMATCH. -/
def mismatch (s : State) (id : Nat) (j : GJob) (q check : Nat) : State :=
  let s := record s 0x87 520 j.saggar (payload [(j.guild, 112), (j.seq.toNat, 80), (q, 64), (check % 65536, 48), (j.check, 32)]) [j.saggar] false
    j.layer j.oper
  frontFault (s.dropJob id) j.stream fLaunch j.layer j.oper

/-- A READY (or, 65,536 higher, an ABORT) check of rank `q` meets the command. -/
def meetCheck (s : State) (id : Nat) (g : Guild) (q check : Nat) : State :=
  match Tab.find s.link.jobs id with
  | none => s
  | some j =>
    if check = j.check then pushRank s id q
    else if 65536 ≤ check then mismatch s id j q check
    else mismatch (sendAll s j.guild g 1 j.seq j.check 0) id j q check

/-- GUILD: the command takes its number, forms its contribution and announces itself (R482, R487). -/
def execGuild (stream : Nat) (s : State) : Out :=
  runCmd 11 stream guildWait guildBad (fun s n pos c =>
    let x := s.stream n
    let m := gcmd c
    match s.guild? m.gid with
    | none => s
    | some g =>
      match formOuts s { saggar := x.saggar, stream := n, source := 520 } m.gid g m (cmdLayer c) (cmdOper c) with
      | (.error e, s) => frontFault s n (engCode e) (cmdLayer c) (cmdOper c)
      | (.ok outs, s) =>
        let w := reduces m.op && m.weight.isSome
        let e := weightEntry s x.saggar (m.weight.getD 0)
        let comp := if w then wComp e else 0
        let kc := if w && comp = 1 then wKcode e else 0
        let t := m.cols * m.rows
        let check := Config.guildCheck m.op (if reduces m.op then m.fmt else 0) (if reduces m.op then m.outFmt else 0) t comp kc % 65536
        let (id, s) := s.fresh
        let j : GJob := {
          guild := m.gid, seq := g.seq, stream := n, pos := pos, saggar := x.saggar, layer := cmdLayer c, oper := cmdOper c, op := m.op
          fmt := m.fmt, outFmt := m.outFmt, cols := m.cols, rows := m.rows, dst := m.dst, dstride := m.dstride, sig := m.sig
          weighted := w, comp := comp, kcode := kc, check := check, outs := outs
          result := if m.op = 2 then insBytes [] (partLo t g.n 0 g.rank) (Tab.get [] outs g.rank) else [] }
        let early := g.early.filter fun p => p.v == g.seq
        let s := s.setGuild m.gid { g with seq := g.seq + 1, early := g.early.filter fun p => p.v != g.seq }
        let s := { s with link := { s.link with jobs := Tab.ins s.link.jobs id j } }
        let s := sendAll s m.gid g 0 j.seq check 0
        let s := (g.heard.filter fun h => h.1 == j.seq).foldl (fun s h => meetCheck s id g h.2.1 h.2.2) s
        early.foldl (fun s p => ingest s id g (rankOf g p.src) p.op p.addr.toNat p.data) s) s

/-- The begun command of a guild with a number. -/
def jobOf (s : State) (gid : Nat) (v : Word) : Option Nat :=
  (s.link.jobs.find? fun (e : Nat × GJob) => e.2.guild == gid && e.2.seq == v).map Prod.fst

/-- A control packet of a guild command: READY or ABORT (R482). -/
def hearCheck (s : State) (p : Packet) : State :=
  match s.guild? p.guild with
  | none => s
  | some g =>
    let q := rankOf g p.src
    let check := p.rank % 65536 + (if p.count = 1 then 65536 else 0)
    let job := jobOf s p.guild p.v
    if job.isNone && !reached p.v g.seq then s
    else
      let heard := if g.heard.contains (p.v, q, check) then g.heard
        else (p.v, q, check) :: g.heard.filter fun h => reached h.1 (g.seq - 1024)
      let s := s.setGuild p.guild { g with heard }
      match job with
      | some id => meetCheck s id g q check
      | none => s

/-- A data packet of a guild command. -/
def hearData (s : State) (p : Packet) : State :=
  match s.guild? p.guild with
  | none => s
  | some g =>
    match jobOf s p.guild p.v with
    | some id => ingest s id g (rankOf g p.src) p.op p.addr.toNat p.data
    | none => if reached p.v g.seq then s.setGuild p.guild { g with early := g.early ++ [p] } else s

/-- A stalled command resumes once every rank can be reached again: it announces itself and sends what has not been sent (R488). -/
def resumeJob (s : State) (id : Nat) (j : GJob) (g : Guild) : State :=
  if (List.range g.n).any fun q => q != g.rank && !reachable s g q then s
  else
    let s := sendAll (s.modJob id fun j => { j with stalled := false, unsent := [] }) j.guild g 0 j.seq j.check 0
    pushJob (j.unsent.foldl (fun s e => sendRank_ s g e.1 e.2) s) id

/-- Everything the command had to send has been sent, and its result is here. -/
def jobDone (g : Guild) (j : GJob) : Bool :=
  j.result.length == resLen j.op (j.cols * j.rows) g.n g.rank j.comp j.outFmt &&
  (List.range g.n).all fun q => (!sendsTo g j.op q || j.sentTo.contains q) && (j.op != 0 || q == g.rank || j.sentTo.contains (q + 65536))

/-- GUILD_COMPLETE: the result is written at its home slices, the signal is applied, the command completes (R487). -/
def execGuildComplete (id : Nat) (s : State) : Out :=
  act true (whenD (memRuns s) fun s =>
    match Tab.find s.link.jobs id with
    | none => s
    | some j =>
      match s.guild? j.guild with
      | none => s
      | some g =>
        if (s.saggar j.saggar).st != .on || !wordSettled s j.saggar j.sig then s
        else if j.stalled then (if s.frozen then s else resumeJob s id j g)
        else if !jobDone g j then
          (match (List.range g.n).find? fun q => q != g.rank && rankLost s g q with
           | some q => stallJob s id j q none
           | none => s)
        else
          let len := resLen j.op (j.cols * j.rows) g.n g.rank j.comp j.outFmt
          let osz := if reduces j.op then fmtBytes j.outFmt else 1
          match writeRows s { saggar := j.saggar, stream := j.stream, source := 520 } (tabBytes j.result len)
              (rowsIn j.dst j.dstride (j.cols * osz) len) with
          | (some e, t) => if e = .busy then s else frontFault (t.dropJob id) j.stream (engCode e) j.layer j.oper
          | (none, s) =>
            let s := gtally (s.dropJob id) 0x00C (some j.saggar) ((len + 65535) / 65536)
            let last := collSource ((len - 1) / 65536)
            let s := if j.sig = 0 then s else
              reportWork s { saggar := j.saggar, stream := j.stream, source := last } j.sig 0 1 j.layer j.oper
            let s := match s.guild? j.guild with
              | some g => s.setGuild j.guild { g with heard := g.heard.filter fun h => h.1 != j.seq }
              | none => s
            completeCmd s j.stream j.pos last) s

/-! ### The module ID and the routes (R466, R467, R469) -/

/-- LINK_SET_ID: only while every port is OFF. -/
def execLinkSetId (fn req : Nat) (s : State) : Out :=
  mbxRun { code := 0x34, pf := true, used := [fld 16 0 16] } noData (fun s _ r =>
    if (List.range 32).any fun n => (s.port n).st != .off then now stBusy s
    else now stOk { s with link := { s.link with fabricId := rf r 16 0 16 } }) fn req s

/-- Entries in the layout of the ROUTES section (15 R529). -/
def routeEntries (n : Nat) (l : List Byte) : List (Nat × DWord × Bool) :=
  (List.range n).map fun i =>
    let e := (l.drop (16 * i)).take 16
    let r := leNat (e.drop 8)
    (leNat (e.take 2), BitVec.ofNat 64 r, bits (leNat e) 16 48 == 0 && bits r 0 36 == 0 && bits r 38 2 != 3)

/-- ROUTE_LOAD writes entries of SHADOW. -/
def execRouteLoad (fn req : Nat) (s : State) : Out :=
  mbxRun { code := 0x35, pf := true, used := [fld 16 0 32] } (fun r => 16 * rf r 16 0 16) (fun s _ r =>
    let n := rf r 16 0 32
    let l := routeEntries n (r.data.getD [])
    if n = 0 || 65535 < n || reqData r = 0 || !l.all fun e => e.2.2 then now stInvalid s
    else
      let put := fun (t : Tab DWord) => l.foldl (fun t e => Tab.ins t e.1 e.2.1) t
      now stOk { s with link := if s.link.act = 0 then { s.link with t1 := put s.link.t1 } else { s.link with t0 := put s.link.t0 } }) fn req s

/-- ROUTE_SWAP at tick T; a later one replaces it. -/
def execRouteSwap (fn req : Nat) (s : State) : Out :=
  mbxRun { code := 0x36, pf := true, used := [fld 24 0 64] } noData (fun s _ r =>
    let t := rf r 24 0 64
    if t < s.gts + 256 then now stInvalid s
    else now stOk { s with link := { s.link with swap := some t, swapGts := BitVec.ofNat 64 t } }) fn req s

end Sys2Proof.Machine
end

