-- ==== Sys2Proof/Machine/IntOps.lean ====
section
/-!
DEFINITION. Integer instructions, classes 0x00 and 0x01 (03 R124, R671).
-/
namespace Sys2Proof.Machine

/-- DA ← f(SA, SB), with the whole of X reserved. -/
def alu2 (i : Issue) (f : Word → Word → Word) (s : State) : Out :=
  issue i { legal := i.x == 0, regs := [da i, sa i, sb i] }
    (lanewise i fun c d l => setReg d l (da i) (f (reg c l (sa i)) (reg c l (sb i)))) s

/-- DA ← f(SA), with SB and X reserved. -/
def alu1 (i : Issue) (f : Word → Word) (s : State) : Out :=
  issue i { legal := i.x == 0 && i.sb == 0, regs := [da i, sa i] }
    (lanewise i fun c d l => setReg d l (da i) (f (reg c l (sa i)))) s

/-- DA ← f(SA, Imm), with SB reserved and X as `ok` allows. -/
def aluImm (i : Issue) (ok : Bool) (f : Word → Word → Word) (s : State) : Out :=
  issue i { legal := ok && i.sb == 0, regs := [da i, sa i] }
    (lanewise i fun c d l => setReg d l (da i) (f (reg c l (sa i)) (imm i))) s

def addOp (a b : Word) : Word := a + b
def subOp (a b : Word) : Word := a - b
def mulLo (a b : Word) : Word := a * b
/-- High 32 bits of the signed product. -/
def mulHi (a b : Word) : Word := ((a.signExtend 64 * b.signExtend 64) >>> 32).setWidth 32
/-- High 32 bits of the unsigned product. -/
def mulHiu (a b : Word) : Word := ((a.setWidth 64 * b.setWidth 64) >>> 32).setWidth 32
/-- Signed division toward zero; a zero divisor gives 0xFFFF_FFFF (R671). -/
def divOp (a b : Word) : Word := if b = 0 then 0xFFFFFFFF else a.sdiv b
def andOp (a b : Word) : Word := a &&& b
def orOp (a b : Word) : Word := a ||| b
def xorOp (a b : Word) : Word := a ^^^ b
def shlOp (a b : Word) : Word := a <<< (b.toNat % 32)
def shrOp (a b : Word) : Word := a >>> (b.toNat % 32)
def sarOp (a b : Word) : Word := a.sshiftRight (b.toNat % 32)
def minOp (a b : Word) : Word := if b.slt a then b else a
def maxOp (a b : Word) : Word := if a.slt b then b else a
def minuOp (a b : Word) : Word := if b.ult a then b else a
def maxuOp (a b : Word) : Word := if a.ult b then b else a
/-- Bits set. -/
def popcOp (a : Word) : Word := BitVec.ofNat 32 ((List.range 32).filter fun k => a.getLsbD k).length
/-- Zeros above the highest bit set. -/
def clzOp (a : Word) : Word := if a = 0 then 32 else BitVec.ofNat 32 (31 - Nat.log2 a.toNat)
def movOp (a : Word) : Word := a

/-- DA ← SA + SB (R124). -/
def execAdd (i : Issue) (s : State) : Out := alu2 i addOp s
/-- DA ← SA - SB (R124). -/
def execSub (i : Issue) (s : State) : Out := alu2 i subOp s
/-- Low half of the product (R124). -/
def execMulLo (i : Issue) (s : State) : Out := alu2 i mulLo s
/-- High half of the signed product (R124). -/
def execMulHi (i : Issue) (s : State) : Out := alu2 i mulHi s
/-- High half of the unsigned product (R124). -/
def execMulHiu (i : Issue) (s : State) : Out := alu2 i mulHiu s
/-- Signed division (R671). -/
def execDiv (i : Issue) (s : State) : Out := alu2 i divOp s
/-- Bitwise AND (R124). -/
def execAnd (i : Issue) (s : State) : Out := alu2 i andOp s
/-- Bitwise OR (R124). -/
def execOr (i : Issue) (s : State) : Out := alu2 i orOp s
/-- Bitwise XOR (R124). -/
def execXor (i : Issue) (s : State) : Out := alu2 i xorOp s
/-- Shift left by SB[4:0] (R124). -/
def execShl (i : Issue) (s : State) : Out := alu2 i shlOp s
/-- Logical shift right by SB[4:0] (R124). -/
def execShr (i : Issue) (s : State) : Out := alu2 i shrOp s
/-- Arithmetic shift right by SB[4:0] (R124). -/
def execSar (i : Issue) (s : State) : Out := alu2 i sarOp s
/-- Signed minimum (R124). -/
def execMin (i : Issue) (s : State) : Out := alu2 i minOp s
/-- Signed maximum (R124). -/
def execMax (i : Issue) (s : State) : Out := alu2 i maxOp s
/-- Unsigned minimum (R124). -/
def execMinu (i : Issue) (s : State) : Out := alu2 i minuOp s
/-- Unsigned maximum (R124). -/
def execMaxu (i : Issue) (s : State) : Out := alu2 i maxuOp s
/-- Population count (R124). -/
def execPopc (i : Issue) (s : State) : Out := alu1 i popcOp s
/-- Leading zeros (R124). -/
def execClz (i : Issue) (s : State) : Out := alu1 i clzOp s
/-- Copy (R124). -/
def execMov (i : Issue) (s : State) : Out := alu1 i movOp s
/-- DA ← predicate X[2:0] ? SA : SB (R124). -/
def execSel (i : Issue) (s : State) : Out :=
  issue i { legal := decide (i.x.toNat < 8), regs := [da i, sa i, sb i] }
    (lanewise i fun c d l => setReg d l (da i) (if predOf c l (xf i 0 3) then reg c l (sa i) else reg c l (sb i))) s
/-- DA ← SA + Imm (R124). -/
def execAddi (i : Issue) (s : State) : Out := aluImm i true addOp s
/-- DA ← SA AND Imm (R124). -/
def execAndi (i : Issue) (s : State) : Out := aluImm i true andOp s
/-- DA ← SA OR Imm (R124). -/
def execOri (i : Issue) (s : State) : Out := aluImm i true orOp s
/-- DA ← SA XOR Imm (R124). -/
def execXori (i : Issue) (s : State) : Out := aluImm i true xorOp s
/-- Shift left by Imm[4:0] (R124). -/
def execShli (i : Issue) (s : State) : Out := aluImm i (decide (i.x.toNat < 32)) shlOp s
/-- Logical shift right by Imm[4:0] (R124). -/
def execShri (i : Issue) (s : State) : Out := aluImm i (decide (i.x.toNat < 32)) shrOp s
/-- DA ← Imm (R124). -/
def execMovi (i : Issue) (s : State) : Out :=
  issue i { legal := i.sa == 0 && i.sb == 0, regs := [da i] } (lanewise i fun _ d l => setReg d l (da i) (imm i)) s
/-- DA[31:16] ← Imm[15:0]; DA[15:0] kept (R124). -/
def execMovhi (i : Issue) (s : State) : Out :=
  issue i { legal := i.sa == 0 && i.sb == 0 && decide (i.x.toNat < 2 ^ 16), regs := [da i] }
    (lanewise i fun c d l => setReg d l (da i) (i.x.setWidth 16 ++ (reg c l (da i)).setWidth 16)) s

end Sys2Proof.Machine
end

