-- ==== Sys2Proof/Machine/Loader.lean ====
section
/-!
DEFINITION. The loader (15 R524 to R535): the checks of a slot, the limits of every section, and the image they give.
-/
namespace Sys2Proof.Machine

/-! ### The header and the section table (R525, R526) -/

/-- First byte of a slot in the flash (R519), and bytes of a slot. -/
def slotBase (slot : Nat) : Nat := if slot = 0 then 0x100000 else 0x2000000
def slotBytes : Nat := 0x1F00000

/-- Every byte of a list is zero. -/
def zeros (l : List Byte) : Bool := l.all (· == 0)

/-- Bytes `i` to `i + n − 1` of a list. -/
def sub (l : List Byte) (i n : Nat) : List Byte := (l.drop i).take n

/-- One section table entry: TYPE, OFFSET, LENGTH, and its zero bytes are zero. -/
def sectionEntry (h : List Byte) (i : Nat) : Nat × Nat × Nat × Bool :=
  let e := sub h (128 + 16 * i) 16
  (lf e 0 2, lf e 4 4, lf e 8 4, zeros (sub e 2 2) && zeros (sub e 12 4))

/-- The length a section of a type may have. -/
def sectionLen (type len : Nat) : Bool :=
  match type with
  | 1 => len == 64
  | 2 => len == 64
  | 3 => len == 16
  | 4 => len == 64
  | 5 => len == 256
  | 6 => len % 16 == 0 && decide (16 ≤ len) && decide (len ≤ 16 * 65535)
  | 7 => len == 512
  | 8 => len == 768
  | 9 => len % 8 == 0 && decide (8 ≤ len) && decide (len ≤ 8 * 256)
  | 10 => decide (65536 ≤ len) && decide (len ≤ 25165824)
  | _ => false

/-- No pair of a list is in conflict. -/
def apart {α : Type} (bad : α → α → Bool) : List α → Bool
  | [] => true
  | a :: l => !l.any (bad a) && apart bad l

/-- The header and the section table hold (result BAD_HEADER otherwise). -/
def headerOk (h : List Byte) : Bool :=
  let size := lf h 8 4
  let n := lf h 6 2
  let es := (List.range n).map (sectionEntry h)
  lf h 0 4 == 0x4F5A5849 && lf h 4 2 == 1 && decide (2 ≤ n) && decide (n ≤ 64) &&
  size % 64 == 0 && decide (67776 ≤ size) && decide (size ≤ 32505856) &&
  zeros (sub h (128 + 16 * n) (16 * (64 - n))) &&
  es.all (fun e => e.2.2.2 && sectionLen e.1 e.2.2.1 && e.2.1 % 64 == 0 && decide (2048 ≤ e.2.1) && decide (e.2.1 + e.2.2.1 ≤ size - 96)) &&
  apart (fun (a b : Nat × Nat × Nat × Bool) => a.1 == b.1 || (decide (a.2.1 < b.2.1 + b.2.2.1) && decide (b.2.1 < a.2.1 + a.2.2.1))) es &&
  es.any (·.1 == 1) && es.any (·.1 == 10)

/-- The bytes of a section of a slot, at most its first 65,535 × 16. -/
def sectionOf (s : State) (slot type : Nat) : Option (List Byte) :=
  let h := flashBytes s (slotBase slot) 2048
  (((List.range (lf h 6 2)).map (sectionEntry h)).find? fun e => e.1 == type).map fun e =>
    flashBytes s (slotBase slot + e.2.1) (if type = 10 then 8 else e.2.2.1)

/-- A list cut into pieces of `n` bytes. -/
def pieces (n : Nat) (l : List Byte) : List (List Byte) := (List.range (l.length / n)).map fun i => sub l (n * i) n

/-- The sections the checks read; a section that is absent is its default. -/
structure Sections where
  module : List Byte
  reeve : List Byte
  time : Option (List Byte)
  links : List Byte
  eth : List (List Byte)
  routes : List Byte
  flows : List (List Byte)
  res : List (List Byte)
  groups : List (List Byte)
  hubCode : List Byte

/-- The default REEVE section (R493, R511). -/
def reeveDefault : List Byte :=
  leBytes 4 0x17700708 ++ leBytes 4 0x18020000 ++ leBytes 4 (0x20 * 2 ^ 23 + 0x3E8 * 2 ^ 8 + 3) ++ leBytes 4 0x62000000 ++
  leBytes 2 20 ++ leBytes 2 8 ++ leBytes 2 24 ++ leBytes 2 24 ++ leBytes 2 40 ++ leBytes 2 2 ++ List.replicate 36 0

/-- The default LINKS section (R528). -/
def linksDefault : List Byte :=
  leBytes 4 0 ++ leBytes 4 0x00FFFFFF ++ [5, 0, 0, 0] ++ leBytes 4 0x0C350EA6 ++ leBytes 4 0x01F402D0 ++ List.replicate 44 0

def sectionsOf (s : State) (slot : Nat) : Sections :=
  let g := fun t => sectionOf s slot t
  { module := (g 1).getD [], reeve := (g 2).getD reeveDefault, time := g 3, links := (g 4).getD linksDefault
    eth := pieces 32 ((g 5).getD []), routes := (g 6).getD [], flows := pieces 64 ((g 7).getD []), res := pieces 48 ((g 8).getD [])
    groups := pieces 8 ((g 9).getD []), hubCode := (g 10).getD [] }

/-! ### Limits of the sections (R509, R527 to R534) -/

def within (lo hi v : Nat) : Bool := decide (lo ≤ v) && decide (v ≤ hi)

/-- MODULE (R527). -/
def moduleOk (l : List Byte) : Bool :=
  let w0 := lf l 0 4
  let w2 := lf l 8 4
  bits w0 22 10 == 0 && bits w0 0 8 == 0 && within 0 47 (bits w0 16 6) && within 1 255 (bits w0 8 8) &&
  within 0 96 (lf l 4 4) &&
  bits w2 24 7 == 0 && within 256 16000000 (bits w2 0 24) &&
  within 64 1048576 (lf l 12 4) && within 4000 4000000 (lf l 16 4) && within 16 32 (lf l 20 1) &&
  (within 0 63 (lf l 21 1) || within 192 255 (lf l 21 1)) && within 1 255 (lf l 22 1) && within 0 3 (lf l 23 1) &&
  within 1 4096 (lf l 26 2) && within 2 16 (lf l 28 1) && within 1 4 (lf l 29 1) && zeros (l.drop 30)

/-- REEVE (R509, R511, R528): powers in units of 0.25 W, SLEW_W in W per µs. -/
def reeveOk (l : List Byte) : Bool :=
  let budget := bits (lf l 0 4) 16 16
  let base := bits (lf l 0 4) 0 16
  let slew := bits (lf l 4 4) 24 8
  let emit := bits (lf l 4 4) 16 8
  let dl := bits (lf l 4 4) 0 16
  let w2 := lf l 8 4
  let w3 := lf l 12 4
  let charge := fun i => lf l (16 + 2 * i) 2
  within 2400 6600 budget && decide (1680 ≤ base) && within 8 28 slew && within 1 8 emit &&
  decide (slew + 8 + 2 * emit ≤ 36) && decide (budget - base ≤ 360 * slew) &&
  decide (base + 8 * emit + dl + 28 * charge 3 + 8 * charge 4 ≤ budget) &&
  within 4 256 (bits w2 23 9) && bits w2 22 1 == 0 && within 100 10000 (bits w2 8 14) && bits w2 3 5 == 0 &&
  within 90 103 (bits w3 24 8) && bits w3 16 8 == 0 && charge 5 == emit && zeros (l.drop 28)

/-- The word of TIM_PTP_CFG: PTP_ENABLE 0, TIME_SOURCE NONE, DOMAIN 127 without the section. -/
def timeWord (t : Option (List Byte)) : Nat := (t.map fun l => lf l 0 4).getD (127 * 2 ^ 16)

def ethOf (x : Sections) (e : Nat) : List Byte := x.eth.getD e []

/-- TIME, with what PTP needs of its port (R528, R529, R534). -/
def timeOk (x : Sections) : Bool :=
  let w := timeWord x.time
  let e := ethOf x (bits w 0 3)
  bits w 24 4 == 0 && bits w 3 13 == 0 && bits w 29 2 != 3 && decide (bits w 16 8 ≤ 127) &&
  ((x.time.map fun l => zeros (l.drop 8)).getD true) &&
  (bits w 31 1 == 0 || (!zeros (sub e 0 6) && !zeros (sub e 12 4)))

/-- LINKS, with what guild traffic needs of its ports. -/
def linksOk (x : Sections) : Bool :=
  let l := x.links
  bits (lf l 0 4) 16 15 == 0 && decide (lf l 8 1 ≤ 25) && decide (lf l 9 1 ≤ 1) && lf l 11 1 == 0 && zeros (l.drop 20) &&
  (List.range 8).all fun e => bits (lf l 10 1) e 1 == 0 || (!zeros (sub (ethOf x e) 6 6) && !zeros (sub (ethOf x e) 20 2))

/-- ETHERNET: the largest frame of an entry that is not all zero. -/
def ethOk (x : Sections) : Bool :=
  x.eth.all fun e => zeros e || (within 1518 9216 (lf e 16 2) && zeros (e.drop 22))

/-- ROUTES. -/
def routesOk (x : Sections) : Bool :=
  let l := routeEntries (x.routes.length / 16) x.routes
  l.all (fun e => e.2.2) && apart (fun (a b : Nat × DWord × Bool) => a.1 == b.1) l

/-- Ticks of a frame period of a rate, rounded down. -/
def floorP (r : Nat × Nat) : Nat := tickRate * r.2 / r.1

def present32 (e : List Byte) : Bool := bits (lf e 0 4) 31 1 == 1

/-- One FLOWS entry (12 R431; R530, R534). -/
def flowOk (x : Sections) (e : List Byte) : Bool :=
  if !present32 e then zeros e else
  let w := lf e 0 4
  let port := bits w 16 3
  let r := rateOf (bits w 24 4)
  let guard := lf e 8 4
  let off := lf e 4 4
  bits w 28 3 == 0 && bits w 20 2 == 0 && bits w 0 16 == 0 && decide (bits w 24 4 ≤ 12) && decide (bits w 22 2 ≤ 2) &&
  (bits w 22 2 != 2 || decide (bits w 24 4 ≤ 9)) &&
  within 40000 4000000 guard && decide (guard ≤ off) && decide (off * r.1 ≤ 2 * tickRate * r.2) &&
  bits (lf e 18 2) 15 1 == 0 && within 224 239 (lf e 20 1) && decide (1 ≤ lf e 32 1) && decide (lf e 33 1 ≤ 63) && within 96 127 (lf e 34 1) &&
  lf e 35 1 == 0 && zeros (e.drop 40) &&
  bits (lf x.links 4 4) (24 + port) 1 == 1 && !zeros (sub (ethOf x port) 0 6)

/-- The window of a reservation, its flow and its wheels. -/
def resWords (e : List Byte) : Nat × Nat × Nat × BitVec 192 :=
  (lf e 4 4, lf e 8 4, bits (lf e 0 4) 27 3, BitVec.ofNat 192 (lf e 12 24))

/-- One RESERVATIONS entry (12 R440; R531). -/
def resOk (x : Sections) (e : List Byte) : Bool :=
  if !present32 e then zeros e else
  let (a, b, f, m) := resWords e
  let r := rateOf (bits (lf (x.flows.getD f []) 0 4) 24 4)
  bits (lf e 0 4) 0 27 == 0 && decide (a < b) && decide (b ≤ a + floorP r) && m != 0 && zeros (e.drop 36)

/-- Two reservations that may not stand together: they share a wheel, and name different flows or overlap. -/
def resClash (a b : List Byte) : Bool :=
  let (sa, ea, fa, ma) := resWords a
  let (sb, eb, fb, mb) := resWords b
  present32 a && present32 b && (ma &&& mb) != 0 && (fa != fb || (decide (sa < eb) && decide (sb < ea)))

/-- One LAYER_GROUPS entry (R532). -/
def groupOk (e : List Byte) : Bool :=
  let w := lf e 4 4
  bits (lf e 0 4) 20 12 == 0 && bits w 21 9 == 0 && bits w 30 2 != 3 && decide (lf e 0 4 < bits w 0 21) && decide (bits w 0 21 ≤ 1048576)

def groupClash (a b : List Byte) : Bool := decide (lf a 0 4 < bits (lf b 4 4) 0 21) && decide (lf b 0 4 < bits (lf a 4 4) 0 21)

/-- Reserved bits and bytes of the header. -/
def headerReserved (h : List Byte) : Bool :=
  decide (lf h 12 4 ≤ 64) && decide (lf h 24 1 ≤ 7) && decide (lf h 25 1 ≤ 3) && decide (lf h 26 1 ≤ 1) && zeros (sub h 27 5) && zeros (sub h 1152 896)

/-- Every limit holds (result LIMIT otherwise). -/
def limitsOk (h : List Byte) (x : Sections) : Bool :=
  headerReserved h && moduleOk x.module && reeveOk x.reeve && timeOk x && linksOk x && ethOk x && routesOk x &&
  x.flows.all (flowOk x) && x.res.all (resOk x) && apart resClash x.res && x.groups.all groupOk && apart groupClash x.groups

/-- The order code has what the image enables (R12, R534). -/
def orderOk (s : State) (h : List Byte) (x : Sections) : Bool :=
  bits (lf h 24 1) (s.fuse.variant - 1) 1 == 1 &&
  (s.fuse.variant == 1 || (!x.flows.any present32 && !x.res.any present32)) &&
  (s.fuse.variant != 3 || !x.groups.any fun e => bits (lf e 4 4) 30 2 == 1)

/-- The result of checking a slot, in the order of R524. -/
def checkSlot (s : State) (slot : Nat) (f : SlotFacts) : Nat :=
  let h := flashBytes s (slotBase slot) 2048
  let k := bits (lf h 25 1) 0 2
  if !f.readOk then 8
  else if lf h 0 4 = 0xFFFFFFFF then 1
  else if !headerOk h then 2
  else if !f.keyOk || !s.fuse.provisioned.getLsbD k || s.fuse.revoked.getLsbD k then 3
  else if lf h 12 4 < s.fuse.svnMin then 4
  else if !f.sigOk then 5
  else
    let x := sectionsOf s slot
    if !orderOk s h x then 6 else if !limitsOk h x then 7 else 0

/-! ### The image in force (R535) -/

/-- A signed number of `n` bits. -/
def signedOf (n v : Nat) : Int := (BitVec.ofNat n v).toInt

/-- The values of an accepted image. -/
def imageOf (s : State) (slot : Nat) : Image :=
  let h := flashBytes s (slotBase slot) 2048
  let x := sectionsOf s slot
  let m := x.module
  let l := x.links
  let t := x.time.getD []
  { modGib := bits (lf m 0 4) 16 6, ceLimit := bits (lf m 0 4) 8 8, stripeGib := bits (lf m 4 4) 0 7
    idleOff := bits (lf m 8 4) 31 1 == 1, idleTicks := bits (lf m 8 4) 0 24, bulkKib := lf m 12 4, interWait := lf m 16 4
    bellExp := lf m 20 1, numScale := signedOf 8 (lf m 21 1), quietSteps := lf m 22 1, autoRaise := bits (lf m 23 1) 1 1 == 1
    quietAlarm := bits (lf m 23 1) 0 1 == 1, quietThr := lf m 24 2, lossL := lf m 26 2, parK := lf m 28 1, parM := lf m 29 1
    rve := (List.range 4).map fun i => BitVec.ofNat 32 (lf x.reeve (4 * i) 4)
    charges := (List.range 6).map fun i => lf x.reeve (16 + 2 * i) 2
    ptpCfg := BitVec.ofNat 32 (timeWord x.time), txLat := signedOf 16 (lf t 4 2), rxLat := signedOf 16 (lf t 6 2)
    idGiven := bits (lf l 0 4) 31 1 == 1, modId := bits (lf l 0 4) 0 16, portEnable := BitVec.ofNat 32 (lf l 4 4)
    secureShare := lf l 8 1, pfc := lf l 9 1, guildPorts := BitVec.ofNat 8 (lf l 10 1)
    ctgLim0 := BitVec.ofNat 32 (lf l 12 4), ctgLim1 := BitVec.ofNat 32 (lf l 16 4)
    eth := x.eth
    routes := (routeEntries (x.routes.length / 16) x.routes).foldl (fun t e => Tab.ins t e.1 e.2.1) []
    flows := x.flows, res := x.res, groups := x.groups
    memtest := bits (lf h 26 1) 0 1 == 1, hubRelease := BitVec.ofNat 64 (lf x.hubCode 0 8) }

end Sys2Proof.Machine
end

