-- ==== Sys2Proof/Machine/Reeve.lean ====
section
/-!
DEFINITION. The reeve (14 R493 to R512): requests, the grant cycle, CLAMP, the effective budget, power and thermal windows.
-/
namespace Sys2Proof.Machine

/-! ### The image's fields (R511) -/

def rveWord (s : State) (i : Nat) : Nat := ((s.img.rve.getD i 0)).toNat
def rveBudget (s : State) : Nat := bits (rveWord s 0) 16 16
def rveBase (s : State) : Nat := bits (rveWord s 0) 0 16
def rveSlew (s : State) : Nat := bits (rveWord s 1) 24 8
def rveEmit (s : State) : Nat := bits (rveWord s 1) 16 8
def rveDlRes (s : State) : Nat := bits (rveWord s 1) 0 16
/-- LINGER in TIME ticks: 16 CORE cycles are 4 ticks. -/
def rveLinger (s : State) : Nat := 4 * bits (rveWord s 2) 23 9
/-- TERM in TIME ticks. -/
def rveTerm (s : State) : Nat := 400 * bits (rveWord s 2) 8 14
def rveThrottleT (s : State) : Nat := bits (rveWord s 3) 24 8
def rveCapDefault (s : State) : Nat := bits (rveWord s 3) 0 16

/-- A class may run at half rate: 0 BULK, 1 INTERACTIVE, 2 DEADLINE. -/
def halfClass (s : State) (cls : Nat) : Bool := bits (rveWord s 2) (2 - cls) 1 == 1

def State.modPermit (s : State) (id : Nat) (f : Permit → Permit) : State :=
  { s with rve := { s.rve with permits := Tab.modify s.rve.permits id f } }

/-! ### What the reeve accounts a permit to (R494, R504) -/

/-- Class and saggar of held leave: on a wheel inside a started reservation, DEADLINE and the reserving saggar. -/
def account (s : State) (p : Permit) : Nat × Nat :=
  if 1 < p.kind then (p.cls, p.saggar) else
  match (s.wheel p.unit).ctl.resv with
  | some r => (2, ((s.flow (resFlow s r)).bind.map (·.saggar)).getD p.saggar)
  | none => (p.cls, p.saggar)

/-- All charge held, H (R501). -/
def heldAll (s : State) : Nat := (s.rve.permits.map fun (e : Nat × Permit) => e.2.held).sum

/-- Charge held by a saggar. -/
def heldBy (s : State) (k : Nat) : Nat :=
  (s.rve.permits.map fun (e : Nat × Permit) => if (account s e.2).2 = k then e.2.held else 0).sum

/-- DEADLINE charge held. -/
def heldDeadline (s : State) : Nat :=
  (s.rve.permits.map fun (e : Nat × Permit) => if e.2.kind ≤ 2 ∧ (account s e.2).1 = 2 then e.2.held else 0).sum

/-- POWER_WEIGHT of a saggar. -/
def weightOf (s : State) (k : Nat) : Nat := if 4096 ≤ k then 1 else max 1 (s.saggar k).cfg.powerWeight

/-- A saggar's cap in units of 0.0025 W, if it has one (R503). -/
def capOf (s : State) (k : Nat) : Option Nat :=
  let c := if 4096 ≤ k then 0 else
    (if (s.saggar k).cfg.powerCap = 0 then rveCapDefault s else (s.saggar k).cfg.powerCap)
  if c = 0 then none else some (100 * c)

/-! ### Requests in order (R498) -/

/-- A request the reeve considers: its permit, its kind (1 new, 2 upgrade, 3 renewal), the class and saggar of its work, when it
reached the reeve. -/
structure PReq where
  id : Nat
  p : Permit
  what : Nat
  cls : Nat
  saggar : Nat
  arrived : Nat
  deriving DecidableEq, Repr

/-- Every request that has reached the reeve. -/
def requests (s : State) : List PReq :=
  s.rve.permits.flatMap fun (e : Nat × Permit) =>
    let p := e.2
    let a := account s p
    let c := if p.held = 0 then (p.cls, p.saggar) else a
    let first : List PReq := match p.arrived with
      | some g => if p.pend = 0 then [] else [{ id := e.1, p, what := p.pend, cls := c.1, saggar := c.2, arrived := g }]
      | none => []
    let again : List PReq := match p.renew with
      | some g => let n := p.next.getD a; [{ id := e.1, p, what := 3, cls := n.1, saggar := n.2, arrived := g }]
      | none => []
    first ++ again

/-- The rank of a request: EMIT, DEADLINE, LINK, INTERACTIVE, BULK. -/
def rankOfReq (r : PReq) : Nat :=
  if r.p.kind = 5 then 0 else if r.p.kind = 3 ∨ r.p.kind = 4 then 2 else if r.cls = 2 then 1 else if r.cls = 1 then 3 else 4

/-- One request comes before another. Shares compare as held charge over weight. -/
def reqBefore (s : State) (a b : PReq) : Bool :=
  let ra := rankOfReq a
  let rb := rankOfReq b
  if ra ≠ rb then decide (ra < rb) else
  let shares := ra == 1 || ra == 3 || ra == 4
  let x := heldBy s a.saggar * weightOf s b.saggar
  let y := heldBy s b.saggar * weightOf s a.saggar
  if shares && x != y then decide (x < y)
  else if shares && a.saggar != b.saggar then decide (a.saggar < b.saggar)
  else if shares && a.what != b.what then decide (a.what < b.what)
  else if a.arrived ≠ b.arrived then decide (a.arrived < b.arrived)
  else if a.p.unit ≠ b.p.unit then decide (a.p.unit < b.p.unit)
  else decide (a.id < b.id)

/-- The first request of a list. -/
def firstReq (s : State) : List PReq → Option PReq
  | [] => none
  | r :: l =>
    match firstReq s l with
    | none => some r
    | some q => if reqBefore s q r then some q else some r

/-! ### Granting (R499 to R501) -/

/-- The room for a request, which may be below zero. -/
def room (s : State) (deadline : Bool) : Int :=
  let on := (s.frm.flows.filter fun (e : Nat × Flow) => e.2.st == 1).map Prod.fst
  let bare := on.filter fun f => !(s.rve.permits.any fun (e : Nat × Permit) => e.2.kind == 5 && e.2.unit == 536 + f && decide (0 < e.2.held))
  let uDl := if on == [] || deadline then 0 else 100 * rveDlRes s - heldDeadline s
  (100 * s.rve.bEff : Int) - (max (100 * rveBase s + heldAll s) (100 * s.rve.m) + 100 * rveEmit s * bare.length + uDl : Nat)

/-- The request's saggar stays within its cap with `size` in place of what the permit holds. -/
def capOk (s : State) (r : PReq) (size : Nat) : Bool :=
  match capOf s r.saggar with
  | none => true
  | some c =>
    let own := if (account s r.p).2 = r.saggar then r.p.held else 0
    decide (heldBy s r.saggar - own + size ≤ c)

/-- A grant of `size` fits the room and the buckets: only the change counts (R497, R500). -/
def fits (s : State) (r : PReq) (size : Nat) : Bool :=
  let dl := rankOfReq r == 1
  decide ((size : Int) - r.p.held ≤ room s dl) && decide (size - r.p.held ≤ s.rve.rise) && decide (r.p.held - size ≤ s.rve.fall)

/-- The request's class lets it run at half rate (R493). -/
def mayHalf (s : State) (r : PReq) : Bool := decide (r.p.kind < 3) && r.what != 2 && halfClass s r.cls

/-- The change of a permit's charge moves between the buckets (R500). -/
def shift (s : State) (kind old new : Nat) : State :=
  if kind = 5 then s else
  { s with rve := { s.rve with rise := min 3200 (s.rve.rise + (old - new)) - (new - old)
                               fall := min 3200 (s.rve.fall + (new - old)) - (old - new) } }

/-- Give leave of `size` to a request. -/
def grant (s : State) (r : PReq) (size : Nat) : State :=
  let half := decide (size < r.p.full)
  let upgrade := half && decide (r.p.kind ≤ 1)
  let s := shift s r.p.kind r.p.held size
  let s := s.modPermit r.id fun p => { p with
    held := size, since := s.watch, releasing := false, waited := false
    renew := if r.what = 3 then none else p.renew
    next := if r.what = 3 then none else p.next
    cls := if r.what = 3 then r.cls else p.cls
    saggar := if r.what = 3 then r.saggar else p.saggar
    pend := if upgrade then 2 else 0
    arrived := if upgrade then some ((if p.pend = 2 then p.arrived else none).getD s.gts) else none }
  let s := if half then { s with rve := { s.rve with halves := s.rve.halves + 1 } } else s
  if r.p.kind = 0 then tally s r.p.unit (if half then 0x1C1 else 0x1C0) r.saggar 0xFFFFF 0xFFF
  else if r.p.kind = 2 then gtally s 0x00B (some r.saggar)
  else s

/-- What becomes of the first request: granted; passed over (its own cap holds it); or it ends the cycle. -/
inductive Verdict where
  | grant (size : Nat)
  | pass
  | stop
  deriving DecidableEq, Repr

def verdict (s : State) (r : PReq) : Verdict :=
  let full := r.p.full
  if r.p.kind = 5 then .grant full
  else
    let fullCap := capOk s r full
    let halfCap := mayHalf s r && capOk s r (full / 2)
    if fullCap && fits s r full then .grant full
    else if halfCap && fits s r (full / 2) then .grant (full / 2)
    else if !fullCap && !halfCap then .pass
    else .stop

/-- A renewal that cannot be met releases its permit; the request stays pending (R497). -/
def unmet (s : State) (r : PReq) : State :=
  if r.what = 3 then s.modPermit r.id fun p => { p with releasing := true } else s

/-- Consider requests in order until one ends the cycle; in CLAMP only EMIT is granted. `seen` lists what was passed over. -/
def consider (s : State) (seen : List (Nat × Nat)) : Nat → State
  | 0 => s
  | fuel + 1 =>
    let l := (requests s).filter fun r => !seen.contains (r.id, r.what) && (!s.rve.clamp || r.p.kind == 5)
    match firstReq s l with
    | none => s
    | some r =>
      match verdict s r with
      | .grant size => consider (grant s r size) ((r.id, r.what) :: (r.id, 2) :: seen) fuel
      | .pass => consider (unmet s r) ((r.id, r.what) :: seen) fuel
      | .stop => unmet s r

/-! ### Releases and take-back (R496, R506) -/

/-- Apply a release the fall allowance can take: the permit goes, or its failed renewal stays pending. -/
def release (s : State) (id : Nat) (p : Permit) : State :=
  if p.kind ≠ 5 ∧ s.rve.fall < p.held then s else
  let s := shift s p.kind p.held 0
  match p.renew with
  | some _ => s.modPermit id fun p => { p with
      held := 0, known := 0, releasing := false, pend := 1, arrived := p.renew, renew := none, next := none
      cls := (p.next.getD (p.cls, p.saggar)).1, saggar := (p.next.getD (p.cls, p.saggar)).2, waited := true }
  | none => { s with rve := { s.rve with permits := Tab.del s.rve.permits id } }

/-- COPY permits whose copy is gone are given back. -/
def sweepCopies (s : State) : State :=
  giveBack s fun p => p.kind == 1 && !((s.wheel p.unit).eng.copies.any fun c => c.id == p.key)

def applyReleases (s : State) : State :=
  (s.rve.permits.filter fun (e : Nat × Permit) => e.2.releasing).foldl (fun s e => release s e.1 e.2) s

/-- Held leave CLAMP may take next: FULL permits with a half rate first, then everything; by class, then by charge per weight. -/
def victim (s : State) : Option (Nat × Permit × Nat) :=
  let l := s.rve.permits.filter fun (e : Nat × Permit) => decide (e.2.kind < 3) && decide (0 < e.2.held)
  let lower := l.filter fun (e : Nat × Permit) => e.2.held == e.2.full && halfClass s (account s e.2).1
  let pool := if lower == [] then l else lower
  let worse := fun (a b : Nat × Permit) =>
    let (ca, ka) := account s a.2
    let (cb, kb) := account s b.2
    if ca ≠ cb then decide (ca < cb) else decide (heldBy s kb * weightOf s ka < heldBy s ka * weightOf s kb)
  (pool.foldl (fun (o : Option (Nat × Permit)) e => match o with
    | none => some e
    | some q => if worse e q then some e else some q) none).map fun e => (e.1, e.2, if lower == [] then 0 else e.2.full / 2)

/-- Take held leave back as far as the fall bucket allows. -/
def takeBack (s : State) : Nat → State
  | 0 => s
  | fuel + 1 =>
    match victim s with
    | none => s
    | some (id, p, left) =>
      if s.rve.fall < p.held - left then s else
      let s := shift s p.kind p.held left
      let s := s.modPermit id fun q => { q with
        held := left, known := if left = 0 then 0 else 1, pend := if left = 0 then 1 else 2, arrived := some s.gts, waited := true
        renew := none, next := none, releasing := false }
      takeBack { s with rve := { s.rve with clampTaken := s.rve.clampTaken + (p.held - left) } } fuel

/-! ### The events -/

/-- LEAVE_REQUEST: request `id` reaches the reeve and becomes pending (R498, R502). -/
def execLeaveRequest (id : Nat) (s : State) : Out :=
  act true (whenD (s.serving && !s.frozen) fun s =>
    s.modPermit id fun p => if p.pend != 0 && p.arrived.isNone then { p with arrived := some s.gts } else p) s

/-- GRANT_CYCLE, once in each 8 ticks (R498, R506, R510); in a power-down the reeve only releases (20 R652). -/
def execGrantCycle (s : State) : Out :=
  act true (whenD ((s.serving || s.hub.powerDown) && !s.frozen && s.rve.cycle != s.watch / 8 + 1) fun s =>
    let s := { s with rve := { s.rve with cycle := s.watch / 8 + 1 } }
    let s := applyReleases (if s.serving then sweepCopies s else s)
    let add := 8 * rveSlew s
    let s := { s with rve := { s.rve with rise := min 3200 (s.rve.rise + add), fall := min 3200 (s.rve.fall + add) } }
    if !s.serving then s else
    let s := if requests s == [] then s else gtally s 0x00A none
    let n := s.rve.permits.length
    let s := consider s [] (3 * n + 1)
    if s.rve.clamp then takeBack s (2 * n) else s) s

/-- LEAVE_ANSWER: the answer to a request reaches its unit (R502): FULL, HALF or WAIT. A port with its leave begins to train. -/
def execLeaveAnswer (id : Nat) (s : State) : Out :=
  act true (whenD (s.serving && !s.frozen) fun s =>
    match Tab.find s.rve.permits id with
    | none => s
    | some p =>
      if p.held = 0 then
        if p.pend = 0 || p.arrived.isNone || p.waited then s else
        let s := s.modPermit id fun p => { p with waited := true }
        let s := { s with rve := { s.rve with waits := s.rve.waits + 1 } }
        if p.kind ≤ 1 then tally s p.unit 0x1C2 p.saggar 0xFFFFF 0xFFF else s
      else
        let s := s.modPermit id fun p => { p with known := if p.held < p.full then 1 else 2 }
        if (p.kind == 3 || p.kind == 4) && decide (768 ≤ p.unit) && (s.port (p.unit - 768)).asked then portTrain s (p.unit - 768) else s) s

/-- LINGER_EXPIRY: an array queue empty for LINGER CORE cycles releases the wheel's MATRIX permit (R495). -/
def execLingerExpiry (wheel : Nat) (s : State) : Out :=
  act (s.present wheel) (whenD (s.serving && !s.frozen) fun s =>
    let x := s.wheel wheel
    match permitOf s 0 wheel 0 with
    | none => s
    | some (_, p) =>
      if x.eng.mxq != [] || p.releasing || p.held = 0 then s else
      match x.eng.lingerSince with
      | none => s.modWheel wheel fun x => { x with eng := { x.eng with lingerSince := some s.watch } }
      | some t =>
        if s.watch < t + rveLinger s then s else giveBack s fun p => p.kind == 0 && p.unit == wheel) s

/-- PERMIT_RENEWAL: a permit held for TERM enters the grant order again (R497); a MATRIX permit for the work now at the head of its
queue (R494). -/
def execPermitRenewal (id : Nat) (s : State) : Out :=
  act true (whenD (s.serving && !s.frozen) fun s =>
    s.modPermit id fun p =>
      if p.held = 0 || 2 < p.kind || p.releasing || p.renew.isSome || decide (s.watch < p.since + rveTerm s) then p else
      let next := if p.kind = 0 then
          (match (s.wheel p.unit).eng.mxq with
           | e :: _ => (s.crew? p.unit e.slot).map fun c => (streamCls s c.stream, c.saggar)
           | [] => none)
        else none
      { p with renew := some s.gts, next }) s

/-- POWER_WINDOW: in the tick in which a window of 800 ticks has ended, once (02 R56), it closes with average `m` in units of 0.25 W and the main input at `mv` mV (R505, R506). -/
def execPowerWindow (m mv : Nat) (s : State) : Out :=
  act true (whenD (s.time.locked && !s.frozen && s.windowEnds 800 s.rve.powerWin) fun s =>
    let e := s.rve.energyRest + m
    let s := { s with rve := { s.rve with powerWin := s.watch, m := m % 65536, vin := mv % 65536, energy := s.rve.energy + BitVec.ofNat 64 (e / 2000)
                                          energyRest := e % 2000 } }
    let s := if 6600 < m then { s with rve := { s.rve with ceilTicks := s.rve.ceilTicks + 800 } } else s
    if !s.serving then s
    else if !s.rve.clamp then
      (if 6600 < m then
        { s with rve := { s.rve with clamp := true, clamps := s.rve.clamps + 1, clampM := m, clampH := heldAll s / 100, clampTaken := 0 } }
       else s)
    else if m ≤ s.rve.bEff then
      let v := s.rve
      record { s with rve := { s.rve with clamp := false } } 0xC3 513 0xFFF
        (payload [(v.clampM % 65536, 112), (v.clampH, 96), (v.clampTaken / 100, 80), (s.gts, 0)]) [] true
    else s) s

/-- The module enters FAILED with THERMAL_TRIP: the reading and the die, 2 for the hub (R507, 16 R562). -/
def thermalTrip (s : State) (die reading : Nat) : State :=
  enterFailed s 7 (if die < 2 then 4 else 12) (if die < 2 then die else 0) 0xB [BitVec.ofNat 8 reading, BitVec.ofNat 8 die]

/-- The hottest die of three readings and its reading, the lowest-numbered on a tie. -/
def hottestDie (t0 t1 hub : Nat) : Nat × Nat :=
  if t1 ≤ t0 ∧ hub ≤ t0 then (0, t0) else if hub ≤ t1 then (1, t1) else (2, hub)

/-- The effective budget changes, with its record (R507). -/
def setBudget (s : State) (b die hot : Nat) : State :=
  let s := { s with rve := { s.rve with bEff := b, throttle := decide (b < rveBudget s) } }
  record s 0xC4 513 0xFFF (payload [(b, 112), (hot % 256, 104), (die, 102)]) [] true

/-- THERMAL_WINDOW: the hottest readings of the dies and the hub, and the coolant, read once in each window of 1 ms
(R507). -/
def execThermalWindow (t0 t1 hub coolant : Nat) (s : State) : Out :=
  act true (whenD (s.serving && !s.frozen && s.rve.thermWin != s.watch / 400000 + 1) fun s =>
    let s := { s with rve := { s.rve with
      thermWin := s.watch / 400000 + 1
      temp := BitVec.ofNat 32 ((t0 % 256) * 2 ^ 24 + (t1 % 256) * 2 ^ 16 + (hub % 256) * 2 ^ 8 + coolant % 256) } }
    let (die, hot) := hottestDie t0 t1 hub
    let floor := rveBase s + 8 * rveEmit s + rveDlRes s
    let t := rveThrottleT s
    if 110 ≤ hot then thermalTrip s die hot
    else if t ≤ hot then
      (let b := max (s.rve.bEff - 100) (min floor s.rve.bEff)
       if b < s.rve.bEff then setBudget s b die hot else { s with rve := { s.rve with throttle := decide (b < rveBudget s) } })
    else if hot + 3 ≤ t && decide (s.rve.bEff < rveBudget s) then setBudget s (min (rveBudget s) (s.rve.bEff + 100)) die hot
    else s) s

/-- THERMAL_TRIP: the hardware trip of a die, or a reading of 110 °C or above (R507). -/
def execThermalTrip (die reading : Nat) (s : State) : Out :=
  act (decide (die < 3)) (whenD (s.serving || starting s) fun s => thermalTrip s die reading) s

end Sys2Proof.Machine
end

