-- ==== Sys2Proof/Machine/StartUp.lean ====
section
/-!
DEFINITION. Start-up (15 R513 to R523, R535, R542), the power inputs and the reset input (20 R651 to R658).
-/
namespace Sys2Proof.Machine

def modHub (s : State) (f : Hub → Hub) : State := { s with hub := f s.hub }

/-! ### Power inputs (20 R649 to R655) -/

/-- The module enters POWERING: power good in AUX (R513). -/
def enterPowering (s : State) (kind : Nat) : State := setHub (modHub s fun h => { h with startKind := kind, cause := 0 }) .powering

/-- What the hub holds in AUX and OFF: the pins, and the flash commands of the root of trust. -/
def auxHub (s : State) : Hub :=
  { pwrGood := s.hub.pwrGood, resetHeld := s.hub.resetHeld, pins := s.hub.pins, flashJobs := s.hub.flashJobs }

/-- AUX, and POWERING at once while power good is asserted (R513, 20 R655). -/
def enterAux (s : State) : State :=
  let s := setHub { stopPll (cleared s) with hub := auxHub s } .aux
  if s.hub.pwrGood then enterPowering s 0 else s

/-- AUX_POWER_ON: the auxiliary input enters its range (20 R651). -/
def execAuxPowerOn (s : State) : Out := act true (whenD (s.hub.state == .off) enterAux) s

/-- A flash unit whose programming was cut short holds no value the spec gives: free bytes, 32 at a time (20 R654, 15 R541). -/
def scramble (s : State) (a : Nat) : Nat → State
  | 0 => s
  | n + 1 =>
    let (v, s) := s.free
    scramble (flashPut s a (leBytes 32 v.toNat)) (a + 32) n

/-- AUX_POWER_LOSS: OFF from every state; only what the flash and the auxiliary storage hold stays (20 R654). -/
def execAuxPowerLoss (s : State) : Out :=
  act true (whenD (s.hub.state != .off) fun s =>
    let s := match s.hub.flashJobs with
      | ⟨_, .write slot off _ true⟩ :: _ => scramble s (slotBase slot + off) 2048
      | _ => s
    let h := { auxHub s with state := .off, flashJobs := [] }
    { stopPll (cleared s) with hub := h, oob := {}, fen := { fails := s.fen.fails } }) s

/-- PWR_GOOD_ASSERT (R513, 20 R655). -/
def execPwrGoodAssert (s : State) : Out :=
  act true (whenD (!s.hub.pwrGood) fun s =>
    let s := modHub s fun h => { h with pwrGood := true }
    if s.hub.state == .aux then enterPowering s 0 else s) s

/-- POWER_DOWN_END: the main rails are removed once the reeve has released every charge: AUX (20 R652). -/
def execPowerDownEnd (s : State) : Out := act true (whenD (s.hub.powerDown && s.rve.permits == []) enterAux) s

/-! ### The reset input (20 R657) -/

/-- MOD_RESET_ASSERT: low for at least 1 µs; ignored while power good is deasserted (20 R655). -/
def execModResetAssert (s : State) : Out :=
  act true (whenD (s.hub.pwrGood && !s.hub.resetHeld && s.hub.state != .off) fun s =>
    requestReset (modHub s fun h => { h with resetHeld := true }) 1) s

/-! ### POWERING, LOADING -/

/-- POWERING_END: the rails are in regulation and the root PLL is locked, or one of them is not (R513, R520). LOADING waits while
MOD_RESET_N is low. -/
def execPoweringEnd (rails : Bool) (strap : Nat) (s : State) : Out :=
  act (decide (strap < 8)) (whenD (s.hub.state == .powering && s.awake) fun s =>
    if !rails then enterFailed s 2 12 0 0xC
    else if !s.time.locked then enterFailed s 3 12 0 0xD
    else if s.hub.resetHeld then s
    else enterLoading (modHub s fun h => { h with pins := strap })) s

/-- Fields "Image" take the accepted image's values as TRAINING_LINKS is entered (R535): among them the module ID and the port
enables. -/
def applyImage (s : State) (im : Image) : State :=
  let s := { s with img := im }
  let s := { s with link := { s.link with fabricId := if im.idGiven then im.modId else s.hub.strap } }
  (List.range 32).foldl (fun s n => s.setPort n { s.port n with enable := im.portEnable.getLsbD n }) s

/-- The order of the slots: a pending try first, then the other; else PREFERRED first (R522). -/
def slotOrder (d : Dir) : List Nat :=
  let a := if d.tryValid then d.trySlot else d.preferred
  [a, 1 - a]

/-- Check slots in order until one passes: results noted, and the slot in force. -/
def chooseSlot (s : State) (f : LoadFacts) : List Nat → Option Nat × State
  | [] => (none, s)
  | n :: l =>
    let r := checkSlot s n (if n = 0 then f.a else f.b)
    let s := modHub s fun h => if n = 0 then { h with resultA := r } else { h with resultB := r }
    if r = 0 then (some n, s) else chooseSlot s f l

/-- Measurements 4 and 5 (R538) as bytes. -/
def measure4 (s : State) : List Byte :=
  let h := s.hub
  leBytes 1 h.inForce ++ leBytes 1 (if h.fromTry then 1 else 0) ++ leBytes 4 h.svn ++ leBytes 1 h.keyInForce ++ leBytes 1 s.fuse.variant ++
    leBytes 1 0xB0 ++ List.replicate 7 0

def measure5 (s : State) : List Byte :=
  leBytes 4 s.fuse.svnMin ++ leBytes 1 s.fuse.provisioned.toNat ++ leBytes 1 s.fuse.revoked.toNat ++ [0, 0]

/-- LOADING_END (R520 to R524, R535, R538): an image is accepted and applied, and the host port answers (19 R626), or the start fails. -/
def execLoadingEnd (f : LoadFacts) (s : State) : Out :=
  act true (whenD (s.hub.state == .loading && s.awake) fun s =>
    if !f.flashOk then enterFailed s 8 12 0 9 else
    let d := dirNow s
    let (slot, s) := chooseSlot s f (slotOrder d)
    let s := if d.tryValid then writeDir s d.preferred false d.trySlot else s
    match slot with
    | none => enterFailed s 1 12 0 9
    | some n =>
      let h := flashBytes s (slotBase n) 2048
      let g := if n = 0 then f.a else f.b
      let s := modHub s fun u => { u with
        inForce := n, fromTry := d.tryValid && d.trySlot == n, svn := lf h 12 4, build := BitVec.ofNat 64 (lf h 16 8)
        keyInForce := bits (lf h 25 1) 0 2, digest := g.digest, hubDigest := g.hubDigest, measured := true }
      let s := modHub s fun u => { u with meas4 := measure4 s, meas5 := measure5 s }
      trainPcie (setHub (applyImage s (imageOf s n)) .training)) s

/-! ### Training and self-test (R516) -/

/-- Fences of start-up are complete at once: no work is in the units they take. -/
def settleFences (s : State) : State :=
  s.fen.jobs.foldl (fun s (e : Nat × FenceJob) =>
    let j := e.2
    let s := match j.kind with
      | 1 => (s.setSlice j.index { s.slice j.index with state := 2 }).setSlice (j.index ^^^ 1)
          { s.slice (j.index ^^^ 1) with carries := true }
      | 2 => s.setPc j.index { s.pc j.index with state := 2 }
      | _ => s
    closeFence s e.1 j) s

/-- Count a unit fenced during start-up (HUB_SELFTEST). -/
def countSelftest (s : State) (kind : Nat) : State :=
  let add := match kind with
    | 0 => 2 ^ 24 | 1 => 2 ^ 16 | 2 => 2 ^ 6 | 10 => 2 ^ 3 | _ => 0
  modHub s fun h => { h with selftest := h.selftest + BitVec.ofNat 32 add }

/-- A unit fails its training (error type 4) or its test (9): it is fenced; a fault of the hub die, or of both dies, ends the start. -/
def failUnit (s : State) (etype : Nat) (kind index : Nat) : State :=
  if s.hub.state == .failed || !unitExists s kind index then s
  else if kind = 11 ∨ kind = 12 then enterFailed s 4 kind index etype
  else if down s kind index then s
  else
    let s := trigger (countSelftest s kind) kind index etype 0xFFF 0xFFFFF 1 0
    if s.hub.state == .failed then s else settleFences s

def failUnits (s : State) (etype : Nat) (l : List (Nat × Nat)) : State := l.foldl (fun s u => failUnit s etype u.1 u.2) s

/-- TRAINING_LINKS_END: die links, stacks and granary ports have trained, those of the list have not (R513, R516). -/
def execTrainingLinksEnd (failed : List (Nat × Nat)) (s : State) : Out :=
  act true (whenD (s.hub.state == .training && s.awake) fun s =>
    let s := failUnits s 4 failed
    if s.hub.state == .failed then s else
    let s := (List.range 4).foldl (fun s n =>
      if hasGrn s n && (s.grn n).state == .off && (s.grn n).enable then s.setGrn n { s.grn n with state := .on, linkUp := true } else s) s
    modHub (setHub s .selfTest) fun h => { h with memtest := s.img.memtest }) s

/-- Spanor Link and Ethernet ports enabled by the image ask for bring-up leave (R515). -/
def bringUpPorts (s : State) : State :=
  (List.range 32).foldl (fun s n =>
    let x := s.port n
    if x.enable && x.st == .off && !x.asked then portBringUp s n else s) s

/-- SELF_TEST_END: READY, or FENCED_HALF with one die fenced; the reeve starts, the routes of the image are written, a try is
committed, and the boot log entry is written (R513, R515, R516, R522, R529, R542). -/
def execSelfTestEnd (failed : List (Nat × Nat)) (s : State) : Out :=
  act true (whenD (s.hub.state == .selfTest && s.awake) fun s =>
    let s := failUnits s 9 failed
    if s.hub.state == .failed then s else
    let half := s.fen.dies != 0
    let s := modHub s fun h => { h with fencedDie := if s.fen.dies.getLsbD 1 then 1 else 0 }
    let s := { s with rve := { s.rve with rise := 3200, fall := 3200, bEff := rveBudget s, throttle := false } }
    let s := { s with link := { s.link with t0 := s.img.routes, t1 := s.img.routes, act := 0 } }
    let s := setHub s (if half then .fencedHalf else .ready)
    let s := if s.hub.fromTry then writeDir s s.hub.inForce (dirNow s).tryValid (dirNow s).trySlot else s
    writeBoot (bringUpPorts s)) s

/-- Bound of a state of the start in ticks (R514); POWERING has no clock to be measured by before its lock. -/
def stateBound (s : State) : Nat :=
  match s.hub.state with
  | .powering => 160000000
  | .loading => 400000000
  | .training => 1600000000
  | _ => if s.img.memtest then 15840000000 else 2640000000

/-- STATE_TIMEOUT: a state of the start overruns its bound (R514). -/
def execStateTimeout (s : State) : Out :=
  act true (whenD (starting s && (s.hub.state == .powering || decide (s.hub.entered + stateBound s ≤ s.watch))) fun s =>
    enterFailed s 6 12 0 8) s

end Sys2Proof.Machine
end

