-- ==== Sys2Proof/Machine/RootOfTrust.lean ====
section
/-!
DEFINITION. The root of trust: flash commands, keys and versions (15 R536, R537, R541, R542), module reset by the mailbox, PLDM, SPDM,
MCTP and I3C (15 R538, R539; 19 R641 to R643).
-/
namespace Sys2Proof.Machine

/-! ### Flash commands (15 R541) -/

/-- The slot of the image in force: one that passed its checks in the last LOADING. -/
def slotInForce (s : State) : Option Nat :=
  let r := if s.hub.inForce = 0 then s.hub.resultA else s.hub.resultB
  if r = 0 then some s.hub.inForce else none

/-- HUB_CFG_STATUS (15 R543). -/
def cfgStatus (s : State) : Nat :=
  let h := s.hub
  let b := fun (c : Bool) => if c then 1 else 0
  h.inForce * 2 ^ 31 + b h.fromTry * 2 ^ 30 + b h.dirLost * 2 ^ 29 + h.dirCopy * 2 ^ 28 + h.resultA * 2 ^ 8 + h.resultB

/-- The answer of CONFIG_STATUS: the directory in use, HUB_CFG_STATUS and the BUILD_ID of both slot headers; the places within the
64 bytes are the model's. -/
def statusBytes (s : State) : List Byte :=
  let d := dirNow s
  leBytes 4 d.seq.toNat ++ leBytes 1 d.preferred ++ leBytes 1 ((if d.tryValid then 1 else 0) + 2 * d.trySlot) ++ [0, 0] ++
    leBytes 4 (cfgStatus s) ++ [0, 0, 0, 0] ++ flashBytes s (slotBase 0 + 16) 8 ++ flashBytes s (slotBase 1 + 16) 8 ++ List.replicate 32 0

/-- Boot log entries with SEQ `first` to `first + count − 1`, in that order. -/
def logBytes (s : State) (first count : Nat) : List (List Byte) :=
  let l := bootEntries s
  (List.range count).filterMap fun i => (l.find? fun e => e.2 == first + i).map fun e => flashBytes s (bootBase + 64 * e.1) 64

/-- Why CONFIG_WRITE or CONFIG_SELECT is refused, if it is. -/
def flashRefusal (s : State) : FlashOp → Option Nat
  | .write slot off data _ =>
    if 1 < slot || off % 65536 != 0 || data.length % 65536 != 0 || data.length = 0 || 2 ^ 20 < data.length || slotBytes < off + data.length
      then some stInvalid
    else if s.hub.state == .loading || slotInForce s == some slot then some stBusy
    else none
  | .select _ slot => if 1 < slot then some stInvalid else if s.hub.state == .loading then some stBusy else none
  | .status => none
  | .log _ count => if count = 0 || 256 < count then some stInvalid else none

/-- A flash command is over: its completion, or its answer over PLDM. -/
def flashAnswer (s : State) (who : Option (Nat × Nat)) (st : Nat) (data result : List Byte) : State :=
  match who with
  | none => s.emit (.oob 2 0x16 [BitVec.ofNat 8 st])
  | some (fn, n) =>
    match (s.mbx fn).inflight.find? fun r => r.n == n with
    | none => s
    | some r =>
      if data = [] then complete s fn n st result else
      match dataOut s fn r data result with
      | (some (st, res), s) => complete s fn n st res
      | (none, s) => s

/-- Run flash commands in order until one has units to program; `fuel` bounds them. -/
def runFlash (s : State) : Nat → State
  | 0 => s
  | fuel + 1 =>
    match s.hub.flashJobs with
    | [] => s
    | j :: rest =>
      let pop := modHub s fun h => { h with flashJobs := rest }
      match flashRefusal s j.op with
      | some st => (match j.op with
        | .write _ _ _ true => s
        | _ => runFlash (flashAnswer pop j.who st [] []) fuel)
      | none =>
        match j.op with
        | .write _ _ _ true => s
        | .write slot off data false =>
          let d := dirNow s
          let s := if d.tryValid && d.trySlot == slot then writeDir s d.preferred false d.trySlot else s
          modHub s fun h => { h with flashJobs := { j with op := .write slot off data true } :: rest }
        | .select try_ slot =>
          let d := dirNow s
          let t := if try_ then writeDir pop d.preferred true slot else writeDir pop slot d.tryValid d.trySlot
          runFlash (flashAnswer t j.who stOk [] []) fuel
        | .status => runFlash (flashAnswer pop j.who stOk (statusBytes s) []) fuel
        | .log first count =>
          let l := logBytes s first count
          runFlash (flashAnswer pop j.who stOk l.flatten (leBytes 4 l.length)) fuel

/-- A flash command reaches the root of trust, behind those before it. -/
def flashCommand (s : State) (j : FlashJob) : State :=
  let idle := s.hub.flashJobs == []
  let s := modHub s fun h => { h with flashJobs := h.flashJobs ++ [j] }
  if idle then runFlash s 2 else s

/-- FLASH_UNIT_DONE: one 64 KiB unit is erased and programmed; a deferred module reset then acts (R517), else the write goes on or
completes. -/
def execFlashUnitDone (s : State) : Out :=
  act true (fun s =>
    match s.hub.flashJobs with
    | ⟨who, .write slot off data true⟩ :: rest =>
      let a := slotBase slot + off
      let s := flashPut (flashErase s a 65536) a (data.take 65536)
      match s.hub.resetReq with
      | some k => resetNow (modHub s fun h => { h with flashJobs := [] }) k
      | none =>
        let left := data.drop 65536
        if left = [] then
          let s := modHub s fun h => { h with flashJobs := rest }
          runFlash (flashAnswer s who stOk [] []) (rest.length + 1)
        else modHub s fun h => { h with flashJobs := ⟨who, .write slot (off + 65536) left true⟩ :: rest }
    | _ => s) s

/-- CONFIG_WRITE. -/
def execConfigWrite (fn req : Nat) (s : State) : Out :=
  mbxRun { code := 0x4B, pf := true, used := [fld 16 0 8, fld 20 0 32, fld 24 0 32] } (fun r => if rf r 24 0 32 ≤ 2 ^ 20 then rf r 24 0 32 else 0) (fun s fn r =>
    if reqData r = 0 || r.data.isNone then now stInvalid s
    else (none, flashCommand (modReq s fn r.n fun q => { q with begun := true })
      { who := some (fn, r.n), op := .write (rf r 16 0 8) (rf r 20 0 32) ((r.data.getD []).take (rf r 24 0 32)) false })) fn req s

/-- CONFIG_SELECT. -/
def execConfigSelect (fn req : Nat) (s : State) : Out :=
  mbxRun { code := 0x4C, pf := true, used := [fld 16 0 1, fld 17 0 8] } noData (fun s fn r =>
    (none, flashCommand (modReq s fn r.n fun q => { q with begun := true })
      { who := some (fn, r.n), op := .select (rf r 16 0 1 == 1) (rf r 17 0 8) })) fn req s

/-- CONFIG_STATUS, answered in every state. -/
def execConfigStatus (fn req : Nat) (s : State) : Out :=
  mbxRun { code := 0x4D, pf := true, query := true, always := true } noData (fun s fn r =>
    (none, flashCommand (modReq s fn r.n fun q => { q with begun := true }) { who := some (fn, r.n), op := .status })) fn req s

/-- CONFIG_LOG. -/
def execConfigLog (fn req : Nat) (s : State) : Out :=
  mbxRun { code := 0x4E, pf := true, used := [fld 16 0 32, fld 20 0 32], query := true } noData (fun s fn r =>
    (none, flashCommand (modReq s fn r.n fun q => { q with begun := true })
      { who := some (fn, r.n), op := .log (rf r 16 0 32) (rf r 20 0 32) })) fn req s

/-- MODULE_RESET: completes before the reset (R517). -/
def execModuleReset (fn req : Nat) (s : State) : Out :=
  mbxRun { code := 0x48, pf := true } noData (fun s fn r => (none, requestReset (complete s fn r.n stOk) 2)) fn req s

/-! ### Fuses (15 R536, R537) -/

/-- The status of KEY_REVOKE for a slot: the slot in force is BUSY; the last provisioned slot not revoked is INVALID. -/
def revokeStatus (s : State) (j : Nat) : Nat :=
  let good := s.fuse.provisioned &&& ~~~s.fuse.revoked
  if 3 < j then stInvalid
  else if (slotInForce s).isSome && s.hub.keyInForce = j then stBusy
  else if good == 1#4 <<< j then stInvalid
  else stOk

def revokeSpec : MbxSpec := { code := 0x49, pf := true, used := [fld 16 0 8] }

/-- The fuses after KEY_REVOKE: the revoked bit of its slot is blown when the command begins and is not refused. -/
def revokedFuse (s : State) (fn req : Nat) : Fuse :=
  match begins revokeSpec s fn req with
  | some r => if revokeStatus s (rf r 16 0 8) = stOk then { s.fuse with revoked := s.fuse.revoked ||| (1#4 <<< rf r 16 0 8) } else s.fuse
  | none => s.fuse

/-- KEY_REVOKE. -/
def execKeyRevoke (fn req : Nat) (s : State) : Out :=
  if fn < 256 then
    .next { mbxBody revokeSpec noData (fun s _ r => now (revokeStatus s (rf r 16 0 8)) s) fn req s with
      pending := s.pending, fuse := revokedFuse s fn req }
  else ignored s

def svnSpec : MbxSpec := { code := 0x4A, pf := true }

/-- The fuses after CONFIG_COMMIT_SVN: the minimum rises to the SVN of the image in force, at most 64 fuses. -/
def committedFuse (s : State) (fn req : Nat) : Fuse :=
  match begins svnSpec s fn req with
  | some _ => { s.fuse with svnMin := max s.fuse.svnMin (min 64 s.hub.svn) }
  | none => s.fuse

/-- CONFIG_COMMIT_SVN. -/
def execConfigCommitSvn (fn req : Nat) (s : State) : Out :=
  if fn < 256 then
    .next { mbxBody svnSpec noData (fun s _ _ => now stOk s (leBytes 4 (max s.fuse.svnMin (min 64 s.hub.svn)))) fn req s with
      pending := s.pending, fuse := committedFuse s fn req }
  else ignored s

/-! ### I3C, MCTP and PLDM (19 R641 to R643) -/

/-- The root of trust is powered and answers: in every state but OFF, and not while a module reset waits. -/
def rotUp (s : State) : Bool := s.hub.state != .off && !s.hub.halted

/-- A command that arrives during a module reset waits until the hub answers again (R643). -/
def orHeld (c : OobCmd) (f : State → State) (s : State) : State :=
  if rotUp s then f s
  else if s.hub.state == .off then s
  else { s with oob := { s.oob with held := s.oob.held ++ [c] } }

/-- An answer over PLDM. -/
def pldm (s : State) (code : Nat) (bytes : List Byte) : State := s.emit (.oob 2 code bytes)

/-- ENTDAA. -/
def takeAddress (address : Nat) (s : State) : State :=
  { s with oob := { s.oob with i3c := some address } }

/-- ENTDAA, at once or after a module reset (R643). -/
def execEntdaa (address : Nat) (s : State) : Out :=
  act (decide (address < 128)) (orHeld (.entdaa address) (takeAddress address)) s

/-- MCTP_SET_ENDPOINT_ID. -/
def setEndpoint (eid : Nat) (s : State) : State :=
  { s with oob := { s.oob with eid } }.emit (.oob 1 1 [0, BitVec.ofNat 8 eid])

/-- MCTP_SET_ENDPOINT_ID, at once or after a module reset (R643). -/
def execMctpSetEndpointId (eid : Nat) (s : State) : Out :=
  act (decide (eid < 256)) (orHeld (.setEndpointId eid) (setEndpoint eid)) s

/-- PLDM_BASE_DISCOVERY: the PLDM types served: base, monitoring and control, FRU data, firmware update. -/
def tellTypes (s : State) : State :=
  pldm s 4 [0, 2, 4, 5]

/-- PLDM_BASE_DISCOVERY, at once or after a module reset (R643). -/
def execPldmBaseDiscovery (s : State) : Out :=
  act true (orHeld .baseDiscovery tellTypes) s

/-- PLDM_REQUEST_UPDATE: an update of component 1 (slot A) or 2 (slot B), of `length` bytes at `offset` of the slot, under the rules
of CONFIG_WRITE. -/
def requestUpdate (component offset length : Nat) (s : State) : State :=
  if component = 0 || 2 < component || offset % 65536 != 0 || length % 65536 != 0 || length = 0 || 2 ^ 20 < length ||
      slotBytes < offset + length then pldm s 0x10 [BitVec.ofNat 8 stInvalid]
  else if s.hub.state == .loading || slotInForce s == some (component - 1) then pldm s 0x10 [BitVec.ofNat 8 stBusy]
  else pldm { s with oob := { s.oob with update := some (component - 1, offset, length) } } 0x10 [0]

/-- PLDM_REQUEST_UPDATE, at once or after a module reset (R643). -/
def execPldmRequestUpdate (component offset length : Nat) (s : State) : Out :=
  act true (orHeld (.requestUpdate component offset length) (requestUpdate component offset length)) s

/-- PLDM_TRANSFER_COMPLETE: the component's bytes have been transferred; they are programmed as CONFIG_WRITE programs them. -/
def transferDone (ok : Bool) (bytes : List Byte) (s : State) : State :=
  match s.oob.update with
  | none => pldm s 0x16 [BitVec.ofNat 8 stInvalid]
  | some (slot, off, len) =>
    let s := { s with oob := { s.oob with update := none } }
    if !ok || bytes.length != len then pldm s 0x16 [BitVec.ofNat 8 stInvalid]
    else flashCommand { s with oob := { s.oob with updated := some slot } } { op := .write slot off bytes false }

/-- PLDM_TRANSFER_COMPLETE, at once or after a module reset (R643). -/
def execPldmTransferComplete (ok : Bool) (bytes : List Byte) (s : State) : Out :=
  act true (orHeld (.transferComplete ok bytes) (transferDone ok bytes)) s

/-- PLDM_ACTIVATE_FIRMWARE: CONFIG_SELECT with a try of the slot last updated. -/
def activateFirmware (s : State) : State :=
  match s.oob.updated with
  | none => pldm s 0x1A [BitVec.ofNat 8 stInvalid]
  | some slot => flashCommand s { op := .select true slot }

/-- PLDM_ACTIVATE_FIRMWARE, at once or after a module reset (R643). -/
def execPldmActivateFirmware (s : State) : Out :=
  act true (orHeld .activateFirmware activateFirmware) s

/-- Numeric sensors are available: after AUX, and not in FAILED with cause POWER or PLL (R642). -/
def sensorsUp (s : State) : Bool :=
  s.hub.state != .aux && !(s.hub.state == .failed && (s.hub.cause == 2 || s.hub.cause == 3))

/-- PLDM_GET_SENSOR_READING: sensors 1 to 7 give a value, or none while they are unavailable; 8 gives STATE and CAUSE (R642). -/
def readSensor (sensor : Nat) (s : State) : State :=
  if sensor = 8 then pldm s 0x21 [BitVec.ofNat 8 s.hub.state.code, BitVec.ofNat 8 s.hub.cause]
  else if !sensorsUp s then pldm s 0x11 []
  else
    let v := match sensor with
      | 1 => s.rve.m / 4
      | 2 => s.rve.vin
      | 3 => bits s.rve.temp.toNat 24 8
      | 4 => bits s.rve.temp.toNat 16 8
      | 5 => bits s.rve.temp.toNat 8 8
      | 6 => bits s.rve.temp.toNat 0 8
      | _ => s.rve.energy.toNat
    pldm s 0x11 (leBytes 8 v)

/-- PLDM_GET_SENSOR_READING, at once or after a module reset (R643). -/
def execPldmGetSensorReading (sensor : Nat) (s : State) : Out :=
  act (decide (1 ≤ sensor) && decide (sensor ≤ 8)) (orHeld (.sensor sensor) (readSensor sensor)) s

/-- PLDM_SET_STATE_EFFECTER: effecter 9 with state 1 requests a module reset (R517, R642). -/
def setEffecter (effecter state : Nat) (s : State) : State :=
  if effecter = 9 ∧ state = 1 then requestReset (pldm s 0x39 [0]) 3 else pldm s 0x39 [BitVec.ofNat 8 stInvalid]

/-- PLDM_SET_STATE_EFFECTER, at once or after a module reset (R643). -/
def execPldmSetStateEffecter (effecter state : Nat) (s : State) : Out :=
  act true (orHeld (.effecter effecter state) (setEffecter effecter state)) s

/-- PLDM_GET_PDR: the repository entry of the 16 newest failure records (R643, 16 R562); record `handle`, newest first. -/
def tellPdr (handle : Nat) (s : State) : State :=
  pldm s 0x51 (leBytes 32 (s.fen.fails.getD handle 0).toNat)

/-- PLDM_GET_PDR, at once or after a module reset (R643). -/
def execPldmGetPdr (handle : Nat) (s : State) : Out :=
  act (decide (handle < 16)) (orHeld (.pdr handle) (tellPdr handle)) s

/-- PLDM_FRU_DATA: order code, stepping B0, serial number. -/
def tellFru (s : State) : State :=
  pldm s 2 (leBytes 1 s.fuse.variant ++ leBytes 1 0xB0 ++ leBytes 16 s.fuse.serial.toNat)

/-- PLDM_FRU_DATA, at once or after a module reset (R643). -/
def execPldmFruData (s : State) : Out :=
  act true (orHeld .fru tellFru) s

/-! ### SPDM (15 R538, R539) -/

/-- An answer over SPDM. -/
def spdm (s : State) (code : Nat) (bytes : List Byte) : State := s.emit (.oob 3 code bytes)

/-- Bytes the spec does not give: a digest of the certificate chain, a signature. -/
def spdmFree (s : State) : Nat → List Byte × State
  | 0 => ([], s)
  | n + 1 =>
    let (v, s) := s.free
    let (l, s) := spdmFree s n
    (leBytes 32 v.toNat ++ l, s)

/-- GET_VERSION: 1.2 and 1.3. -/
def tellVersion (s : State) : State :=
  spdm s 0x84 [0x12, 0x13]

/-- GET_VERSION, at once or after a module reset (R643). -/
def execGetVersion (s : State) : Out :=
  act true (orHeld .version tellVersion) s

/-- GET_CAPABILITIES: certificates, challenge and signed measurements; no key exchange, no sessions, no mutual authentication. -/
def tellCapabilities (s : State) : State :=
  spdm s 0xE1 [0x02, 0x04, 0x10]

/-- GET_CAPABILITIES, at once or after a module reset (R643). -/
def execGetCapabilities (s : State) : Out :=
  act true (orHeld .capabilities tellCapabilities) s

/-- NEGOTIATE_ALGORITHMS: ECDSA P-384 and SHA-384 only. -/
def agreeAlgorithms (s : State) : State :=
  spdm s 0xE3 [0x80, 0x02]

/-- NEGOTIATE_ALGORITHMS, at once or after a module reset (R643). -/
def execNegotiateAlgorithms (s : State) : Out :=
  act true (orHeld .algorithms agreeAlgorithms) s

/-- GET_DIGESTS: the digest of the certificate chain of slot 0. -/
def tellDigests (s : State) : State :=
  let (l, s) := spdmFree s 2
  spdm s 0x81 (l.take 48)

/-- GET_DIGESTS, at once or after a module reset (R643). -/
def execGetDigests (s : State) : Out :=
  act true (orHeld .digests tellDigests) s

/-- GET_CERTIFICATE: slot 0's chain, from the manufacturing data, whose layout the spec does not give. -/
def tellCertificate (s : State) : State :=
  let (l, s) := spdmFree s 2
  spdm s 0x82 l

/-- GET_CERTIFICATE, at once or after a module reset (R643). -/
def execGetCertificate (s : State) : Out :=
  act true (orHeld .certificate tellCertificate) s

/-- CHALLENGE: a signature of 96 bytes. -/
def answerChallenge (s : State) : State :=
  let (l, s) := spdmFree s 3
  spdm s 0x83 l

/-- CHALLENGE, at once or after a module reset (R643). -/
def execChallenge (s : State) : Out :=
  act true (orHeld .challenge answerChallenge) s

/-- Measurement `index` of R538, if it is reported: before the first LOADING after AUX, 1 and 5 alone. -/
def measurement (s : State) (index : Nat) : Option (List Byte) :=
  let d := fun (x : BitVec 384) => (leBytes 48 x.toNat).reverse
  match index with
  | 1 => some (d Config.romDigest)
  | 2 => if s.hub.measured then some (d s.hub.hubDigest) else none
  | 3 => if s.hub.measured then some (d s.hub.digest) else none
  | 4 => if s.hub.measured then some s.hub.meas4 else none
  | 5 => some (if s.hub.measured then s.hub.meas5 else measure5 s)
  | _ => none

/-- GET_MEASUREMENTS: a measurement, or every one reported with index 0xFF, and a signature. -/
def tellMeasurements (index : Nat) (s : State) : State :=
  let l := if index = 0xFF then (List.range 6).filterMap (measurement s) else (measurement s index).toList
  let (sig, s) := spdmFree s 3
  spdm s 0xE0 (l.flatten ++ sig)

/-- GET_MEASUREMENTS, at once or after a module reset (R643). -/
def execGetMeasurements (index : Nat) (s : State) : Out :=
  act (decide (index < 256)) (orHeld (.measurements index) (tellMeasurements index)) s

/-! ### Commands that have waited (19 R643) -/

/-- What a command over I3C does. -/
def oobDo : OobCmd → State → State
  | .entdaa a => takeAddress a
  | .setEndpointId e => setEndpoint e
  | .baseDiscovery => tellTypes
  | .requestUpdate c o l => requestUpdate c o l
  | .transferComplete ok b => transferDone ok b
  | .activateFirmware => activateFirmware
  | .sensor i => readSensor i
  | .effecter e st => setEffecter e st
  | .pdr h => tellPdr h
  | .fru => tellFru
  | .version => tellVersion
  | .capabilities => tellCapabilities
  | .algorithms => agreeAlgorithms
  | .digests => tellDigests
  | .certificate => tellCertificate
  | .challenge => answerChallenge
  | .measurements i => tellMeasurements i

/-- Commands that waited for the end of a module reset are answered in the order in which they came. -/
def answerHeld (s : State) : State :=
  s.oob.held.foldl (fun s c => oobDo c s) { s with oob := { s.oob with held := [] } }

end Sys2Proof.Machine
end

