-- ==== Sys2Proof/Machine/PowerPins.lean ====
section
/-!
DEFINITION. Pins that end a module reset or a start: power good, the main input, the reset input released (20 R652 to R657); commands over
I3C that have waited are then answered (19 R643).
-/
namespace Sys2Proof.Machine

/-- PWR_GOOD_DEASSERT: an orderly power-down from every state after AUX (20 R652): every unit stops, and the reeve releases what is
held at the rate of its fall bucket. -/
def execPwrGoodDeassert (s : State) : Out :=
  act true (whenD s.hub.pwrGood fun s =>
    let s := modHub s fun h => { h with pwrGood := false, resetHeld := false, halted := false, resetReq := none }
    answerHeld <| if s.hub.state == .off || s.hub.state == .aux then s else
    let held := (s.rve.permits.filter fun (e : Nat × Permit) => decide (0 < e.2.held)).map fun (e : Nat × Permit) =>
      (e.1, { e.2 with releasing := true, pend := 0, arrived := none, renew := none, next := none })
    let t := cleared s
    modHub { t with img := s.img, rve := { s.rve with permits := held, clamp := false } } fun h => { h with powerDown := true }) s

/-- MAIN_INPUT_FAULT: the last of 200 consecutive samples outside 46 V to 58 V, in mV (20 R653); not in a power-down nor while power
good is deasserted (20 R655). -/
def execMainInputFault (mv : Nat) (s : State) : Out :=
  act true (whenD ((s.serving || starting s || (s.hub.halted && s.hub.state != .failed)) && s.hub.pwrGood && (decide (mv < 46000) || decide (58000 < mv))) fun s =>
    answerHeld (enterFailed (modHub s fun h => { h with halted := false }) 2 12 0 0xC (leBytes 4 mv))) s

/-- MOD_RESET_RELEASE: LOADING, or POWERING from FAILED, begins if the stop has been waiting for it. -/
def execModResetRelease (strap : Nat) (s : State) : Out :=
  act (decide (strap < 8)) (whenD s.hub.resetHeld fun s =>
    let s := modHub s fun h => { h with resetHeld := false, pins := strap }
    if !s.hub.halted then s
    else if s.hub.state == .failed then answerHeld (enterPowering (modHub s fun h => { h with halted := false }) s.hub.startKind)
    else answerHeld (enterLoading s)) s

end Sys2Proof.Machine
end

