-- ==== Sys2Proof/Machine/SecureEvents.lean ====
section
/-!
DEFINITION. Securing between the members (17 R574 to R585): what arrives, guild commit, losses and the restore; the Dunob snapshot
(R587 to R591). Forms of the packets: log entry 16.
-/
namespace Sys2Proof.Machine

/-! ### What a member holds for others (R577, R579) -/

/-- Keep a half of a mirrored piece of a step. -/
def keepPiece (x : Securing) (h : HeldPiece) : Securing :=
  { x with journal := x.journal.filter (fun e => !(e.rank == h.rank && e.step == h.step && e.va == h.va)) ++ [h] }

/-- Keep a part of a fragment. -/
def keepPart (l : List HeldFrag) (f : HeldFrag) (at_ : Nat) (data : List Byte) : List HeldFrag :=
  let same := fun (e : HeldFrag) => e.rank == f.rank && e.point == f.point && e.idx == f.idx && e.once == f.once
  match l.find? same with
  | none => { f with parts := [(at_, data)] } :: l
  | some e => { e with parts := (e.parts.filter fun p => p.1 != at_) ++ [(at_, data)] } :: l.filter fun e => !same e

/-- The fragment a packet carries a part of. -/
def fragOf (rank : Nat) (p : Packet) : HeldFrag :=
  { rank := rank, point := p.v, idx := p.count % 65536, once := decide (65536 ≤ p.count), bytes := p.addr.toNat / 2 ^ 32 }

/-- Securing data for the granary still waits at this module. -/
def securingWaits (s : State) : Bool := s.link.inbound.any fun e => e.2.2.kind == 6 && decide (e.2.2.op ≤ 1)

/-- Securing data is written to the granary under a GRANARY permit of class BULK (R580; 14 R493), held while more of it waits. -/
def underLeave (s : State) (k : Nat) (f : State → State) : State :=
  if leaveKnown s 2 552 0 = 0 then askLeave s 2 552 0 0 k
  else
    let s := f s
    if securingWaits s then s else giveBack s fun p => p.kind == 2 && p.unit == 552

/-- SECURING_DATA_RECEIVE: a securing packet arrives and is acknowledged; a step's attached signal waits for its pieces (R575, R577). -/
def execSecuringDataReceive (id : Nat) (s : State) : Out :=
  act true (fun s =>
    match Tab.find s.link.inbound id with
    | none => s
    | some (n, p) =>
      if !memRuns s || p.kind != 6 then s else
      match s.guild? p.guild with
      | none => ackBack (dropInbound s id) n p true
      | some g =>
        let k := g.saggar
        let q := rankOf g p.src
        if p.op = 0 then
          underLeave s k fun s =>
            ackBack (modSec (dropInbound s id) k fun x => keepPiece x { rank := q, step := p.v, va := p.addr.toNat, data := p.data }) n p false
        else if p.op = 1 then
          underLeave s k fun s => ackBack (modSec (dropInbound s id) k fun x =>
            { x with frags := keepPart x.frags (fragOf q p) (p.addr.toNat % 2 ^ 32) p.data }) n p false
        else if (((s.saggar k).sec.journal).filter fun e => e.rank == q && e.step == p.v).length < p.count then s
        else ackBack (modSec (dropInbound s id) k fun x => { x with applied := (q, p.v) :: x.applied }) n p false) s

/-! ### Guild commit (R574, R575, R577) -/

/-- Roll the journal into the image up to the older retained point. -/
def rollJournal (x : Securing) : Securing :=
  match x.points[1]? with
  | none => x
  | some o =>
    let done := fun (e : HeldPiece) => reached o e.step && x.applied.contains (e.rank, e.step)
    let image := (x.journal.filter done).foldl (fun (l : List HeldPiece) e => l.filter (fun f => !(f.rank == e.rank && f.va == e.va)) ++ [e]) x.image
    { x with image, journal := x.journal.filter fun e => !done e }

/-- GUILD_COMMIT: every member has reported local commit of the armed point; the STEP that waits for it completes. -/
def execGuildCommit (saggar : Nat) (s : State) : Out :=
  act (decide (saggar < 4096)) (whenD (memRuns s) fun s =>
    let k := saggar
    match secGuildOf s k, (s.saggar k).sec.armed with
    | some (gid, g), some p =>
      let x := (s.saggar k).sec
      if x.lost != [] || !(List.range g.n).all fun q => x.reported.contains (q, p) then s else
      let s := modSec s k fun x => keepRetained (rollJournal { x with
        points := p :: x.points.take 1, armed := none, state := 2, empty := []
        reported := x.reported.filter fun e => e.2 != p, table := x.table.map fun e => { e with old := none } })
      let c := (s.saggar k).cfg
      let s := modSec s k fun x => { x with tolerance := tolerance s g c.parK c.parM [] }
      let s := record s 0x63 552 k (payload [(p.toNat, 96), (gid, 80), (min x.byMirror 65535, 64), (min x.byParity 65535, 48), (x.sentPieces, 0)])
        [k] false
      match x.stallCmd with
      | none => s
      | some (n, pos) =>
        let t := s.watch - x.stall.getD s.watch
        let s := record s 0x64 552 k (payload [(((s.saggar k).step + 1).toNat, 96), (p.toNat, 64), (t, 0)]) [k] false
        let s := modSec s k fun x => { x with stallCmd := none, stall := none }
        finishStep { s with front := { s.front with stallTicks := s.front.stallTicks + BitVec.ofNat 64 t } } n pos false
    | _, _ => s) s

/-- SECURE_MEMBER_DOWN (R581). -/
def execSecureMemberDown (fn req : Nat) (s : State) : Out :=
  mbxRun { code := 0x41, sag := true, used := [fld 18 0 16] } noData (fun s _ r =>
    let k := reqSag r
    let q := rf r 18 0 16
    match secGuildOf s k with
    | none => now stInvalid s
    | some (gid, g) =>
      if (s.saggar k).cfg.secMode != 1 || g.n ≤ q || q = g.rank then now stInvalid s
      else now stOk (memberLost s k gid q (moduleOf g q))) fn req s

/-! ### The manifest (R569, R584), in a form of this model -/

def entBytes (e : SecEnt) : List Byte :=
  leBytes 8 e.va ++ leBytes 8 e.bytes ++ leBytes 2 e.wid ++ leBytes 1 e.kind ++ leBytes 1 (e.method.getD 0xFF) ++ leBytes 1 (e.old.getD 0xFF) ++
    leBytes 1 (if e.sent then 1 else 0) ++ leBytes 4 e.once.toNat ++ leBytes 6 e.onceAt

def optByte (n : Nat) : Option Nat := if n = 0xFF then none else some n

def entOf (l : List Byte) : SecEnt :=
  { va := lf l 0 8, bytes := lf l 8 8, wid := lf l 16 2, kind := lf l 18 1, method := optByte (lf l 19 1), old := optByte (lf l 20 1)
    sent := lf l 21 1 == 1, once := BitVec.ofNat 32 (lf l 22 4), onceAt := lf l 26 6 }

/-- The manifest of a point: the table, and every guild of the saggar with its number at the point and its member list. -/
def manifestBytes (s : State) (k : Nat) (m : PointSave) : List Byte :=
  let gs := s.link.guilds.filter fun (e : Nat × Guild) => e.2.saggar == k
  leBytes 4 m.point.toNat ++ leBytes 2 m.table.length ++ leBytes 2 gs.length ++ m.table.flatMap entBytes ++
  gs.flatMap fun (e : Nat × Guild) =>
    leBytes 2 e.1 ++ leBytes 2 0 ++ leBytes 4 e.2.n ++
    leBytes 4 (((m.seqs.find? fun q => q.1 == e.1).map Prod.snd).getD 0).toNat ++ e.2.members.flatMap fun d => leBytes 8 d.toNat

/-- The guilds of a manifest: ID, sequence number, members. -/
def manifestGuilds (l : List Byte) : Nat → List (Nat × Word × List DWord)
  | 0 => []
  | k + 1 =>
    let n := lf l 4 4
    (lf l 0 2, BitVec.ofNat 32 (lf l 8 4), (List.range n).map fun i => BitVec.ofNat 64 (lf l (12 + 8 * i) 8)) ::
      manifestGuilds (l.drop (12 + 8 * n)) k

/-! ### The restore (R583 to R585) -/

/-- Packets of a restore to rank `q`: collective data of class BULK; `op` 2 part of a fragment, 3 a piece (`count` 0), manifest (1) or
the number of pieces (2). -/
def sendRestore (s : State) (gid : Nat) (g : Guild) (q op count addr : Nat) (v : Word) (data : List Byte) : State :=
  sendRank_ s g q { dest := 0, src := 0, kind := 4, length := (data.length + 31) / 32, addr := BitVec.ofNat 64 addr, guild := gid, v, op, count
                    data }

/-- The mirror of rank `q` at point `p`: the latest half of each piece, up to the point. -/
def mirrorAt (x : Securing) (q : Nat) (p : Word) : List HeldPiece :=
  let l := (x.image ++ x.journal).filter fun e => e.rank == q && reached p e.step && (x.image.contains e || x.applied.contains (q, e.step))
  l.foldl (fun (a : List HeldPiece) e =>
    match a.find? fun f => f.va == e.va with
    | none => a ++ [e]
    | some f => if reached e.step f.step then a.filter (fun f => f.va != e.va) ++ [e] else a) []

/-- The buddy that rebuilds rank `q`: the lowest-ranked survivor that holds its mirror. -/
def rebuildBuddy (s : State) (g : Guild) (m : Nat) (x : Securing) (q : Nat) : Option Nat :=
  (((buddies s g m q).filter fun b => !x.lost.contains b && !x.empty.contains b).foldl (fun a b => insNat b a) []).head?

/-- Send rank `q` what this member holds of it at point `p` (R584). -/
def restoreTo (s : State) (k gid : Nat) (g : Guild) (p : Word) (q : Nat) : State :=
  let x := (s.saggar k).sec
  let fs := x.frags.filter fun f => f.rank == q && (f.once || f.point == p)
  let s := fs.foldl (fun s f => f.parts.foldl (fun s e =>
    sendRestore s gid g q 2 (f.idx + if f.once then 65536 else 0) (2 ^ 32 * f.bytes + e.1) f.point e.2) s) s
  if rebuildBuddy s g (s.saggar k).cfg.parM x q != some g.rank then s else
  let l := mirrorAt x q p
  let s := l.foldl (fun s e => sendRestore s gid g q 3 0 e.va p e.data) s
  sendRestore s gid g q 3 2 l.length p []

/-- Scale a row of the decoding equations. -/
def gfScale (a : Nat) (r : List Nat × List Byte) : List Nat × List Byte :=
  (r.1.map (gfMul a), r.2.map fun b => BitVec.ofNat 8 (gfMul a b.toNat))

def gfAdd (a b : List Nat × List Byte) : List Nat × List Byte :=
  ((a.1.zip b.1).map fun e => e.1 ^^^ e.2, (a.2.zip b.2).map fun e => e.1 ^^^ e.2)

/-- Solve the equations for the data fragments, a column at a time. -/
def gfSolve (done rest : List (List Nat × List Byte)) (c : Nat) : Nat → List (List Nat × List Byte)
  | 0 => done
  | fuel + 1 =>
    match rest.findIdx? fun r => r.1.getD c 0 != 0 with
    | none => done
    | some i =>
      let r := rest.getD i ([], [])
      let r := gfScale (gfInv (r.1.getD c 0)) r
      let clear := fun (e : List Nat × List Byte) => if e.1.getD c 0 = 0 then e else gfAdd e (gfScale (e.1.getD c 0) r)
      gfSolve (done.map clear ++ [r]) ((rest.eraseIdx i).map clear) (c + 1) fuel

/-- A fragment's bytes, if every part is here. -/
def fragBytes (f : HeldFrag) : Option (List Byte) :=
  let t := f.parts.foldl (fun (t : Tab Byte) p => insBytes t p.1 p.2) []
  if t.length = f.bytes then some (tabBytes t f.bytes) else none

/-- The fragments to decode a snapshot from: every surviving data fragment and the lowest parity fragments (R578). -/
def chosenFrags (k : Nat) (l : List HeldFrag) : List (Nat × List Byte) :=
  let l := l.filterMap fun f => (fragBytes f).map fun b => (f.idx, b)
  let data := (List.range k).filterMap fun j => l.find? fun e => e.1 == j
  let par := (List.range 4).filterMap fun i => l.find? fun e => e.1 == k + i
  (data ++ par).take k

/-- The snapshot of `n` bytes from its fragments, if there are enough. -/
def decodeSnap (k n : Nat) (l : List HeldFrag) : Option (List Byte) :=
  if n = 0 then some [] else
  let fs := chosenFrags k l
  if fs.length < k then none else
  let rows := fs.map fun e => ((List.range k).map fun j => if e.1 < k then (if e.1 = j then 1 else 0) else gfCoef k (e.1 - k) j, e.2)
  some (((gfSolve [] rows 0 k).flatMap Prod.snd).take n)

/-- Fragments of this member's own snapshot of a point. -/
def ownFrags (x : Securing) (rank : Nat) (p : Word) (once : Bool) : List HeldFrag :=
  (x.gotFrags ++ x.frags.filter fun f => f.rank == rank).filter fun f => f.point == p && f.once == once

/-- Ranges of parity entries with their places in the snapshot. -/
def parityPlaces : Nat → List SecEnt → List (Nat × Nat × Nat)
  | _, [] => []
  | at_, e :: l => if isParity e then (e.va, e.bytes, at_) :: parityPlaces (at_ + e.bytes) l else parityPlaces at_ l

/-- Every byte to be written, or none while something is missing: parity entries, ONCE entries, then mirrored pieces. -/
def rebuildWrites (x : Securing) (rank parK : Nat) (m : PointSave) : Option (List (Nat × List Byte)) :=
  let pp := parityPlaces 0 m.table
  let total := (pp.map fun e => e.2.1).sum
  match decodeSnap parK total (ownFrags x rank m.point false) with
  | none => none
  | some snap =>
    let par := pp.map fun e => (e.1, (snap.drop e.2.2).take e.2.1)
    let once := (m.table.filter fun e => e.method == some 2 && e.sent).map fun e =>
      let l := ownFrags x rank e.once true
      let n := (l.map fun f => f.bytes).foldl max 0 * parK
      (decodeSnap parK (max n 1) l).map fun b => (e.va, (b.drop e.onceAt).take e.bytes)
    if once.any Option.isNone then none else
    match x.gotEnd with
    | none => none
    | some (p, n) =>
      let l := x.gotPieces.filter fun e => e.step == m.point
      if p ≠ m.point ∨ l.length ≠ n then none
      else some (par ++ once.filterMap id ++ l.map fun e => (e.va, e.data))

/-- Write bytes of the saggar on the account of the securing engine, or of the tier mover for a Dunob snapshot (R589). -/
def secWrite (s : State) (k va : Nat) (l : List Byte) (source : Nat := 552) : State :=
  (engWriteN s { saggar := k, source, own := true, waits := false } (BitVec.ofNat 64 va) l (sectors l.length)).2

/-- Partial slots of every weight are at +0 (R569). -/
def zeroPartials (s : State) (k : Nat) : State :=
  let c := (s.saggar k).cfg
  (List.range c.wgtCount).foldl (fun s i =>
    let e := pieceAt s k (c.wgtTable.toNat + 64 * i) 64
    if wPartial e = 0 then s else secWrite s k (wPartial e).toNat (List.replicate (4 * wElems e * wSlots e) 0)) s

/-- Rebuild this member, once its streams are FREE and everything is here; report to every member (R584). -/
def tryRebuild (s : State) (k : Nat) : State :=
  match secGuildOf s k, (s.saggar k).sec.restore with
  | some (gid, g), some j =>
    if j.rebuilt || streamsOf s k != [] then s else
    match j.manifest with
    | none => s
    | some m =>
      match rebuildWrites (s.saggar k).sec g.rank (s.saggar k).cfg.parK m with
      | none => s
      | some ws =>
        let s := ws.foldl (fun s e => secWrite s k e.1 e.2) s
        let s := cleanPieces (zeroPartials s k) k
        let n := ((ws.map fun e => e.2.length).sum + 4095) / 4096
        let s := newTable (s.modSaggar k fun x => { x with offUsed := 0, offs := [], early := [], offReset := false }) k
        let s := modSec s k fun x => { x with restore := some { j with rebuilt := true, pieces := n }, restored := g.rank :: x.restored }
        sendAll s gid g 6 m.point g.rank 0
  | _, _ => s

/-- Streams of the saggar stop as under STREAM_DESTROY ABORT; their guild commands and gathers end with them (R584). -/
def stopStreams (s : State) (k : Nat) : State :=
  (streamsOf s k).foldl (fun s e =>
    let s := abortStream s e.1
    let s := { s with link := { s.link with jobs := s.link.jobs.filter fun (j : Nat × GJob) => j.2.stream != e.1 } }
    let s := ((s.front.tier.filter fun (j : Nat × TierJob) => j.2.stream == e.1).map Prod.fst).foldl endTier s
    (e.2.gslots.foldl (fun s (x : Nat × GSlot) => dropKeep s k x.2.dest.toNat x.2.bytes) s).modStream e.1 fun x => { x with gslots := [] }) s

/-- Rewrite a member entry under the substitutions: old module, new module, new saggar. -/
def substMember (l : List (Nat × Nat × Nat)) (e : DWord) : DWord :=
  match l.find? fun t => t.1 == bits e.toNat 48 16 with
  | none => e
  | some t => BitVec.ofNat 64 (t.2.1 * 2 ^ 48 + t.2.2 * 2 ^ 36 + e.toNat % 2 ^ 36)

/-- Every guild of the saggar takes the substitutions, and hears its members anew. -/
def substGuilds (s : State) (k : Nat) (l : List (Nat × Nat × Nat)) : State :=
  { s with link := { s.link with guilds := Tab.mapv s.link.guilds fun _ (g : Guild) =>
      if g.saggar = k then { g with members := g.members.map (substMember l), heard := [], early := [] } else g } }

def substsOf (r : Req) : List (Nat × Nat × Nat) :=
  (List.range (rf r 26 0 8)).map fun i => (rf r (32 + 8 * i) 48 16, rf r (32 + 8 * i) 32 16, rf r (32 + 8 * i) 0 12)

/-- Lost ranks that a restore names as returned under their former module ID (R582, R583). -/
def returned (g : Guild) (x : Securing) (subs : List (Nat × Nat × Nat)) : List Nat :=
  x.lost.filter fun q => subs.any fun t => t.1 == t.2.1 && moduleOf g q == t.1

/-- The ranks still lost in a restore: in LOST, a member that returns with what it holds restores the tolerance (R583). -/
def stillLost (g : Guild) (x : Securing) (subs : List (Nat × Nat × Nat)) : List Nat :=
  if x.state = 5 then x.lost.filter fun q => !(returned g x subs).contains q else x.lost

/-- Refusals of SECURE_RESTORE on a survivor (R582, R583). -/
def restoreRefusal (s : State) (k : Nat) (point : Option Word) (subs : List (Nat × Nat × Nat)) : Option Nat :=
  let x := (s.saggar k).sec
  match secGuildOf s k with
  | none => some stInvalid
  | some (_, g) =>
    if x.state = 5 && decide (x.tolerance < (stillLost g x subs).length) then some stLost
    else if x.state != 3 && x.state != 5 then some stBusy
    else if subs.any fun t => !(g.members.any fun e => bits e.toNat 48 16 == t.1) ||
        (t.1 != t.2.1 && (!x.wasSecured || (s.saggar k).cfg.secTest || x.lostRestoring)) then some stInvalid
    else match point with
      | none => some stInvalid
      | some p => if x.points.contains p then none else some stInvalid

/-- SECURE_RESTORE (R583): completes at RESTORE_END. -/
def execSecureRestore (fn req : Nat) (s : State) : Out :=
  mbxRun { code := 0x40, sag := true
           used := [fld 18 0 16, fld 20 0 32, fld 24 0 16, fld 26 0 8] ++ (List.range 4).flatMap fun i => [fld (32 + 8 * i) 0 12, fld (32 + 8 * i) 32 32] }
    noData (fun s fn r =>
      let k := reqSag r
      let g := s.saggar k
      let x := g.sec
      let subs := substsOf r
      let join := rf r 18 0 16
      let step := rf r 20 0 32
      if g.cfg.secMode != 1 || 4 < rf r 26 0 8 || (List.range 4).any fun i => rf r 26 0 8 ≤ i && rf r (32 + 8 * i) 0 64 != 0 then now stInvalid s
      else if join = 0xFFFF then
        let point := if step = 0xFFFFFFFF then x.points.head? else some (BitVec.ofNat 32 step)
        match restoreRefusal s k point subs with
        | some st => now st s
        | none =>
          match secGuildOf s k with
          | none => now stInvalid s
          | some (gid, gd) =>
            let p := point.getD 0
            let lost := stillLost gd x subs
            let s := substGuilds (stopStreams s k) k subs
            let s := modSec s k fun x => { x with
              state := 4, lost, stallCmd := none, stall := none
              restore := some { fn, req := r.n, point := p, substs := subs, manifest := x.saved.find? fun m => m.point == p } }
            let s := match s.guild? gid with
              | none => s
              | some gd => ((List.range gd.n).filter fun q => q != gd.rank && !lost.contains q).foldl (fun s q => restoreTo s k gid gd p q) s
            -- this member's own mirror lies with a buddy; its own fragments are here
            (none, s)
      else if x.state = 2 || x.state = 4 then now stBusy s
      else
        match g.cfg.secGuild with
        | none => now stInvalid s
        | some gid =>
          if g.cfg.parK + g.cfg.parM ≤ join || ((s.guild? gid).any fun gd => gd.saggar != k) then now stInvalid s
          else
            let s := stopStreams s k
            let s := { s with link := { s.link with guilds := s.link.guilds.filter fun (e : Nat × Guild) => e.2.saggar != k } }
            let s := modSec s k fun _ => { state := 4, restore := some { fn, req := r.n, point := BitVec.ofNat 32 step, substs := subs
                                                                         joinRank := join, donor := rf r 24 0 16 } }
            (none, sendRouted s { dest := rf r 24 0 16, src := s.link.fabricId, kind := 5, addr := 0, guild := gid, rank := join
                                  v := BitVec.ofNat 32 step, count := 7 })) fn req s

/-- The saggar whose restore waits for the manifest of a guild. -/
def joiner (s : State) (gid : Nat) : Option (Nat × RestoreJob) :=
  s.front.saggars.findSome? fun (e : Nat × Saggar) =>
    match e.2.sec.restore with
    | some j => if e.2.cfg.secGuild = some gid && j.joinRank != 0xFFFF && j.manifest.isNone then some (e.1, j) else none
    | none => none

/-- A part of the manifest arrives at a joining member: once it is whole, the guilds it lists are bound, and every member is asked for
what it holds; the command ends UNMAPPED when a secured range is not mapped with WRITE (R583, R584). -/
def takeManifest (s : State) (p : Packet) : State :=
  match joiner s p.guild with
  | none => s
  | some (k, j) =>
    let s := modSec s k fun x => { x with gotManifest := insBytes x.gotManifest (p.addr.toNat % 2 ^ 32) p.data }
    let l := (s.saggar k).sec.gotManifest
    if l.length ≠ p.addr.toNat / 2 ^ 32 then s else
    let b := tabBytes l l.length
    let n := lf b 4 2
    let table := (List.range n).map fun i => entOf ((b.drop (8 + 32 * i)).take 32)
    let gs := manifestGuilds (b.drop (8 + 32 * n)) (lf b 6 2)
    if !table.all fun e => rangeMapped s k true e.va e.bytes then
      complete (modSec s k fun _ => {}) j.fn j.req stUnmapped
    else
      let m : PointSave := { point := BitVec.ofNat 32 (lf b 0 4), table, seqs := gs.map fun e => (e.1, e.2.1) }
      let s := gs.foldl (fun s e =>
        let rank := if e.1 = p.guild then some j.joinRank else e.2.2.findIdx? fun d => bits d.toNat 48 16 == s.link.fabricId
        match rank with
        | some q => s.setGuild e.1 { saggar := k, rank := q, n := e.2.2.length, members := e.2.2 }
        | none => s) s
      let s := modSec s k fun x => { x with restore := some { j with manifest := some m, point := m.point }, gotManifest := [] }
      match s.guild? p.guild with
      | some g => sendAll s p.guild g 8 m.point g.rank 0
      | none => s

/-- Data of a restore arrives. -/
def takeRestore (s : State) (p : Packet) : State :=
  if p.op = 3 && p.count = 1 then takeManifest s p else
  match s.guild? p.guild with
  | none => s
  | some g =>
    let k := g.saggar
    let q := rankOf g p.src
    let s := modSec s k fun x =>
      if p.op = 2 then { x with gotFrags := keepPart x.gotFrags (fragOf g.rank p) (p.addr.toNat % 2 ^ 32) p.data }
      else if p.count = 2 then { x with gotEnd := some (p.v, p.addr.toNat) }
      else { x with gotPieces := { rank := q, step := p.v, va := p.addr.toNat, data := p.data } ::
        x.gotPieces.filter fun e => !(e.step == p.v && e.va == p.addr.toNat) }
    tryRebuild s k

/-- COLLECTIVE_DATA_RECEIVE: data of a guild command, or of a restore. -/
def execCollectiveDataReceive (id : Nat) (s : State) : Out :=
  act true (fun s =>
    match Tab.find s.link.inbound id with
    | none => s
    | some (_, p) =>
      if !memRuns s || p.kind != 4 then s
      else if p.op ≤ 1 then hearData (dropInbound s id) p
      else takeRestore (dropInbound s id) p) s

/-- A securing control packet (log entry 16). -/
def hearSecure (s : State) (p : Packet) : State :=
  match s.guild? p.guild with
  | none => s
  | some g =>
    let k := g.saggar
    let x := (s.saggar k).sec
    let q := rankOf g p.src
    match p.count with
    | 2 => if x.lost != [] then s else modSec s k fun x => { x with reported := (q, p.v) :: x.reported.filter fun e => e != (q, p.v) }
    | 3 =>
      let free := freeBytes s k
      if p.addr.toNat ≤ free then sendCtl s p.guild g q 4 p.v g.rank 0 else sendCtl s p.guild g q 5 p.v g.rank free
    | 4 =>
      let fs := x.waiting.filter fun e => e.1 == q && e.2.point == p.v
      let s := modSec s k fun x => { x with waiting := x.waiting.filter fun e => !(e.1 == q && e.2.point == p.v) }
      checkLocal (fs.foldl (fun s e => sendFrag s k p.guild g q e.2) s) k
    | 5 =>
      let need := ((x.waiting.filter fun e => e.1 == q).map fun e => e.2.bytes).sum
      record (modSec s k fun x => { x with noSpace := true }) 0x67 552 k
        (payload [(p.guild, 112), (q, 96), ((need + 65535) / 65536, 48), (p.addr.toNat / 65536, 0)]) [k] false
    | 6 => modSec s k fun x => { x with restored := q :: x.restored.filter fun r => r != q }
    | 8 => (match x.restore with
      | some j => restoreTo s k p.guild g j.point q
      | none => s)
    | _ => s

/-- The donor's manifest goes to the joining rank. -/
def sendManifest (s : State) (p : Packet) (g : Guild) (m : PointSave) : State :=
  let b := manifestBytes s g.saggar m
  (partsOf b).foldl (fun s e => sendRestore s p.guild g p.rank 3 1 (2 ^ 32 * b.length + e.1) m.point e.2) s

/-- COLLECTIVE_CONTROL_RECEIVE: a check of a guild command, or a securing control packet. Requests of a joining member wait until this
member restores. -/
def execCollectiveControlReceive (id : Nat) (s : State) : Out :=
  act true (fun s =>
    match Tab.find s.link.inbound id with
    | none => s
    | some (_, p) =>
      if !memRuns s || p.kind != 5 then s
      else if p.count ≤ 1 then hearCheck (dropInbound s id) p
      else if p.count = 7 || p.count = 8 then
        match s.guild? p.guild with
        | none => dropInbound s id
        | some g =>
          match (s.saggar g.saggar).sec.restore with
          | none => s
          | some j =>
            if p.count = 8 then hearSecure (dropInbound s id) p
            else match j.manifest with
              | none => s
              | some m => sendManifest (dropInbound s id) p g m
      else hearSecure (dropInbound s id) p) s

/-- SECURE_RESTORE_DONE: every member has reported; the saggar is SECURED at the point (R584, R585). -/
def execSecureRestoreDone (saggar : Nat) (s : State) : Out :=
  act (decide (saggar < 4096)) (whenD (memRuns s) fun s =>
    let k := saggar
    let s := tryRebuild s k
    match secGuildOf s k, (s.saggar k).sec.restore with
    | some (gid, g), some j =>
      let x := (s.saggar k).sec
      match j.manifest with
      | none => s
      | some m =>
        if !j.rebuilt || !(List.range g.n).all fun q => x.restored.contains q then s else
        let joined := if j.joinRank = 0xFFFF then x.lost else j.joinRank :: x.lost
        let c := (s.saggar k).cfg
        let tol := tolerance s g c.parK c.parM joined
        let s := { s with link := { s.link with guilds := Tab.mapv s.link.guilds fun i (gd : Guild) =>
          if gd.saggar = k then { gd with seq := ((m.seqs.find? fun (e : Nat × Word) => e.1 == i).map Prod.snd).getD gd.seq } else gd } }
        let s := s.modSaggar k fun y => { y with step := m.point, touched := [], ovfSeen := [] }
        let s := modSec s k fun x => keepRetained { x with
          state := 2, restore := none, restored := [], gotFrags := [], gotPieces := [], gotEnd := none, lost := [], lostRestoring := false
          wasSecured := false, noSpace := false, armed := none, waiting := [], sending := [], reported := [], empty := joined, tolerance := tol
          first := false, steps := 0, table := m.table.map fun e => { e with old := none, dirtySum := 0 }
          points := if x.points.contains m.point then x.points.dropWhile (· != m.point) else [m.point]
          saved := if x.saved.any fun e => e.point == m.point then x.saved else [m]
          journal := x.journal.filter fun e => reached m.point e.step, applied := x.applied.filter fun e => reached m.point e.2 }
        let s := { s with front := { s.front with restores := s.front.restores + 1 } }
        let s := record s 0x69 552 k (payload [(m.point.toNat, 96), (gid, 80), (j.substs.length, 72), (tol, 64), (j.pieces, 0)]) [k] false
        complete s j.fn j.req stOk (leBytes 4 m.point.toNat)
    | _, _ => s) s

/-! ### The Dunob snapshot (R587 to R591) -/

/-- First byte of a slot of the area. -/
def dunobSlot (s : State) (k slot : Nat) : Nat :=
  let c := (s.saggar k).cfg
  c.dunobBase.toNat + slot * (c.dunobSize / 2)

/-- The header of a slot, when its magic and CRC hold: N and the directory entries (address, units, first unit). -/
def dunobHeader (s : State) (k slot : Nat) : Option (Nat × List (Nat × Nat × Nat)) :=
  let a := dunobSlot s k slot
  let h := readVa s k a 16
  if lf h 0 4 ≠ 0x444E4231 then none else
  let n := lf h 8 4
  if 65535 < n then none else
  let d := readVa s k (a + 16) (16 * n)
  if crc32 d ≠ lf h 12 4 then none
  else some (lf h 4 4, (List.range n).map fun i => (lf d (16 * i) 8 % 2 ^ 57, lf d (16 * i + 8) 4, lf d (16 * i + 12) 4))

/-- Entries of a snapshot: address, bytes, units, first unit. -/
def dunobPlan : Nat → List SecEnt → List (Nat × Nat × Nat × Nat)
  | _, [] => []
  | u, e :: l =>
    if e.kind = 4 then dunobPlan u l else
    let n := (e.bytes + mib - 1) / mib
    (e.va, e.bytes, n, u) :: dunobPlan (u + n) l

/-- The units of a snapshot's entries, each entry's last padded with zeros; a copy that meets an error ends it (R590, 16 R547). -/
def dunobUnits (s : State) (k a : Nat) : List (Nat × Nat × Nat × Nat) → Option AccErr × State
  | [] => (none, s)
  | (va, n, units, first) :: l =>
    let dst := a + first * mib
    match engCopy s { saggar := k, source := 548, own := true, waits := false } (BitVec.ofNat 64 va) (BitVec.ofNat 64 dst) n (sectors n) with
    | (none, s) => dunobUnits (secWrite s k (dst + n) (List.replicate (units * mib - n) 0) 548) k a l
    | e => e

/-- DUNOB_SNAPSHOT_WRITTEN: no other stream has a command begun and not completed: the units and then the header are written, and the
STEP completes. A unit that cannot be read faults the stream (16 R547). -/
def execDunobSnapshotWritten (saggar : Nat) (s : State) : Out :=
  act (decide (saggar < 4096)) (whenD (memRuns s && !s.frozen) fun s =>
    let k := saggar
    match (s.saggar k).sec.dunob with
    | none => s
    | some j =>
      if (streamsOf s k).any fun e => e.1 != j.stream && !allDone e.2 then s else
      let c := (s.saggar k).cfg
      let plan := dunobPlan 1 (s.saggar k).sec.table
      let units := 1 + (plan.map fun e => e.2.2.1).sum
      let s := modSec s k fun x => { x with dunob := none }
      if c.dunobSize / 2 < units * mib then frontFault s j.stream fLaunch 0xFFFFF 0xFFF else
      let slot := j.n.toNat % 2
      let a := dunobSlot s k slot
      let s := secWrite s k a (List.replicate 4 0) 548
      match dunobUnits s k a plan with
      | (some _, s) => frontFault s j.stream fOperand 0xFFFFF 0xFFF
      | (none, s) =>
      let d := plan.flatMap fun e => leBytes 8 e.1 ++ leBytes 4 e.2.2.1 ++ leBytes 4 e.2.2.2
      let s := secWrite s k a (leBytes 4 0x444E4231 ++ leBytes 4 j.n.toNat ++ leBytes 4 plan.length ++ leBytes 4 (crc32 d) ++ d) 548
      let s := record s 0x6A 552 k (payload [(j.n.toNat, 96), (slot, 95), (units, 64), (s.gts - j.since.toNat, 0)]) [k] false
      processStep s j.stream j.pos) s

/-- Error-feedback buffers are at +0 (07 R272). -/
def zeroFeedback (s : State) (k : Nat) : State :=
  let c := (s.saggar k).cfg
  (List.range c.wgtCount).foldl (fun s i =>
    let e := pieceAt s k (c.wgtTable.toNat + 64 * i) 64
    if wEf e = 0 then s else secWrite s k (wEf e).toNat (List.replicate (4 * wElems e) 0)) s

/-- SNAPSHOT_LOAD: every unit goes back to its address, the counter is N, re-warm begins (R591). -/
def execSnapshotLoad (fn req : Nat) (s : State) : Out :=
  mbxRun { code := 0x42, sag := true, used := [fld 18 0 8] } noData (fun s _ r =>
    let k := reqSag r
    let slot := rf r 18 0 8
    if (s.saggar k).cfg.secMode != 2 || 1 < slot then now stInvalid s
    else if (streamsOf s k).any fun e => !allDone e.2 then now stBusy s
    else match dunobHeader s k slot with
      | none => now stInvalid s
      | some (n, l) =>
        let a := dunobSlot s k slot
        let s := l.foldl (fun s e => secWrite s k e.1 (readVa s k (a + e.2.2 * mib) (e.2.1 * mib))) s
        let s := s.modSaggar k fun g => { g with step := BitVec.ofNat 32 n }
        now stOk (newTable (zeroFeedback (rewarmReset s k 0) k) k) (leBytes 4 n)) fn req s

end Sys2Proof.Machine
end

