-- ==== Sys2Proof/Machine/Registers.lean ====
section
/-!
DEFINITION. Register writes (00 R16 to R18, 19 R629 to R631, R639): what each RW, W1C and W1S field of every block does. A field with a
row of its own runs that row's effect.
-/
namespace Sys2Proof.Machine

/-- Run `f` on the state another effect answered. -/
def thenDo (o : Out) (f : State → Out) : Out :=
  match o with
  | .next t => f t
  | .fault x => .fault x
  | .refused x => .refused x

/-- A plain register change. -/
def regSet (f : State → State) (s : State) : Out := act true f s

/-- A 64-bit register after an access that reaches it: whole, its low half, or its high half (00 R17). -/
def wide (old : DWord) (off base : Nat) (w64 : Bool) (v : DWord) : Option DWord :=
  if off = base then some (if w64 then v else BitVec.ofNat 64 (old.toNat / 2 ^ 32 * 2 ^ 32 + v.toNat % 2 ^ 32))
  else if off = base + 4 && !w64 then some (BitVec.ofNat 64 (v.toNat % 2 ^ 32 * 2 ^ 32 + old.toNat % 2 ^ 32))
  else none

/-- HUB_SCRATCH_k (19 R644). -/
def writeHub (off : Nat) (w64 : Bool) (v : DWord) (s : State) : Out :=
  if 0x210 ≤ off && off < 0x220 && !w64 then
    regSet (fun s => { s with hub := { s.hub with scratch := Tab.put 0 s.hub.scratch ((off - 0x210) / 4) (v.setWidth 32) } }) s
  else ignored s

/-- TIM_PAIR_CTL (02 R68, R71). -/
def writeTim (off : Nat) (w64 : Bool) (v : DWord) (s : State) : Out :=
  if off = 0x60 && !w64 then
    thenDo (regSet (fun s => modTime s fun t => { t with onGenlock := v.getLsbD 2, onSecond := v.getLsbD 1 }) s) fun s =>
      if v.getLsbD 0 then execTimPairCapture s else ignored s
  else ignored s

/-- FEN_INT_STATUS, FEN_INT_ENABLE, FEN_RECOVER (16 R561, R563, R564). -/
def writeFen (off : Nat) (w64 : Bool) (v : DWord) (s : State) : Out :=
  if w64 then ignored s
  else if off = 4 then regSet (fun s => { s with fen := { s.fen with intStatus := s.fen.intStatus &&& ~~~(v.setWidth 4) } }) s
  else if off = 8 then regSet (fun s => { s with fen := { s.fen with intEnable := v.setWidth 4 } }) s
  else if off = 0x100 then execFenRecover (v.setWidth 32) s
  else ignored s

/-- LNK_PORT_CTL_n (13 R490). -/
def writeLnk (off : Nat) (w64 : Bool) (v : DWord) (s : State) : Out :=
  if w64 || off < 0x1000 || 0x3000 ≤ off || off % 0x100 != 0 then ignored s
  else if v.getLsbD 0 then execLnkPortEnable ((off - 0x1000) / 0x100) s
  else execLnkPortDisable ((off - 0x1000) / 0x100) s

/-- CTG_STATUS_c.HISTORY_LOST (13 R491). -/
def writeCtg (off : Nat) (w64 : Bool) (v : DWord) (s : State) : Out :=
  if w64 || 0x800 ≤ off || off % 0x100 != 0 || !v.getLsbD 3 then ignored s
  else regSet (fun s => s.setCtg (off / 0x100) { s.ctg (off / 0x100) with historyLost := false }) s

/-- FRM_FLOW_CTL_f (12 R452). -/
def writeFrm (off : Nat) (w64 : Bool) (v : DWord) (s : State) : Out :=
  if w64 || 0x800 ≤ off || off % 0x100 != 0 then ignored s
  else if v.getLsbD 0 then execFrmFlowEnable (off / 0x100) s
  else execFrmFlowDisable (off / 0x100) s

/-- GRN_PORT_CTL_n and GRN_PORT_STATUS_n.REFUSED (08 R330); absent on C384 (00 R9). -/
def writeGrn (off : Nat) (w64 : Bool) (v : DWord) (s : State) : Out :=
  let n := (off - 0x1000) / 0x100
  if w64 || off < 0x1000 || 0x1400 ≤ off || !hasGrn s n then ignored s
  else if off % 0x100 = 0 then (if v.getLsbD 0 then execGrnPortEnable n s else execGrnPortDisable n s)
  else if off % 0x100 = 4 && v.getLsbD 8 then regSet (fun s => s.setGrn n { s.grn n with refused := false }) s
  else ignored s

/-- A tally configuration as written: OVF is W1C, reserved bits stay zero (18 R622). -/
def tallyCfg (old v : Word) : Word := (v &&& 0xDFFF01FF) ||| (old &&& 0x20000000 &&& ~~~v)

/-- A write at offset `off` of the 32 bytes of tally `i` of `w` (18 R621, R622). -/
def writeTallyAt (w i off : Nat) (w64 : Bool) (v : DWord) (s : State) : Out :=
  let t := tallyOf s w i
  if off = 0 && !w64 then regSet (fun s => setTally s w i { t with cfg := tallyCfg t.cfg (v.setWidth 32) }) s
  else if off = 4 && !w64 && w < 192 then regSet (fun s => setTally s w i { t with mtch := v.setWidth 32 }) s
  else if off = 8 && !w64 && w < 192 then regSet (fun s => setTally s w i { t with mask := v.setWidth 32 }) s
  else match wide t.value off 0x10 w64 v with
    | some x => execTallyWrite w i x s
    | none => ignored s

/-- A wheel window: WHL_CTL, WHL_LAST_FAULT.VALID, tallies (03 R119, 18 R622); a fused-off wheel ignores writes (00 R6). -/
def writeWhl (w off : Nat) (w64 : Bool) (v : DWord) (s : State) : Out :=
  if !s.present w then ignored s
  else if off = 0 && !w64 then
    thenDo (if v.getLsbD 0 then execWhlCtlEnable w s else execWhlCtlDisable w s) fun s =>
      if v.getLsbD 1 then execWhlCtlEvict w s else ignored s
  else if off = 0x30 && v.getLsbD 0 then
    regSet (fun s => s.modWheel w fun x => { x with ctl := { x.ctl with lastFault := x.ctl.lastFault &&& ~~~1#64 } }) s
  else if 0x1000 ≤ off && off < 0x1400 then writeTallyAt w ((off - 0x1000) / 0x20) (off % 0x20) w64 v s
  else ignored s

/-- DBG_STOP_CTL: BY_MEDIA first, then the bits that act (18 R612, R617, R621). -/
def writeStopCtl (v : DWord) (s : State) : Out :=
  thenDo (regSet (fun s => { s with dbg := { s.dbg with byMedia := v.getLsbD 3 } }) s) fun s =>
    thenDo (if v.getLsbD 2 then execDbgStopCancel s else ignored s) fun s =>
      thenDo (if v.getLsbD 1 then execDbgStopResume s else ignored s) fun s =>
        if v.getLsbD 0 then execDbgStopArm (v.getLsbD 3) s else ignored s

/-- A 64-bit register of the debug controller. -/
def writeWide (old : State → DWord) (set : State → DWord → State) (off base : Nat) (w64 : Bool) (v : DWord) (s : State) : Out :=
  match wide (old s) off base w64 v with
  | some x => regSet (fun s => set s x) s
  | none => ignored s

/-- Watchpoint `i`, offset within its 64 bytes (18 R609 to R611, R621). -/
def writeWatch (i off : Nat) (w64 : Bool) (v : DWord) (s : State) : Out :=
  if off = 0 && !w64 then regSet (fun s => writeWatchCtl s i (v.setWidth 32)) s
  else if off = 8 || off = 12 then
    writeWide (fun s => (watchpoint s i).base.setWidth 64) (fun s x => setWatch s i { watchpoint s i with base := x.setWidth 57 }) off 8 w64 v s
  else
    writeWide (fun s => (watchpoint s i).limit.setWidth 64) (fun s x => setWatch s i { watchpoint s i with limit := x.setWidth 57 }) off 0x10
      w64 v s

/-- DBG_SAMPLE_CTL: an INTERVAL outside 16 to 40 is ignored (18 R621). -/
def writeSample (v : DWord) (s : State) : State :=
  let n := v.toNat % 64
  { s with dbg := { s.dbg with sampleOn := v.getLsbD 31, interval := if 16 ≤ n ∧ n ≤ 40 then n else s.dbg.interval } }

/-- The debug block (18 R621). -/
def writeDbg (off : Nat) (w64 : Bool) (v : DWord) (s : State) : Out :=
  if 0x1000 ≤ off && off < 0x2000 then writeWatch ((off - 0x1000) / 0x40) (off % 0x40) w64 v s
  else if 0x2000 ≤ off && off < 0x2800 then writeTallyAt 192 ((off - 0x2000) / 0x20) (off % 0x20) w64 v s
  else if off = 0 && !w64 then writeStopCtl v s
  else if off = 4 && !w64 then
    regSet (fun s => { s with dbg := { s.dbg with armError := s.dbg.armError && !v.getLsbD 3 } }) s
  else if off = 8 || off = 12 then
    writeWide (fun s => s.dbg.t) (fun s x => { s with dbg := { s.dbg with t := x } }) off 8 w64 v s
  else if off = 0x10 || off = 0x14 then
    writeWide (fun s => s.dbg.mtSec) (fun s x => { s with dbg := { s.dbg with mtSec := x &&& 0xFFFFFFFFFFFF } }) off 0x10 w64 v s
  else if off = 0x18 && !w64 then regSet (fun s => { s with dbg := { s.dbg with mtNs := v.setWidth 32 } }) s
  else if off = 0x20 || off = 0x24 then
    writeWide (fun s => s.dbg.u) (fun s x => { s with dbg := { s.dbg with u := x } }) off 0x20 w64 v s
  else if off = 0x30 && !w64 then regSet (writeSample v) s
  else if off = 0x48 && !w64 then regSet (fun s => { s with dbg := { s.dbg with sel := v.toNat % 2 ^ 19 } }) s
  else ignored s

/-- The shared register map of BAR_0 (19 R629). -/
def writeBar0 (addr : Nat) (w64 : Bool) (v : DWord) (s : State) : Out :=
  if addr < 0x100000 then writeHub addr w64 v s
  else if addr < 0x200000 then ignored s
  else if addr < 0x300000 then writeTim (addr - 0x200000) w64 v s
  else if addr < 0x400000 then writeFen (addr - 0x300000) w64 v s
  else if addr < 0x500000 then ignored s
  else if addr < 0x600000 then writeLnk (addr - 0x500000) w64 v s
  else if addr < 0x700000 then writeCtg (addr - 0x600000) w64 v s
  else if addr < 0x800000 then writeFrm (addr - 0x700000) w64 v s
  else if addr < 0x1000000 then writeDbg (addr - 0x800000) w64 v s
  else if addr < 0x2000000 then writeWhl ((addr - 0x1000000) / 0x10000) (addr % 0x10000) w64 v s
  else if 0x3000000 ≤ addr && addr < 0x4000000 then writeGrn (addr - 0x3000000) w64 v s
  else ignored s

/-- BAR_2 of a function: doorbell slots and the mailbox window (19 R629 to R632). -/
def writeBar2 (fn addr : Nat) (w64 : Bool) (v : DWord) (s : State) : Out :=
  if addr < 0xFFF000 then (if addr % 64 = 0 then execDoorbellWrite fn (addr / 64) v w64 s else ignored s)
  else
    let off := addr - 0xFFF000
    if off = 0 && !w64 then execMbxReqTailWrite fn (v.setWidth 32) s
    else if off = 0xC && !w64 then execMbxCplHeadWrite fn (v.setWidth 32) s
    else if off = 0x10 && !w64 && v.getLsbD 1 then regSet (fun s => s.setMbx fn { s.mbx fn with rejected := false }) s
    else if 0x400 ≤ off && off < 0xC00 then
      regSet (fun s => s.setMbx fn { s.mbx fn with
        slots := putBytes (s.mbx fn).slots (off - 0x400) (leBytes (if w64 then 8 else 4) v.toNat) }) s
    else ignored s

/-- Vectors a function owns (19 R639). -/
def fnVectors (fn : Nat) : Nat := if fn = 0 then 256 else 7

/-- One 32-bit word of an MSI-X table entry: address, data, or the mask bit, whose clearing sends what is pending (19 R639, R640). -/
def writeMsixWord (vec word : Nat) (v : Word) (s : State) : Out :=
  let m := Tab.get {} s.host.msix vec
  let set := fun (m : Msix) (s : State) => { s with host := { s.host with msix := Tab.put {} s.host.msix vec m } }
  if word = 0 then regSet (set { m with addr := BitVec.ofNat 64 (m.addr.toNat / 2 ^ 32 * 2 ^ 32 + v.toNat) }) s
  else if word = 1 then regSet (set { m with addr := BitVec.ofNat 64 (v.toNat * 2 ^ 32 + m.addr.toNat % 2 ^ 32) }) s
  else if word = 2 then regSet (set { m with data := v }) s
  else if v.getLsbD 0 then regSet (set { m with masked := true }) s
  else execMsixUnmask vec s

/-- BAR_4 of a function: its MSI-X table; the pending bits are read only (19 R639). -/
def writeBar4 (fn addr : Nat) (w64 : Bool) (v : DWord) (s : State) : Out :=
  if addr / 16 < fnVectors fn && fnVector fn + addr / 16 < 2041 then
    let vec := fnVector fn + addr / 16
    let word := addr % 16 / 4
    thenDo (writeMsixWord vec word (v.setWidth 32) s) fun s =>
      if w64 then writeMsixWord vec (word + 1) ((v >>> 32).setWidth 32) s else ignored s
  else ignored s

/-- REGISTER_WRITE: an aligned access of 32 or 64 bits; BAR_0 belongs to the physical function (R17, 19 R629, R630). -/
def execRegisterWrite (bar fn addr : Nat) (width64 : Bool) (value : DWord) (s : State) : Out :=
  if 256 ≤ fn || !hostUp s || !fnExists s fn || addr % (if width64 then 8 else 4) != 0 then ignored s
  else if bar = 0 && fn = 0 && addr < 2 ^ 26 then writeBar0 addr width64 value s
  else if bar = 2 && addr < 2 ^ 24 then writeBar2 fn addr width64 value s
  else if bar = 4 && addr < 2 ^ 16 then writeBar4 fn addr width64 value s
  else ignored s

end Sys2Proof.Machine
end

