-- ==== Sys2Proof/Machine/Trav.lean ====
section
/-!
DEFINITION. The traversal unit, class 0x1C (06 R242 to R252).

Tests are exact: every finite FP32 value is an integer multiple of 2^-149, and distances are fractions of integers.
-/
namespace Sys2Proof.Machine

/-- A finite FP32 value in units of 2^-149. -/
def fix32 (w : Word) : Option Int :=
  match f32 w with
  | .fin n m e => let k : Int := m * 2 ^ (e + 149).toNat; some (if n then -k else k)
  | _ => none

/-- A fraction with positive denominator. -/
structure Frac where
  num : Int
  den : Nat
  deriving DecidableEq, Repr

def Frac.le (a b : Frac) : Bool := decide (a.num * b.den ≤ b.num * a.den)
def Frac.lt (a b : Frac) : Bool := decide (a.num * b.den < b.num * a.den)
def Frac.mk' (n d : Int) : Frac := if d < 0 then { num := -n, den := d.natAbs } else { num := n, den := d.natAbs }
/-- Nearest FP32 code. -/
def Frac.toF32 (a : Frac) : Word :=
  let (m, e, st) := quotBits a.num.natAbs a.den 40
  if a.num = 0 then 0 else BitVec.ofNat 32 (fp32.pack 0 false (.fin (decide (a.num < 0)) m e) st).code

/-- A ray (R242): origin and direction in units of 2^-149, tmin and tmax as FP32. -/
structure Ray where
  o : List Int
  d : List Int
  tmin : Word
  tmax : Word

/-- The ray of eight registers, or none for one that misses at once (R242) or is not finite. -/
def rayOf (l : List Word) : Option Ray :=
  let g := fun k => fix32 (l.getD k 0)
  match g 0, g 1, g 2, g 4, g 5, g 6 with
  | some a, some b, some c, some d, some e, some f =>
    let tmin := l.getD 3 0
    let tmax := l.getD 7 0
    if (f32 tmin).isNan || (f32 tmax).isNan || (d == 0 && e == 0 && f == 0) || !(f32 tmin).lt (f32 tmax) then none
    else some { o := [a, b, c], d := [d, e, f], tmin, tmax }
  | _, _, _, _, _, _ => none

/-- A NaN component, a zero direction, or tmin ≥ tmax (R242). A ray with an infinite origin or direction is none of
these: no result is stated for it. -/
def missAtOnce (l : List Word) : Bool :=
  l.any (fun w => (f32 w).isNan) || ([4, 5, 6].all fun k => (f32 (l.getD k 0)).isZero) || !(f32 (l.getD 3 0)).lt (f32 (l.getD 7 0))

/-- A distance held in FP32 as a bound: `none` when infinite. -/
def boundOf (w : Word) : Option Frac := (fix32 w).map fun k => { num := k, den := 2 ^ 149 }

/-! ### Boxes (R243, R245) -/

/-- One axis of a child's box: low and high bound in units of 2^-149, `none` when not finite. -/
def axisBound (origin : Word) (ex : Int) (qlo qhi : Byte) : Option Int × Option Int :=
  let v := fun (q : Byte) (mode : Nat) =>
    fix32 (BitVec.ofNat 32 (fp32.pack mode false ((f32 origin).add (.fin false q.toNat ex))).code)
  (v qlo 2, v qhi 3)

/-- Meet an interval of distances with one slab: entry and exit (`none` infinite), or no meeting. -/
def slab (o d : Int) (b : Option Int × Option Int) (iv : Option Frac × Option Frac) : Option (Option Frac × Option Frac) :=
  if d = 0 then
    (if (match b.1 with
        | some l => decide (l ≤ o)
        | none => true) && (match b.2 with
        | some h => decide (o ≤ h)
        | none => true) then some iv else none)
  else
    let t := fun (p : Option Int) => p.map fun x => Frac.mk' (x - o) d
    let (n, f) := if 0 < d then (t b.1, t b.2) else (t b.2, t b.1)
    let en := match iv.1, n with
      | none, x => x
      | x, none => x
      | some a, some b => some (if a.lt b then b else a)
    let ex := match iv.2, f with
      | none, x => x
      | x, none => x
      | some a, some b => some (if a.lt b then a else b)
    some (en, ex)

/-- Widen a distance by the unit's slack, down or up. -/
def widen (k : Nat) (up : Bool) (a : Frac) : Frac :=
  let m : Int := a.num.natAbs * k
  { num := a.num * 2 ^ 24 + (if up then m else -m), den := a.den * 2 ^ 24 }

def leO (a b : Option Frac) (dflt : Bool) : Bool :=
  match a, b with
  | some x, some y => x.le y
  | _, _ => dflt

/-- A child that a ray visits: entry distance (`none` −∞), reference, triangles of a leaf. -/
structure Visit where
  entry : Option Frac
  slot : Nat
  kind : Nat
  index : Nat
  tris : Nat

/-- Entry distance order: nearest first, lower slot first on a tie. -/
def Visit.before (a b : Visit) : Bool :=
  match a.entry, b.entry with
  | none, none => decide (a.slot < b.slot)
  | none, some _ => true
  | some _, none => false
  | some x, some y => x.lt y || (x.le y && decide (a.slot < b.slot))

def insVisit (v : Visit) : List Visit → List Visit
  | [] => [v]
  | u :: l => if v.before u then v :: u :: l else u :: insVisit v l

/-- A node's children in the order they are popped; `none` for a malformed node (R252). -/
def childrenOf (bs : List Byte) (addr : Nat) (r : Ray) (best : Word) : Option (List Visit) :=
  let b := fun k => bs.getD k 0
  let w := fun k => (BitVec.ofNat 32 (leNat ((bs.drop k).take 4)) : Word)
  let cnt := (b 15).toNat % 16
  if (b 15).toNat / 16 ≠ 1 ∨ cnt = 0 ∨ 8 < cnt then none else
  (List.range cnt).foldl (fun (acc : Option (List Visit)) s =>
    match acc with
    | none => none
    | some l =>
      let ref := (w (64 + 4 * s)).toNat
      let kind := ref / 2 ^ 30
      let tris := bits (w 96).toNat (4 * s) 4
      if kind = 2 then none
      else if kind = 1 && (tris == 0 || decide (8 < tris)) then none
      else if kind = 3 then some l
      else
        let iv := (List.range 3).foldl (fun (iv : Option (Option Frac × Option Frac)) a =>
          match iv with
          | none => none
          | some iv => slab (r.o.getD a 0) (r.d.getD a 0)
              (axisBound (w (4 * a)) (sbyte (b (12 + a))) (b (16 + 6 * s + a)) (b (16 + 6 * s + 3 + a))) iv)
          (some (none, none))
        match iv with
        | none => some l
        | some (en, ex) =>
          let k := Config.boxSlack addr s
          let en := en.map (widen k false)
          let ex := ex.map (widen k true)
          if leO en ex true && leO (boundOf r.tmin) ex true && leO en (boundOf best) true then
            some (insVisit { entry := en, slot := s, kind, index := ref % 2 ^ 30, tris } l)
          else some l) (some [])

/-! ### Triangles (R244, R246, R247) -/

def cross (a b : List Int) : List Int :=
  let g := fun (l : List Int) k => l.getD k 0
  [g a 1 * g b 2 - g a 2 * g b 1, g a 2 * g b 0 - g a 0 * g b 2, g a 0 * g b 1 - g a 1 * g b 0]
def dot (a b : List Int) : Int := ((a.zip b).map fun p => p.1 * p.2).foldl (· + ·) 0
def vsub (a b : List Int) : List Int := (a.zip b).map fun p => p.1 - p.2

/-- The axis of the direction's largest component. -/
def mainAxis (d : List Int) : Nat :=
  let a := fun k => (d.getD k 0).natAbs
  if a 1 ≤ a 0 && a 2 ≤ a 0 then 0 else if a 2 ≤ a 1 then 1 else 2

/-- A vector projected along the ray. -/
def project (d v : List Int) : Int × Int :=
  let z := mainAxis d
  let x := (z + 1) % 3
  let y := (z + 2) % 3
  let g := fun (l : List Int) k => l.getD k 0
  let sg : Int := if g d z < 0 then -1 else 1
  (sg * (g v x * g d z - g d x * g v z), sg * (g v y * g d z - g d y * g v z))

/-- The edge from `a` to `b`, in the triangle's own winding, takes the points on it: of the two ways along an edge exactly one does, so that
of two triangles of consistent winding that share it exactly one has them, whichever way each faces (R246); which one is the model's choice (log entry 101). -/
def topLeft (d a b : List Int) : Bool :=
  let e := project d (vsub b a)
  decide (e.2 < 0) || (e.2 == 0 && decide (e.1 < 0))

/-- A hit: t, u, v, back face. -/
structure TriHit where
  t : Frac
  u : Frac
  v : Frac
  back : Bool

/-- Test a ray against a triangle (R246). -/
def triTest (r : Ray) (v0 v1 v2 : List Int) : Option TriHit :=
  let a := vsub v0 r.o
  let b := vsub v1 r.o
  let c := vsub v2 r.o
  let n := cross (vsub v1 v0) (vsub v2 v0)
  let det := dot r.d n
  if det = 0 then none else
  let e0 := dot r.d (cross b c)
  let e1 := dot r.d (cross c a)
  let e2 := dot r.d (cross a b)
  let inside := fun (e : Int) (x y : List Int) =>
    if e = 0 then topLeft r.d x y else decide (0 < e) == decide (0 < det)
  if inside e0 v1 v2 && inside e1 v2 v0 && inside e2 v0 v1 then
    some { t := Frac.mk' (dot n a) det, u := Frac.mk' e1 det, v := Frac.mk' e2 det, back := decide (0 < det) }
  else none

/-- A fraction of [0, 1] as UNORM16, rounded to nearest. -/
def unorm16 (a : Frac) : Nat := ((2 * a.num.toNat * 65535 + a.den) / (2 * a.den)) % 65536

/-- The best hit held: t, geometry, primitive, back face, u, v. -/
structure Best where
  t : Word
  hit : Option (Nat × Nat × Bool × Nat × Nat) := none

/-- One triangle record against the best hit (R247). -/
def tryTri (r : Ray) (cullBack cullFront : Bool) (bs : List Byte) (b : Best) : Best × Bool :=
  let w := fun k => (BitVec.ofNat 32 (leNat ((bs.drop k).take 4)) : Word)
  match (List.range 9).mapM fun k => fix32 (w (4 * k)) with
  | none => (b, false)
  | some l =>
    match triTest r (l.take 3) ((l.drop 3).take 3) (l.drop 6) with
    | none => (b, false)
    | some h =>
      if (h.back && cullBack) || (!h.back && cullFront) then (b, false) else
      let t := h.t.toF32
      let g := (w 40).toNat % 2 ^ 31
      let p := (w 36).toNat
      let lower := match b.hit with
        | none => false
        | some (g', p', _) => decide (g < g') || (g == g' && decide (p < p'))
      if !(f32 t).lt (f32 r.tmin) && ((f32 t).lt (f32 b.t) || (lower && (f32 t).eq (f32 b.t))) then
        ({ t, hit := some (g, p, h.back, unorm16 h.u, unorm16 h.v) }, true)
      else (b, false)

/-! ### The walk (R248, R249, R252) -/

/-- A fetch of a node's line misses L1. -/
def nodeMisses (s : State) (w k : Nat) (a : DWord) : Bool :=
  match translate s k a with
  | none => false
  | some (pa, _) => (List.range 4).any fun j => ((l1Sector s w (pa + 32 * j)).filter fun e => e.saggar == k).isNone

/-- Counts of a walk: nodes, nodes fetched past L1, boxes, triangles. -/
structure TravCount where
  nodes : Nat := 0
  misses : Nat := 0
  boxes : Nat := 0
  tris : Nat := 0

/-- Test a leaf's triangles in record order. -/
def leafTest (s : State) (w k : Nat) (q : TravQuery) (r : Ray) (a : DWord) (b : Best) : Nat → Except Nat (Best × Bool)
  | 0 => .ok (b, false)
  | n + 1 =>
    match viewBytes s w k a 64 with
    | .error e => .error e
    | .ok bs =>
      let (b, acc) := tryTri r q.cullBack q.cullFront bs b
      if acc && q.anyHit then .ok (b, true) else leafTest s w k q r (a + 64) b n

/-- Pop and test until the stack is empty; `none` when the fuel runs out. -/
def walk (s : State) (w k : Nat) (q : TravQuery) (r : Ray) : Nat → List Visit → Best → TravCount → Option (Except Nat (Best × TravCount × Bool))
  | 0, _, _, _ => none
  | fuel + 1, stack, b, c =>
    match stack with
    | [] => some (.ok (b, c, false))
    | v :: rest =>
      if !leO v.entry (boundOf b.t) true then walk s w k q r fuel rest b c
      else if v.kind = 1 then
        match leafTest s w k q r (q.root + BitVec.ofNat 64 (64 * v.index)) b v.tris with
        | .error e => some (.error e)
        | .ok (b, fin) =>
          let c := { c with tris := c.tris + v.tris }
          if fin then some (.ok (b, c, true)) else walk s w k q r fuel rest b c
      else
        let a := q.root + BitVec.ofNat 64 (128 * v.index)
        match viewBytes s w k a 128 with
        | .error e => some (.error e)
        | .ok bs =>
          match childrenOf bs a.toNat r b.t with
          | none => some (.error fTravNode)
          | some l =>
            if 256 < rest.length + l.length then some (.error fTravStack)
            else walk s w k q r fuel (l ++ rest) b { c with nodes := c.nodes + 1, misses := c.misses + (if nodeMisses s w k a then 1 else 0), boxes := c.boxes + (bs.getD 15 0).toNat % 16 }

/-- The four result registers (R242). -/
def travResult (b : Best) : List Word :=
  match b.hit with
  | none => [0x7F800000, 0xFFFFFFFF, 0, 0]
  | some (g, p, back, u, v) =>
    [b.t, BitVec.ofNat 32 p, BitVec.ofNat 32 ((if back then 2 ^ 31 else 0) + g), BitVec.ofNat 32 (u * 65536 + v)]

def putResult (c : Crew) (lane d : Nat) (l : List Word) : Crew :=
  ((List.range 4).zip l).foldl (fun c e => setReg c lane (d + e.1) e.2) c

/-- TRAV: one query for each executing thread (R242, R250). On C384, which has no unit, it faults with UNIT_ABSENT whatever its
fields hold (00 R10); with no executing thread it does nothing (R221). -/
def execTrav (i : Issue) (s : State) : Out :=
  issueStall i (if s.fuse.variant = 3 then { guarded := true, legal := true } else
      { guarded := true, reads := true, legal := i.x.toNat < 8, pairs := [sb i]
        regs := ((List.range 8).map (sa i + ·)) ++ ((List.range 4).map (da i + ·)) })
    (fun s _ _ m => s.fuse.variant == 3 || queriesOn (s.wheel i.wheel) + count m ≤ 256) (fun s c _ m =>
      if m = 0 then next s i
      else if s.fuse.variant = 3 then faultAt s i fUnitAbsent
      else if sa i % 8 ≠ 0 ∨ da i % 4 ≠ 0 ∨ ((lanesOf m).any fun l => (pair c l (sb i)).toNat % 128 != 0) then faultAt s i fMisaligned
      else
        let s := tallyCrew s i.wheel c 0x0A0 (count m)
        next ((lanesOf m).foldl (fun s l =>
          let ray := (List.range 8).map fun k => reg c l (sa i + k)
          match rayOf ray with
          | none =>
            if missAtOnce ray then s.modCrew i.wheel i.slot fun d => putResult d l (da i) (travResult { t := 0 })
            else
              let (v, s) := s.free
              s.modCrew i.wheel i.slot fun d => putResult d l (da i) ((List.range 4).map fun k => v.extractLsb' (32 * k) 32)
          | some _ =>
            let (id, s) := s.fresh
            let q : TravQuery := { id, path := i.path, lane := l, da := da i, ray, root := pair c l (sb i), anyHit := i.x.getLsbD 0
                                   cullBack := i.x.getLsbD 1, cullFront := i.x.getLsbD 2 }
            s.modCrew i.wheel i.slot fun d => { d with queries := d.queries ++ [q] }) s) i) s

/-- A query completes: its walk, its result registers, or the crew's fault (R247 to R252). -/
def execTravQueryComplete (wheel id : Nat) (s : State) : Out :=
  act (decide (wheel < 192)) (whenD (memWheel s wheel) fun s =>
    match (s.wheel wheel).crews.findSome? fun (e : Nat × Crew) => (e.2.queries.find? fun q => q.id == id).map fun q => (e.1, e.2, q) with
    | none => s
    | some (slot, c, q) =>
      match rayOf q.ray with
      | none => s
      | some r =>
        match walk s wheel c.saggar q r (2 ^ 64) [{ entry := none, slot := 0, kind := 0, index := 0, tris := 0 }] { t := r.tmax } {} with
        | none => s
        | some (.error code) => if code = fWait then s else crewFault s wheel slot code (pcOfQuery c q)
        | some (.ok (b, n, fin)) =>
          let s := tallyCrew (tallyCrew (tallyCrew s wheel c 0x0A1 n.nodes) wheel c 0x0A2 n.boxes) wheel c 0x0A3 n.tris
          let s := tallyCrew s wheel c 0x0A6 n.misses
          let s := if b.hit.isSome then tallyCrew s wheel c 0x0A4 else s
          let s := if fin then tallyCrew s wheel c 0x0A5 else s
          (s.modWheel wheel entryFrees).setCrew wheel slot (putResult { c with queries := c.queries.filter fun p => p.id != id } q.lane q.da (travResult b))) s
where
  /-- The address the fault reports: the path's. -/
  pcOfQuery (c : Crew) (q : TravQuery) : DWord := ((path? c q.path).map CPath.pc).getD 0

end Sys2Proof.Machine
end

