-- ==== Sys2Proof/Machine/Dispatch.lean ====
section
/-!
DEFINITION. One arm per command: a direct call of its meaning.
-/
namespace Sys2Proof.Machine

def exec (i : Instr) (s : State) : Host.Outcome State Fault Refusal :=
  match i with
  | .add u => Sys2Proof.Machine.execAdd u s
  | .sub u => Sys2Proof.Machine.execSub u s
  | .mulLo u => Sys2Proof.Machine.execMulLo u s
  | .mulHi u => Sys2Proof.Machine.execMulHi u s
  | .mulHiu u => Sys2Proof.Machine.execMulHiu u s
  | .div u => Sys2Proof.Machine.execDiv u s
  | .and u => Sys2Proof.Machine.execAnd u s
  | .or u => Sys2Proof.Machine.execOr u s
  | .xor u => Sys2Proof.Machine.execXor u s
  | .shl u => Sys2Proof.Machine.execShl u s
  | .shr u => Sys2Proof.Machine.execShr u s
  | .sar u => Sys2Proof.Machine.execSar u s
  | .min u => Sys2Proof.Machine.execMin u s
  | .max u => Sys2Proof.Machine.execMax u s
  | .minu u => Sys2Proof.Machine.execMinu u s
  | .maxu u => Sys2Proof.Machine.execMaxu u s
  | .popc u => Sys2Proof.Machine.execPopc u s
  | .clz u => Sys2Proof.Machine.execClz u s
  | .mov u => Sys2Proof.Machine.execMov u s
  | .sel u => Sys2Proof.Machine.execSel u s
  | .addi u => Sys2Proof.Machine.execAddi u s
  | .andi u => Sys2Proof.Machine.execAndi u s
  | .ori u => Sys2Proof.Machine.execOri u s
  | .xori u => Sys2Proof.Machine.execXori u s
  | .shli u => Sys2Proof.Machine.execShli u s
  | .shri u => Sys2Proof.Machine.execShri u s
  | .movi u => Sys2Proof.Machine.execMovi u s
  | .movhi u => Sys2Proof.Machine.execMovhi u s
  | .fadd u => Sys2Proof.Machine.execFadd u s
  | .fsub u => Sys2Proof.Machine.execFsub u s
  | .fmul u => Sys2Proof.Machine.execFmul u s
  | .fmin u => Sys2Proof.Machine.execFmin u s
  | .fmax u => Sys2Proof.Machine.execFmax u s
  | .ffma u => Sys2Proof.Machine.execFfma u s
  | .frcp u => Sys2Proof.Machine.execFrcp u s
  | .frsq u => Sys2Proof.Machine.execFrsq u s
  | .fsqrt u => Sys2Proof.Machine.execFsqrt u s
  | .fexp2 u => Sys2Proof.Machine.execFexp2 u s
  | .dadd u => Sys2Proof.Machine.execDadd u s
  | .dmul u => Sys2Proof.Machine.execDmul u s
  | .dfma u => Sys2Proof.Machine.execDfma u s
  | .dmov u => Sys2Proof.Machine.execDmov u s
  | .isetp u => Sys2Proof.Machine.execIsetp u s
  | .fsetp u => Sys2Proof.Machine.execFsetp u s
  | .plop u => Sys2Proof.Machine.execPlop u s
  | .bra u => Sys2Proof.Machine.execBra u s
  | .brx u => Sys2Proof.Machine.execBrx u s
  | .call u => Sys2Proof.Machine.execCall u s
  | .ret u => Sys2Proof.Machine.execRet u s
  | .jpush u => Sys2Proof.Machine.execJpush u s
  | .join u => Sys2Proof.Machine.execJoin u s
  | .yield u => Sys2Proof.Machine.execYield u s
  | .exit u => Sys2Proof.Machine.execExit u s
  | .nop u => Sys2Proof.Machine.execNop u s
  | .ld u => Sys2Proof.Machine.execLd u s
  | .st u => Sys2Proof.Machine.execSt u s
  | .atomAdd u => Sys2Proof.Machine.execAtomAdd u s
  | .atomFadd u => Sys2Proof.Machine.execAtomFadd u s
  | .atomMin u => Sys2Proof.Machine.execAtomMin u s
  | .atomMax u => Sys2Proof.Machine.execAtomMax u s
  | .atomAnd u => Sys2Proof.Machine.execAtomAnd u s
  | .atomOr u => Sys2Proof.Machine.execAtomOr u s
  | .atomExch u => Sys2Proof.Machine.execAtomExch u s
  | .atomCas u => Sys2Proof.Machine.execAtomCas u s
  | .cvt u => Sys2Proof.Machine.execCvt u s
  | .tmrd u => Sys2Proof.Machine.execTmrd u s
  | .sreg u => Sys2Proof.Machine.execSreg u s
  | .fence u => Sys2Proof.Machine.execFence u s
  | .bellC u => Sys2Proof.Machine.execBellC u s
  | .acopy1d u => Sys2Proof.Machine.execAcopy1d u s
  | .acopy2d u => Sys2Proof.Machine.execAcopy2d u s
  | .acwait u => Sys2Proof.Machine.execAcwait u s
  | .acread u => Sys2Proof.Machine.execAcread u s
  | .grecv u => Sys2Proof.Machine.execGrecv u s
  | .ptab u => Sys2Proof.Machine.execPtab u s
  | .mx u => Sys2Proof.Machine.execMx u s
  | .mxh u => Sys2Proof.Machine.execMxh u s
  | .mv u => Sys2Proof.Machine.execMv u s
  | .tld u => Sys2Proof.Machine.execTld u s
  | .tst u => Sys2Proof.Machine.execTst u s
  | .tzero u => Sys2Proof.Machine.execTzero u s
  | .accWin u => Sys2Proof.Machine.execAccWin u s
  | .accZero u => Sys2Proof.Machine.execAccZero u s
  | .accRd u => Sys2Proof.Machine.execAccRd u s
  | .accWr u => Sys2Proof.Machine.execAccWr u s
  | .accRed u => Sys2Proof.Machine.execAccRed u s
  | .opt u => Sys2Proof.Machine.execOpt u s
  | .gacc u => Sys2Proof.Machine.execGacc u s
  | .lstat u => Sys2Proof.Machine.execLstat u s
  | .uscaleSet u => Sys2Proof.Machine.execUscaleSet u s
  | .vsetvl u => Sys2Proof.Machine.execVsetvl u s
  | .vgetvl u => Sys2Proof.Machine.execVgetvl u s
  | .vchain u => Sys2Proof.Machine.execVchain u s
  | .vred u => Sys2Proof.Machine.execVred u s
  | .trav u => Sys2Proof.Machine.execTrav u s
  | .sig u => Sys2Proof.Machine.execSig u s
  | .sigw u => Sys2Proof.Machine.execSigw u s
  | .sigR u => Sys2Proof.Machine.execSigR u s
  | .rput u => Sys2Proof.Machine.execRput u s
  | .collect u => Sys2Proof.Machine.execCollect u s
  | .bellGjoin u => Sys2Proof.Machine.execBellGjoin u s
  | .bellGleave u => Sys2Proof.Machine.execBellGleave u s
  | .bellGarrive u => Sys2Proof.Machine.execBellGarrive u s
  | .bellGsignal u => Sys2Proof.Machine.execBellGsignal u s
  | .bellGwait u => Sys2Proof.Machine.execBellGwait u s
  | .bellGreset u => Sys2Proof.Machine.execBellGreset u s
  | .nopCommand stream => Sys2Proof.Machine.execNopCommand stream s
  | .launch stream => Sys2Proof.Machine.execLaunch stream s
  | .layerBegin stream => Sys2Proof.Machine.execLayerBegin stream s
  | .layerCommit stream => Sys2Proof.Machine.execLayerCommit stream s
  | .step stream => Sys2Proof.Machine.execStep stream s
  | .signal stream => Sys2Proof.Machine.execSignal stream s
  | .wait stream => Sys2Proof.Machine.execWait stream s
  | .gather stream => Sys2Proof.Machine.execGather stream s
  | .gatherRelease stream => Sys2Proof.Machine.execGatherRelease stream s
  | .prefetch stream => Sys2Proof.Machine.execPrefetch stream s
  | .tierMove stream => Sys2Proof.Machine.execTierMove stream s
  | .guild stream => Sys2Proof.Machine.execGuild stream s
  | .arrayEntryStart wheel badHead badPartner => Sys2Proof.Machine.execArrayEntryStart wheel badHead badPartner s
  | .mxCommit wheel badHead badPartner => Sys2Proof.Machine.execMxCommit wheel badHead badPartner s
  | .mxhPartnerTimeout wheel => Sys2Proof.Machine.execMxhPartnerTimeout wheel s
  | .mvCommit wheel bad => Sys2Proof.Machine.execMvCommit wheel bad s
  | .copyComplete wheel id => Sys2Proof.Machine.execCopyComplete wheel id s
  | .chainComplete wheel e => Sys2Proof.Machine.execChainComplete wheel e s
  | .travQueryComplete wheel id => Sys2Proof.Machine.execTravQueryComplete wheel id s
  | .crewStart wheel => Sys2Proof.Machine.execCrewStart wheel s
  | .marketRequest wheel => Sys2Proof.Machine.execMarketRequest wheel s
  | .marketAnswer wheel => Sys2Proof.Machine.execMarketAnswer wheel s
  | .stealProbe wheel => Sys2Proof.Machine.execStealProbe wheel s
  | .stealProbeArrival wheel => Sys2Proof.Machine.execStealProbeArrival wheel s
  | .stealAnswer wheel => Sys2Proof.Machine.execStealAnswer wheel s
  | .idleRetry wheel => Sys2Proof.Machine.execIdleRetry wheel s
  | .idleGate wheel => Sys2Proof.Machine.execIdleGate wheel s
  | .wheelRestart wheel => Sys2Proof.Machine.execWheelRestart wheel s
  | .droop wheel period => Sys2Proof.Machine.execDroop wheel period s
  | .bellTimeout wheel slot bell => Sys2Proof.Machine.execBellTimeout wheel slot bell s
  | .mxConvergenceTimeout wheel slot => Sys2Proof.Machine.execMxConvergenceTimeout wheel slot s
  | .whlCtlEnable wheel => Sys2Proof.Machine.execWhlCtlEnable wheel s
  | .whlCtlDisable wheel => Sys2Proof.Machine.execWhlCtlDisable wheel s
  | .whlCtlEvict wheel => Sys2Proof.Machine.execWhlCtlEvict wheel s
  | .wheelDrainEnd wheel => Sys2Proof.Machine.execWheelDrainEnd wheel s
  | .evictionComplete wheel => Sys2Proof.Machine.execEvictionComplete wheel s
  | .homeSliceWrite wheel id => Sys2Proof.Machine.execHomeSliceWrite wheel id s
  | .homeSliceRead wheel id => Sys2Proof.Machine.execHomeSliceRead wheel id s
  | .writeAck wheel id => Sys2Proof.Machine.execWriteAck wheel id s
  | .fillReturn wheel id => Sys2Proof.Machine.execFillReturn wheel id s
  | .combineTimeout wheel id => Sys2Proof.Machine.execCombineTimeout wheel id s
  | .signalApply wheel id => Sys2Proof.Machine.execSignalApply wheel id s
  | .wake id => Sys2Proof.Machine.execWake id s
  | .sigwPoll id => Sys2Proof.Machine.execSigwPoll id s
  | .sigwTimeout id => Sys2Proof.Machine.execSigwTimeout id s
  | .gbellArrival id => Sys2Proof.Machine.execGbellArrival id s
  | .gbellTimeout saggar handle => Sys2Proof.Machine.execGbellTimeout saggar handle s
  | .remoteWrite id => Sys2Proof.Machine.execRemoteWrite id s
  | .remoteSignal id => Sys2Proof.Machine.execRemoteSignal id s
  | .putAck id => Sys2Proof.Machine.execPutAck id s
  | .collectorCycle c => Sys2Proof.Machine.execCollectorCycle c s
  | .collectorCountAdvance c => Sys2Proof.Machine.execCollectorCountAdvance c s
  | .collectorHeadReread c => Sys2Proof.Machine.execCollectorHeadReread c s
  | .collectorCoalesce c => Sys2Proof.Machine.execCollectorCoalesce c s
  | .collectorUnbindEnd c => Sys2Proof.Machine.execCollectorUnbindEnd c s
  | .doorbellWrite fn slot value wide => Sys2Proof.Machine.execDoorbellWrite fn slot value wide s
  | .doorbellRead fn slot => Sys2Proof.Machine.execDoorbellRead fn slot s
  | .contextFetchEnd stream bad => Sys2Proof.Machine.execContextFetchEnd stream bad s
  | .interactiveWaitExpiry launch => Sys2Proof.Machine.execInteractiveWaitExpiry launch s
  | .saggarDrainEnd saggar => Sys2Proof.Machine.execSaggarDrainEnd saggar s
  | .streamDrainEnd stream => Sys2Proof.Machine.execStreamDrainEnd stream s
  | .gatherComplete stream slot shards => Sys2Proof.Machine.execGatherComplete stream slot shards s
  | .gatherReleaseEffect stream slot => Sys2Proof.Machine.execGatherReleaseEffect stream slot s
  | .offloadComplete id => Sys2Proof.Machine.execOffloadComplete id s
  | .restoreComplete id => Sys2Proof.Machine.execRestoreComplete id s
  | .tierMoveComplete id => Sys2Proof.Machine.execTierMoveComplete id s
  | .guildComplete id => Sys2Proof.Machine.execGuildComplete id s
  | .guildDrainEnd guild => Sys2Proof.Machine.execGuildDrainEnd guild s
  | .frameZeroingEnd id => Sys2Proof.Machine.execFrameZeroingEnd id s
  | .unmapComplete id => Sys2Proof.Machine.execUnmapComplete id s
  | .hbmScrub stack corrected => Sys2Proof.Machine.execHbmScrub stack corrected s
  | .errorWindowEnd kind index => Sys2Proof.Machine.execErrorWindowEnd kind index s
  | .pcMigrationEnd pc unreadable => Sys2Proof.Machine.execPcMigrationEnd pc unreadable s
  | .sliceTransferEnd slice unreadable => Sys2Proof.Machine.execSliceTransferEnd slice unreadable s
  | .grnPortEnable port => Sys2Proof.Machine.execGrnPortEnable port s
  | .grnPortDisable port => Sys2Proof.Machine.execGrnPortDisable port s
  | .grnPortDrainEnd port => Sys2Proof.Machine.execGrnPortDrainEnd port s
  | .grnPortTrainingEnd port ok => Sys2Proof.Machine.execGrnPortTrainingEnd port ok s
  | .cxlLinkDown port retrained => Sys2Proof.Machine.execCxlLinkDown port retrained s
  | .refLoss detected => Sys2Proof.Machine.execRefLoss detected s
  | .refReturn => Sys2Proof.Machine.execRefReturn s
  | .holdoverExpiry => Sys2Proof.Machine.execHoldoverExpiry s
  | .ptpSync msg => Sys2Proof.Machine.execPtpSync msg s
  | .ptpFollowUp msg => Sys2Proof.Machine.execPtpFollowUp msg s
  | .ptpDelayResp msg => Sys2Proof.Machine.execPtpDelayResp msg s
  | .ptpAnnounce msg => Sys2Proof.Machine.execPtpAnnounce msg s
  | .ptpSyncTimeout => Sys2Proof.Machine.execPtpSyncTimeout s
  | .genlockEdge => Sys2Proof.Machine.execGenlockEdge s
  | .genlockTimeout => Sys2Proof.Machine.execGenlockTimeout s
  | .mediaSecondRollover => Sys2Proof.Machine.execMediaSecondRollover s
  | .timPairCapture => Sys2Proof.Machine.execTimPairCapture s
  | .timMtNsRead => Sys2Proof.Machine.execTimMtNsRead s
  | .frmFlowEnable flow => Sys2Proof.Machine.execFrmFlowEnable flow s
  | .frmFlowDisable flow => Sys2Proof.Machine.execFrmFlowDisable flow s
  | .flowDrainEnd flow => Sys2Proof.Machine.execFlowDrainEnd flow s
  | .frameEdge flow => Sys2Proof.Machine.execFrameEdge flow s
  | .reservationWake res => Sys2Proof.Machine.execReservationWake res s
  | .reservationStart res => Sys2Proof.Machine.execReservationStart res s
  | .reservationEnd res => Sys2Proof.Machine.execReservationEnd res s
  | .releaseOnReady res => Sys2Proof.Machine.execReleaseOnReady res s
  | .completionDeadline flow => Sys2Proof.Machine.execCompletionDeadline flow s
  | .emissionStart flow => Sys2Proof.Machine.execEmissionStart flow s
  | .framePacket flow => Sys2Proof.Machine.execFramePacket flow s
  | .emissionEnd flow => Sys2Proof.Machine.execEmissionEnd flow s
  | .flitReceive port f => Sys2Proof.Machine.execFlitReceive port f s
  | .linkTimeMark port => Sys2Proof.Machine.execLinkTimeMark port s
  | .replayTimeout port => Sys2Proof.Machine.execReplayTimeout port s
  | .retrainEnd port ok => Sys2Proof.Machine.execRetrainEnd port ok s
  | .lnkPortEnable port => Sys2Proof.Machine.execLnkPortEnable port s
  | .lnkPortDisable port => Sys2Proof.Machine.execLnkPortDisable port s
  | .portTrainingEnd port ok peer flight => Sys2Proof.Machine.execPortTrainingEnd port ok peer flight s
  | .portDrainEnd port => Sys2Proof.Machine.execPortDrainEnd port s
  | .routeSwapTick => Sys2Proof.Machine.execRouteSwapTick s
  | .ethDatagramReceive port d => Sys2Proof.Machine.execEthDatagramReceive port d s
  | .ethResendTimeout module => Sys2Proof.Machine.execEthResendTimeout module s
  | .congestionRaise module => Sys2Proof.Machine.execCongestionRaise module s
  | .collectiveControlReceive id => Sys2Proof.Machine.execCollectiveControlReceive id s
  | .collectiveDataReceive id => Sys2Proof.Machine.execCollectiveDataReceive id s
  | .ctgInsert ctg pages => Sys2Proof.Machine.execCtgInsert ctg pages s
  | .ctgRemove ctg => Sys2Proof.Machine.execCtgRemove ctg s
  | .coneWindow ctg bias heat => Sys2Proof.Machine.execConeWindow ctg bias heat s
  | .coneWrite ctg => Sys2Proof.Machine.execConeWrite ctg s
  | .wearPrediction ctg => Sys2Proof.Machine.execWearPrediction ctg s
  | .leaveRequest id => Sys2Proof.Machine.execLeaveRequest id s
  | .grantCycle => Sys2Proof.Machine.execGrantCycle s
  | .leaveAnswer id => Sys2Proof.Machine.execLeaveAnswer id s
  | .lingerExpiry wheel => Sys2Proof.Machine.execLingerExpiry wheel s
  | .permitRenewal id => Sys2Proof.Machine.execPermitRenewal id s
  | .powerWindow m mv => Sys2Proof.Machine.execPowerWindow m mv s
  | .thermalWindow t0 t1 hub coolant => Sys2Proof.Machine.execThermalWindow t0 t1 hub coolant s
  | .thermalTrip die reading => Sys2Proof.Machine.execThermalTrip die reading s
  | .auxPowerOn => Sys2Proof.Machine.execAuxPowerOn s
  | .auxPowerLoss => Sys2Proof.Machine.execAuxPowerLoss s
  | .pwrGoodAssert => Sys2Proof.Machine.execPwrGoodAssert s
  | .pwrGoodDeassert => Sys2Proof.Machine.execPwrGoodDeassert s
  | .powerDownEnd => Sys2Proof.Machine.execPowerDownEnd s
  | .mainInputFault mv => Sys2Proof.Machine.execMainInputFault mv s
  | .modResetAssert => Sys2Proof.Machine.execModResetAssert s
  | .modResetRelease strap => Sys2Proof.Machine.execModResetRelease strap s
  | .poweringEnd rails strap => Sys2Proof.Machine.execPoweringEnd rails strap s
  | .loadingEnd facts => Sys2Proof.Machine.execLoadingEnd facts s
  | .trainingLinksEnd failed => Sys2Proof.Machine.execTrainingLinksEnd failed s
  | .selfTestEnd failed => Sys2Proof.Machine.execSelfTestEnd failed s
  | .stateTimeout => Sys2Proof.Machine.execStateTimeout s
  | .errorReport e => Sys2Proof.Machine.execErrorReport e s
  | .fenceComplete id => Sys2Proof.Machine.execFenceComplete id s
  | .fenRecover value => Sys2Proof.Machine.execFenRecover value s
  | .recoveryEnd kind index ok => Sys2Proof.Machine.execRecoveryEnd kind index ok s
  | .guildCommit saggar => Sys2Proof.Machine.execGuildCommit saggar s
  | .securingDataReceive id => Sys2Proof.Machine.execSecuringDataReceive id s
  | .secureRestoreDone saggar => Sys2Proof.Machine.execSecureRestoreDone saggar s
  | .dunobSnapshotWritten saggar => Sys2Proof.Machine.execDunobSnapshotWritten saggar s
  | .ledgerDrain => Sys2Proof.Machine.execLedgerDrain s
  | .sampleWindowEnd => Sys2Proof.Machine.execSampleWindowEnd s
  | .tallyWrap wheel index value => Sys2Proof.Machine.execTallyWrap wheel index value s
  | .tallyWrite wheel index value => Sys2Proof.Machine.execTallyWrite wheel index value s
  | .dbgStopArm byMedia => Sys2Proof.Machine.execDbgStopArm byMedia s
  | .dbgStopCancel => Sys2Proof.Machine.execDbgStopCancel s
  | .dbgStopResume => Sys2Proof.Machine.execDbgStopResume s
  | .globalStopTick => Sys2Proof.Machine.execGlobalStopTick s
  | .stopDrainEnd => Sys2Proof.Machine.execStopDrainEnd s
  | .globalResumeTick => Sys2Proof.Machine.execGlobalResumeTick s
  | .mbxReqTailWrite fn value => Sys2Proof.Machine.execMbxReqTailWrite fn value s
  | .mbxTake fn => Sys2Proof.Machine.execMbxTake fn s
  | .mbxCplHeadWrite fn value => Sys2Proof.Machine.execMbxCplHeadWrite fn value s
  | .identityQuery fn req => Sys2Proof.Machine.execIdentityQuery fn req s
  | .saggarCreate fn req => Sys2Proof.Machine.execSaggarCreate fn req s
  | .saggarDestroy fn req => Sys2Proof.Machine.execSaggarDestroy fn req s
  | .saggarQuery fn req => Sys2Proof.Machine.execSaggarQuery fn req s
  | .scaleReset fn req => Sys2Proof.Machine.execScaleReset fn req s
  | .streamCreate fn req => Sys2Proof.Machine.execStreamCreate fn req s
  | .streamDestroy fn req => Sys2Proof.Machine.execStreamDestroy fn req s
  | .streamReset fn req => Sys2Proof.Machine.execStreamReset fn req s
  | .streamQuery fn req => Sys2Proof.Machine.execStreamQuery fn req s
  | .assignFrames fn req => Sys2Proof.Machine.execAssignFrames fn req s
  | .map fn req => Sys2Proof.Machine.execMap fn req s
  | .unmap fn req => Sys2Proof.Machine.execUnmap fn req s
  | .releaseFrames fn req => Sys2Proof.Machine.execReleaseFrames fn req s
  | .collectorBind fn req => Sys2Proof.Machine.execCollectorBind fn req s
  | .collectorUnbind fn req => Sys2Proof.Machine.execCollectorUnbind fn req s
  | .ledgerBind fn req => Sys2Proof.Machine.execLedgerBind fn req s
  | .ledgerUnbind fn req => Sys2Proof.Machine.execLedgerUnbind fn req s
  | .tallyRead fn req => Sys2Proof.Machine.execTallyRead fn req s
  | .watchSet fn req => Sys2Proof.Machine.execWatchSet fn req s
  | .guildBind fn req => Sys2Proof.Machine.execGuildBind fn req s
  | .guildUnbind fn req => Sys2Proof.Machine.execGuildUnbind fn req s
  | .linkSetId fn req => Sys2Proof.Machine.execLinkSetId fn req s
  | .routeLoad fn req => Sys2Proof.Machine.execRouteLoad fn req s
  | .routeSwap fn req => Sys2Proof.Machine.execRouteSwap fn req s
  | .frmFlowBind fn req => Sys2Proof.Machine.execFrmFlowBind fn req s
  | .frmFlowUnbind fn req => Sys2Proof.Machine.execFrmFlowUnbind fn req s
  | .secureRestore fn req => Sys2Proof.Machine.execSecureRestore fn req s
  | .secureMemberDown fn req => Sys2Proof.Machine.execSecureMemberDown fn req s
  | .snapshotLoad fn req => Sys2Proof.Machine.execSnapshotLoad fn req s
  | .moduleReset fn req => Sys2Proof.Machine.execModuleReset fn req s
  | .keyRevoke fn req => Sys2Proof.Machine.execKeyRevoke fn req s
  | .configCommitSvn fn req => Sys2Proof.Machine.execConfigCommitSvn fn req s
  | .configWrite fn req => Sys2Proof.Machine.execConfigWrite fn req s
  | .configSelect fn req => Sys2Proof.Machine.execConfigSelect fn req s
  | .configStatus fn req => Sys2Proof.Machine.execConfigStatus fn req s
  | .configLog fn req => Sys2Proof.Machine.execConfigLog fn req s
  | .pcieReset => Sys2Proof.Machine.execPcieReset s
  | .vfFlr fn => Sys2Proof.Machine.execVfFlr fn s
  | .vfEnableClear => Sys2Proof.Machine.execVfEnableClear s
  | .busMasterEnable fn => Sys2Proof.Machine.execBusMasterEnable fn s
  | .mctpSetEndpointId eid => Sys2Proof.Machine.execMctpSetEndpointId eid s
  | .pldmRequestUpdate component offset length => Sys2Proof.Machine.execPldmRequestUpdate component offset length s
  | .pldmTransferComplete ok bytes => Sys2Proof.Machine.execPldmTransferComplete ok bytes s
  | .pldmActivateFirmware => Sys2Proof.Machine.execPldmActivateFirmware s
  | .pldmGetSensorReading sensor => Sys2Proof.Machine.execPldmGetSensorReading sensor s
  | .pldmSetStateEffecter effecter state => Sys2Proof.Machine.execPldmSetStateEffecter effecter state s
  | .pldmGetPdr handle => Sys2Proof.Machine.execPldmGetPdr handle s
  | .pldmFruData => Sys2Proof.Machine.execPldmFruData s
  | .getVersion => Sys2Proof.Machine.execGetVersion s
  | .getCapabilities => Sys2Proof.Machine.execGetCapabilities s
  | .negotiateAlgorithms => Sys2Proof.Machine.execNegotiateAlgorithms s
  | .getDigests => Sys2Proof.Machine.execGetDigests s
  | .getCertificate => Sys2Proof.Machine.execGetCertificate s
  | .challenge => Sys2Proof.Machine.execChallenge s
  | .getMeasurements index => Sys2Proof.Machine.execGetMeasurements index s
  | .registerWrite bar fn addr width64 value => Sys2Proof.Machine.execRegisterWrite bar fn addr width64 value s
  | .rootPllLock => Sys2Proof.Machine.execRootPllLock s
  | .illegalInstruction u cls op => Sys2Proof.Machine.execIllegalInstruction u cls op s
  | .chainSegmentEnd wheel => Sys2Proof.Machine.execChainSegmentEnd wheel s
  | .noCorrectableFlitTimeout port => Sys2Proof.Machine.execNoCorrectableFlitTimeout port s
  | .cmisFault ctg state code => Sys2Proof.Machine.execCmisFault ctg state code s
  | .flashUnitDone => Sys2Proof.Machine.execFlashUnitDone s
  | .hostReadCompletion id ok bytes => Sys2Proof.Machine.execHostReadCompletion id ok bytes s
  | .msixUnmask vector => Sys2Proof.Machine.execMsixUnmask vector s
  | .vfEnableSet n => Sys2Proof.Machine.execVfEnableSet n s
  | .entdaa address => Sys2Proof.Machine.execEntdaa address s
  | .pldmBaseDiscovery => Sys2Proof.Machine.execPldmBaseDiscovery s

end Sys2Proof.Machine
end

