-- ==== Sys2Proof/Machine/RegRead.lean ====
section
/-!
DEFINITION. What the registers read (00 R13 to R17, 19 R629 to R631): each block's map, register by register. A read changes nothing
but for TIM_MT_NS and the doorbells, which have rows of their own.
-/
namespace Sys2Proof.Machine

/-- A register: whether it is 64 bits wide, and its value. -/
abbrev Reg := Bool × Nat

def r32 (v : Nat) : Reg := (false, v % 2 ^ 32)
def r64 (v : Nat) : Reg := (true, v % 2 ^ 64)

/-- A register of fields: value and low bit. -/
def pack (l : List (Nat × Nat)) : Nat := l.foldl (fun a f => a + f.1 * 2 ^ f.2) 0

def bit (b : Bool) : Nat := if b then 1 else 0

/-- Word `k` of a bitmap: bit n is `p (32k + n)`. -/
def bitmap (k : Nat) (p : Nat → Bool) : Nat := pack ((List.range 32).map fun n => (bit (p (32 * k + n)), n))

/-- HUB_ (00 R13 to R15, 15 R543, 19 R644). -/
def readHub (s : State) (a : Nat) : Reg :=
  let h := s.hub
  if a = 0 then r32 (hubIdent0 s)
  else if a = 4 then r32 (hubIdent1 s)
  else if 0x10 ≤ a ∧ a < 0x28 then r32 (wheelPresent s ((a - 0x10) / 4))
  else if a = 0x100 then r32 (pack [(h.state.code, 28), (h.cause, 20), (h.fencedDie, 19), (bit h.memtest, 18)])
  else if a = 0x104 then
    r32 (pack [(h.inForce, 31), (bit h.fromTry, 30), (bit h.dirLost, 29), (h.dirCopy, 28), (h.resultA, 8), (h.resultB, 0)])
  else if a = 0x108 then r32 h.svn
  else if a = 0x10C then r32 s.fuse.svnMin
  else if a = 0x110 then r32 (pack [(h.keyInForce, 8), (s.fuse.revoked.toNat, 4), (s.fuse.provisioned.toNat, 0)])
  else if a = 0x118 then r64 h.build.toNat
  else if 0x120 ≤ a ∧ a < 0x140 then r64 (Tab.get 0 h.entryGts ((a - 0x120) / 8)).toNat
  else if 0x140 ≤ a ∧ a < 0x170 then r32 (bits h.digest.toNat (32 * (11 - (a - 0x140) / 4)) 32)
  else if a = 0x180 then r32 h.selftest.toNat
  else if a = 0x200 then
    r32 (pack [(h.numVfs, 24), (h.pcieSpeed, 16), (h.pcieWidth, 6), (bit h.pcieFlit, 5), (bit (Tab.get {} s.host.fns 0).bme, 4), (h.pcieResets, 0)])
  else if 0x210 ≤ a ∧ a < 0x220 then r32 (Tab.get 0 h.scratch ((a - 0x210) / 4)).toNat
  else r32 0

/-- RVE_ (14 R511). -/
def readRve (s : State) (a : Nat) : Reg :=
  let r := s.rve
  if a < 0x10 then r32 (rveWord s (a / 4))
  else if 0x10 ≤ a ∧ a < 0x28 then r32 (if a = 0x24 then rveEmit s else s.img.charges.getD ((a - 0x10) / 4) 0)
  else if a = 0x40 then
    r32 (pack [(r.bEff, 16), (min 0xFFF ((r.permits.filter fun (e : Nat × Permit) => e.2.pend != 0 || e.2.renew.isSome).length), 4),
      (bit r.throttle, 1), (bit r.clamp, 0)])
  else if a = 0x44 then r32 (heldAll s / 100)
  else if a = 0x48 then r32 r.m
  else if a = 0x4C then r32 r.vin
  else if a = 0x50 then r32 r.temp.toNat
  else if a = 0x58 then r64 r.energy.toNat
  else if a = 0x60 then r64 r.clamps.toNat
  else if a = 0x68 then r64 r.ceilTicks.toNat
  else if a = 0x70 then r64 r.waits.toNat
  else if a = 0x78 then r64 r.halves.toNat
  else if 0x1000 ≤ a ∧ a < 0x5000 then r32 (heldBy s ((a - 0x1000) / 4) / 100)
  else r32 0

/-- TIM_ (02 R71). -/
def readTim (s : State) (a : Nat) : Reg :=
  let t := s.time
  if a = 0 then r64 t.gts.toNat
  else if a = 8 then r32 t.epoch.toNat
  else if a = 0x10 then r32 (pack [(t.refLoss, 8), (bit t.holdover, 2), (bit t.refPresent, 1), (bit t.locked, 0)])
  else if a = 0x20 then r32 (mtNanos t.mt)
  else if a = 0x28 then r64 t.mtSecLatch.toNat
  else if a = 0x30 then r64 (BitVec.ofInt 64 t.rate).toNat
  else if a = 0x40 then r32 s.img.ptpCfg.toNat
  else if a = 0x44 then r32 (pack [(t.stepCount, 8), (bit t.servo.master.isSome, 3), (t.servo.state, 0)])
  else if a = 0x48 then r32 (BitVec.ofInt 32 t.ptpOffset).toNat
  else if a = 0x60 then r32 (pack [(bit t.onGenlock, 2), (bit t.onSecond, 1), (bit t.capture, 0)])
  else if a = 0x64 then r32 t.pairSeq.toNat
  else if a = 0x68 then r64 t.pairGts.toNat
  else if a = 0x70 then r32 (mtNanos t.pairMt)
  else if a = 0x78 then r64 (mtSecs t.pairMt % 2 ^ 48)
  else if a = 0x80 then r32 (bit t.gen.present)
  else if a = 0x88 then r64 t.gen.gts.toNat
  else if a = 0x90 then r32 t.gen.period.toNat
  else if 0xA0 ≤ a ∧ a < 0xB8 then r32 (bitmap ((a - 0xA0) / 4) fun w => decide (4 < (s.wheel w).ctl.period) && (s.wheel w).ctl.stopGts.isNone)
  else if 0xC0 ≤ a ∧ a < 0xD8 then r32 (bitmap ((a - 0xC0) / 4) fun w => (s.wheel w).ctl.stopGts.isSome)
  else r32 0

/-- FEN_MISC. -/
def fenMisc (s : State) : Nat :=
  pack [(s.fen.ctgs.toNat, 24), (bitmap 0 (fun n => decide (n < 8) && fenced s 3 n), 16), (bitmap 0 (fun n => decide (n < 4) && fenced s 10 n), 12),
    (s.fen.dies.toNat, 10), (bit s.fen.d2d, 9), (s.fen.hubLinks.toNat, 7)]

/-- FEN_ (16 R564). -/
def readFen (s : State) (a : Nat) : Reg :=
  let f := s.fen
  if a = 0 then r32 (pack [(min 0xFF f.jobs.length, 8), (bit (s.hub.state == .fencedHalf), 0)])
  else if a = 4 then r32 f.intStatus.toNat
  else if a = 8 then r32 f.intEnable.toNat
  else if 0x10 ≤ a ∧ a < 0x30 then r64 (f.counts.getD ((a - 0x10) / 8) 0).toNat
  else if 0x40 ≤ a ∧ a < 0x58 then r32 (bitmap ((a - 0x40) / 4) (fenced s 0))
  else if 0x60 ≤ a ∧ a < 0x70 then r32 (bitmap ((a - 0x60) / 4) (fenced s 1))
  else if 0x80 ≤ a ∧ a < 0xC0 then r32 (bitmap ((a - 0x80) / 4) (fenced s 2))
  else if a = 0xC0 then r32 (bitmap 0 (fenced s 7))
  else if a = 0xC4 then r32 (fenMisc s)
  else if a = 0x104 then
    r32 (pack [(match f.recs with
      | [] => 0
      | l => if l.any fun e => e.2.2 then 2 else 1, 30), (f.recResult, 16), (f.recKind, 12), (f.recIndex, 0)])
  else if 0x200 ≤ a ∧ a < 0x300 then r64 (bits (f.last.getD ((a - 0x200) / 0x20) 0).toNat (64 * (a % 0x20 / 8)) 64)
  else if 0x400 ≤ a ∧ a < 0x600 then r64 (bits (f.fails.getD ((a - 0x400) / 0x20) 0).toNat (64 * (a % 0x20 / 8)) 64)
  else r32 0

/-- SAG_SEC_STATUS_k (17 R593). -/
def secStatus (s : State) (k : Nat) : Nat :=
  let g := s.saggar k
  pack [(g.sec.state, 29), (g.cfg.secMode, 27), (g.sec.tolerance, 24), (bit (g.sec.armed.isSome && (g.sec.sending != [] || g.sec.waiting != [])), 23),
    (bit (g.cfg.secMode == 2 && (dunobHeader s k 1).isSome), 22), (bit (g.cfg.secMode == 2 && (dunobHeader s k 0).isSome), 21), (g.cfg.lossL - 1, 0)]

/-- SAG_ (11 R425, 17 R593). -/
def readSag (s : State) (a : Nat) : Reg :=
  let f := s.front
  if a < 0x4000 then r32 (sagStatus s (a / 4))
  else if a < 0x8000 then r32 (s.saggar ((a - 0x4000) / 4)).step.toNat
  else if a = 0x8000 then r64 f.hits.toNat
  else if a = 0x8008 then r64 f.misses.toNat
  else if a = 0x8010 then r32 (pack [(min 0xFFFF f.queued.length, 16), ((f.cached.filter (ctxHeld s)).length, 0)])
  else if a = 0x8018 then r64 f.preempts.toNat
  else if a = 0x8020 then r32 f.launches.length
  else if 0x10000 ≤ a ∧ a < 0x14000 then r32 (secStatus s ((a - 0x10000) / 4))
  else if 0x14000 ≤ a ∧ a < 0x18000 then r32 ((s.saggar ((a - 0x14000) / 4)).sec.points.headD 0).toNat
  else if a = 0x18000 then r64 f.mirrorBytes.toNat
  else if a = 0x18008 then r64 f.parityBytes.toNat
  else if a = 0x18010 then r64 f.stallTicks.toNat
  else if a = 0x18018 then r64 f.restores.toNat
  else r32 0

/-- One port's registers, offset within its 0x100 bytes (13 R490). -/
def readPort (s : State) (n o : Nat) : Reg :=
  let x := s.port n
  if o = 0 then r32 (bit x.enable)
  else if o = 4 then r32 (pack [(if x.window = s.gts / 2 ^ 30 then x.retrains else 0, 24), (x.failCause, 16), (bit (portUp x), 3), (x.st.code, 0)])
  else if o = 8 then r32 (pack [(x.peerId, 16), (x.peerPort, 0)])
  else if o = 0xC then r32 x.flight
  else if o = 0x10 then r64 x.tx.toNat
  else if o = 0x18 then r64 x.rx.toNat
  else if o = 0x20 then r64 x.replays.toNat
  else if o = 0x28 then r64 x.fecCorr.toNat
  else if o = 0x30 then r64 x.crcErr.toNat
  else if o = 0x38 then r64 x.undelivered.toNat
  else r32 0

/-- LNK_ (13 R490). -/
def readLnk (s : State) (a : Nat) : Reg :=
  if a = 0 then r32 (pack [(s.hub.strap, 16), (s.link.fabricId, 0)])
  else if a = 4 then r32 (pack [(bit s.link.swap.isSome, 1), (s.link.act, 0)])
  else if a = 8 then r64 (match s.link.swap with | some t => t | none => s.link.swapGts.toNat)
  else if a = 0x10 then r32 s.img.secureShare
  else if 0x1000 ≤ a ∧ a < 0x3000 then readPort s ((a - 0x1000) / 0x100) (a % 0x100)
  else r32 0

/-- CTG_ (13 R491). -/
def readCtg (s : State) (a : Nat) : Reg :=
  let c := s.ctg (a / 0x100)
  let o := a % 0x100
  if a = 0x1000 then r32 s.img.ctgLim0.toNat
  else if a = 0x1004 then r32 s.img.ctgLim1.toNat
  else if 0x800 ≤ a then r32 0
  else if o = 0 then
    r32 (pack [(min 0xFFFF c.wear, 16), (c.state, 4), (bit c.historyLost, 3), (bit c.fault, 2), (bit c.ready, 1), (bit c.present, 0)])
  else if o = 8 then r64 c.b
  else if o = 0x10 then r64 c.th
  else if o = 0x18 then r32 c.n
  else if o = 0x1C then r32 c.remain
  else if 0x20 ≤ o ∧ o < 0x30 then r32 (bits c.serial.toNat (8 * (o - 0x20)) 32)
  else r32 0

/-- One flow's registers (12 R452). -/
def readFlow (s : State) (f o : Nat) : Reg :=
  let x := s.flow f
  if o = 0 then r32 (bit x.enable)
  else if o = 4 then
    r32 (pack [((x.bind.map (·.saggar)).getD 0, 20), (bit x.bind.isSome, 19), (x.enErr, 16), (min 0xFF x.consec, 8), (bit x.emission.isSome, 3), (x.st, 0)])
  else if o = 8 then r32 (flowCfg s f)
  else if o = 0x10 then r64 x.frame.toNat
  else if o = 0x18 then r64 x.edgeGts.toNat
  else if o = 0x20 then r64 x.emitted.toNat
  else if o = 0x28 then r64 x.missed.toNat
  else if o = 0x30 then r64 x.skipped.toNat
  else if o = 0x38 then r32 (flowOffset s f)
  else if o = 0x3C then r32 (flowGuard s f)
  else r32 0

/-- STATE of a reservation: PREEMPTING turns to HELD once every other crew of its wheels is evicted (12 R441, R452). -/
def resState (s : State) (r : Nat) : Nat :=
  let st := (s.resv r).st
  if st = 1 && !(s.wheels.any fun e => e.2.ctl.resv == some r && e.2.crews.any fun c => evicting s e.1 c.2) then 2 else st

/-- One reservation's registers (12 R452). -/
def readRes (s : State) (r o : Nat) : Reg :=
  let x := s.resv r
  if o = 0 then r32 (lf (resImg s r) 0 4)
  else if o = 4 then r32 (pack [(resState s r, 30), (x.held, 16)])
  else if o = 8 then r32 (resStart s r)
  else if o = 0xC then r32 (resEnd s r)
  else if 0x10 ≤ o ∧ o < 0x28 then r32 (bits (resMask s r).toNat (32 * ((o - 0x10) / 4)) 32)
  else if o = 0x30 then r64 x.overruns.toNat
  else r32 0

/-- FRM_ (12 R452): all zero on S768 and C384 (00 R8). -/
def readFrm (s : State) (a : Nat) : Reg :=
  if !hasFrames s then r32 0
  else if a < 0x800 then readFlow s (a / 0x100) (a % 0x100)
  else if 0x1000 ≤ a ∧ a < 0x2000 then readRes s ((a - 0x1000) / 0x100) (a % 0x100)
  else r32 0

/-- A tally's registers, offset within its 32 bytes. -/
def readTallyAt (t : Tally) (o : Nat) : Reg :=
  if o = 0 then r32 t.cfg.toNat
  else if o = 4 then r32 t.mtch.toNat
  else if o = 8 then r32 t.mask.toNat
  else if o = 0x10 then r64 t.value.toNat
  else r32 0

/-- The instruction address of the path that would issue next; where several paths are ready the spec does not say which. -/
def nextPc (s : State) (c : Crew) : Nat :=
  match c.paths.filter fun (e : Nat × CPath) => e.2.wait == .ready with
  | [e] => e.2.pc.toNat
  | [] => 0
  | _ => (Config.freeWord s.freeCtr).toNat % 2 ^ 64

/-- WHL_DBG_CREW_s: zero unless STOPPED and the slot holds a crew (18 R622). -/
def readDbgCrew (s : State) (w slot o : Nat) : Reg :=
  if s.dbg.stop != 3 then r64 0 else
  match s.crew? w slot with
  | none => r64 0
  | some c =>
    if o = 0 then r64 (pack [(c.saggar, 52), (c.stream, 32), (c.live.toNat, 0)])
    else if o = 8 then r64 (nextPc s c)
    else if o = 0x10 then r64 (pack [(c.paths.length, 32), (c.vl, 0)])
    else r32 0

/-- A wheel window (03 R119, 18 R622): all zero for a fused-off wheel (00 R6). -/
def readWhl (s : State) (w a : Nat) : Reg :=
  let x := s.wheel w
  let held := x.work.deque ++ x.work.kept
  if !s.present w then r32 0
  else if a = 0 then r32 (pack [(bit x.ctl.evict, 1), (bit x.ctl.enable, 0)])
  else if a = 4 then
    r32 (pack [(x.crews.length, 16), (x.ctl.split, 10), (bit x.ctl.resv.isSome, 9), (bit x.ctl.gated, 8), (x.ctl.state.code, 0)])
  else if a = 8 then r32 (pack [(held.length, 16), ((held.map TaskRange.count).sum, 0)])
  else if a = 0x10 then r64 x.work.taken.toNat
  else if a = 0x18 then r64 x.work.given.toNat
  else if a = 0x20 then r64 x.work.batches.toNat
  else if a = 0x30 then r64 x.ctl.lastFault.toNat
  else if 0x1000 ≤ a ∧ a < 0x1400 then readTallyAt (Tab.get {} x.tallies ((a - 0x1000) / 0x20)) (a % 0x20)
  else if 0x2000 ≤ a ∧ a < 0x2800 then readDbgCrew s w ((a - 0x2000) / 0x20) (a % 0x20)
  else r32 0

/-- One watchpoint's registers (18 R621): an enable that waits for a creation reads as written. -/
def readWatch (x : Watchpoint) (o : Nat) : Reg :=
  if o = 0 then r32 (if x.latched then x.ctl ||| (1#32 <<< 31) else x.ctl).toNat
  else if o = 8 then r64 x.base.toNat
  else if o = 0x10 then r64 x.limit.toNat
  else if o = 0x18 then r64 x.hits.toNat
  else r32 0

/-- DBG_ (18 R621). -/
def readDbg (s : State) (a : Nat) : Reg :=
  let d := s.dbg
  if a = 0 then r32 (pack [(bit d.byMedia, 3)])
  else if a = 4 then r32 (pack [(bit d.armError, 3), (d.stop, 0)])
  else if a = 8 then r64 d.t.toNat
  else if a = 0x10 then r64 d.mtSec.toNat
  else if a = 0x18 then r32 d.mtNs.toNat
  else if a = 0x20 then r64 d.u.toNat
  else if a = 0x30 then r32 (pack [(bit d.sampleOn, 31), (d.interval, 0)])
  else if a = 0x40 then r64 d.mledCount.toNat
  else if a = 0x48 then r32 d.sel
  else if 0x50 ≤ a ∧ a < 0x70 then r64 (bits (Tab.get 0 d.mled d.sel).toNat (8 * (a - 0x50)) 64)
  else if a = 0x70 then r64 d.lost.toNat
  else if 0x1000 ≤ a ∧ a < 0x2000 then readWatch (watchpoint s ((a - 0x1000) / 0x40)) (a % 0x40)
  else if 0x2000 ≤ a ∧ a < 0x2800 then readTallyAt (Tab.get {} d.gtallies ((a - 0x2000) / 0x20)) (a % 0x20)
  else r32 0

/-- CMN_ and HBM_ (08 R330). -/
def readCmn (s : State) (a : Nat) : Reg :=
  if a = 0 then r32 (pack [(s.img.modGib, 16), (s.img.ceLimit, 8)])
  else if 0x1000 ≤ a ∧ a < 0x1200 then
    let x := s.slice ((a - 0x1000) / 4)
    r32 (pack [(bit x.carries, 8), (x.state, 0)])
  else if 0x2000 ≤ a ∧ a < 0x2400 then r64 (s.slice ((a - 0x2000) / 8)).ce.toNat
  else if 0x10000 ≤ a ∧ a < 0x10800 then
    let x := s.pc ((a - 0x10000) / 4)
    r32 (pack [(x.state, 26), (min 3 x.ueWin, 24), (min 0xFFFF x.ceWin, 0)])
  else if 0x11000 ≤ a ∧ a < 0x12000 then r64 (s.pc ((a - 0x11000) / 8)).ce.toNat
  else if 0x20000 ≤ a ∧ a < 0x20020 then
    let x := s.stack ((a - 0x20000) / 4)
    r32 (pack [(x.sparePc, 4), (bit x.spareUsed, 3), (if x.state = 0 && s.hub.state == .training then 1 else x.state, 0)])
  else r32 0

/-- GRN_ (08 R330): all zero on C384 (00 R9). -/
def readGrn (s : State) (a : Nat) : Reg :=
  if s.fuse.variant = 3 then r32 0
  else if a = 0 then r32 s.img.stripeGib
  else if a < 0x1000 ∨ 0x1400 ≤ a then r32 0
  else
    let x := s.grn ((a - 0x1000) / 0x100)
    let o := a % 0x100
    if o = 0 then r32 (bit x.enable)
    else if o = 4 then r32 (pack [(bit x.refused, 8), (bit x.linkUp, 3), (x.state.code, 0)])
    else if o = 8 then r64 x.ce.toNat
    else if o = 0x10 then r64 x.poison.toNat
    else r32 0

/-- The shared register map of BAR_0. Offsets not listed read zero. -/
def readBar0 (s : State) (a : Nat) : Reg :=
  if a < 0x100000 then readHub s a
  else if a < 0x200000 then readRve s (a - 0x100000)
  else if a < 0x300000 then readTim s (a - 0x200000)
  else if a < 0x400000 then readFen s (a - 0x300000)
  else if a < 0x500000 then readSag s (a - 0x400000)
  else if a < 0x600000 then readLnk s (a - 0x500000)
  else if a < 0x700000 then readCtg s (a - 0x600000)
  else if a < 0x800000 then readFrm s (a - 0x700000)
  else if a < 0x1000000 then readDbg s (a - 0x800000)
  else if a < 0x1C00000 then readWhl s ((a - 0x1000000) / 0x10000) (a % 0x10000)
  else if 0x2000000 ≤ a ∧ a < 0x3000000 then readCmn s (a - 0x2000000)
  else if 0x3000000 ≤ a ∧ a < 0x4000000 then readGrn s (a - 0x3000000)
  else r32 0

/-- The mailbox window of a function (19 R631). -/
def readMbx (s : State) (fn o : Nat) : Reg :=
  let m := s.mbx fn
  if o = 0 then r32 m.reqTail.toNat
  else if o = 4 then r32 m.reqHead.toNat
  else if o = 8 then r32 m.cplTail.toNat
  else if o = 0xC then r32 m.cplHead.toNat
  else if o = 0x10 then
    r32 (pack [(m.lost, 16), ((m.inflight.filter fun r => !r.discard).length, 8), (bit m.rejected, 1), (bit s.serving, 0)])
  else if 0x400 ≤ o ∧ o < 0xC00 then r64 (leNat (getBytes m.slots ((o - 0x400) / 8 * 8) 8))
  else if 0xC00 ≤ o ∧ o < 0x1000 then r64 (leNat (getBytes m.cpl ((o - 0xC00) / 8 * 8) 8))
  else r32 0

/-- An access of 32 or 64 bits through a map whose 64-bit registers lie at multiples of 8 (00 R17): either half of a 64-bit register reads
alone; a 64-bit access reads no 32-bit register. -/
def access (map : Nat → Reg) (a : Nat) (w64 : Bool) : Nat :=
  let b := map (a / 8 * 8)
  if w64 then (if a % 8 = 0 ∧ b.1 then b.2 else 0)
  else if a % 4 ≠ 0 then 0
  else if b.1 then bits b.2 (8 * (a % 8)) 32
  else (map a).2

/-- What a read of BAR_0 or of the mailbox window in BAR_2 returns (R626: nothing answers while the host port is down). -/
def readReg (s : State) (bar fn a : Nat) (w64 : Bool) : Nat :=
  if !hostUp s || !fnExists s fn then 0
  else if bar = 0 ∧ fn = 0 then access (readBar0 s) a w64
  else if bar = 2 ∧ 0xFFF000 ≤ a ∧ a < 2 ^ 24 then access (fun o => readMbx s fn o) (a - 0xFFF000) w64
  else 0

end Sys2Proof.Machine
end

