-- ==== Sys2Proof/WellFormed.lean ====
section
/-!
DEFINITION. Well-formed commands: every operand lies in the range the spec's numbering gives it (00 R4, 01 R23, 02 R49, 11 R395, R407, 13
R462, 16 R548, 19 R623, R639). Identities of things in flight, counts and free data carry no range.
-/
namespace Sys2Proof

/-- The issuer exists: wheel, crew slot and path (03 R73, R84, R119). -/
def Issue.ok (i : Issue) : Bool := decide (i.wheel < 192) && decide (i.slot < 64) && decide (i.path < 32)

/-- Every operand is in range. Wheel 192 stands for the hub's global tallies. -/
def wellFormed (c : Instr) : Bool :=
  match c with
  | .add i => i.ok
  | .sub i => i.ok
  | .mulLo i => i.ok
  | .mulHi i => i.ok
  | .mulHiu i => i.ok
  | .div i => i.ok
  | .and i => i.ok
  | .or i => i.ok
  | .xor i => i.ok
  | .shl i => i.ok
  | .shr i => i.ok
  | .sar i => i.ok
  | .min i => i.ok
  | .max i => i.ok
  | .minu i => i.ok
  | .maxu i => i.ok
  | .popc i => i.ok
  | .clz i => i.ok
  | .mov i => i.ok
  | .sel i => i.ok
  | .addi i => i.ok
  | .andi i => i.ok
  | .ori i => i.ok
  | .xori i => i.ok
  | .shli i => i.ok
  | .shri i => i.ok
  | .movi i => i.ok
  | .movhi i => i.ok
  | .fadd i => i.ok
  | .fsub i => i.ok
  | .fmul i => i.ok
  | .fmin i => i.ok
  | .fmax i => i.ok
  | .ffma i => i.ok
  | .frcp i => i.ok
  | .frsq i => i.ok
  | .fsqrt i => i.ok
  | .fexp2 i => i.ok
  | .dadd i => i.ok
  | .dmul i => i.ok
  | .dfma i => i.ok
  | .dmov i => i.ok
  | .isetp i => i.ok
  | .fsetp i => i.ok
  | .plop i => i.ok
  | .bra i => i.ok
  | .brx i => i.ok
  | .call i => i.ok
  | .ret i => i.ok
  | .jpush i => i.ok
  | .join i => i.ok
  | .yield i => i.ok
  | .exit i => i.ok
  | .nop i => i.ok
  | .ld i => i.ok
  | .st i => i.ok
  | .atomAdd i => i.ok
  | .atomFadd i => i.ok
  | .atomMin i => i.ok
  | .atomMax i => i.ok
  | .atomAnd i => i.ok
  | .atomOr i => i.ok
  | .atomExch i => i.ok
  | .atomCas i => i.ok
  | .cvt i => i.ok
  | .tmrd i => i.ok
  | .sreg i => i.ok
  | .fence i => i.ok
  | .bellC i => i.ok
  | .acopy1d i => i.ok
  | .acopy2d i => i.ok
  | .acwait i => i.ok
  | .acread i => i.ok
  | .grecv i => i.ok
  | .ptab i => i.ok
  | .mx i => i.ok
  | .mxh i => i.ok
  | .mv i => i.ok
  | .tld i => i.ok
  | .tst i => i.ok
  | .tzero i => i.ok
  | .accWin i => i.ok
  | .accZero i => i.ok
  | .accRd i => i.ok
  | .accWr i => i.ok
  | .accRed i => i.ok
  | .opt i => i.ok
  | .gacc i => i.ok
  | .lstat i => i.ok
  | .uscaleSet i => i.ok
  | .vsetvl i => i.ok
  | .vgetvl i => i.ok
  | .vchain i => i.ok
  | .vred i => i.ok
  | .trav i => i.ok
  | .sig i => i.ok
  | .sigw i => i.ok
  | .sigR i => i.ok
  | .rput i => i.ok
  | .collect i => i.ok
  | .bellGjoin i => i.ok
  | .bellGleave i => i.ok
  | .bellGarrive i => i.ok
  | .bellGsignal i => i.ok
  | .bellGwait i => i.ok
  | .bellGreset i => i.ok
  | .nopCommand stream => decide (stream < 1048576)
  | .launch stream => decide (stream < 1048576)
  | .layerBegin stream => decide (stream < 1048576)
  | .layerCommit stream => decide (stream < 1048576)
  | .step stream => decide (stream < 1048576)
  | .signal stream => decide (stream < 1048576)
  | .wait stream => decide (stream < 1048576)
  | .gather stream => decide (stream < 1048576)
  | .gatherRelease stream => decide (stream < 1048576)
  | .prefetch stream => decide (stream < 1048576)
  | .tierMove stream => decide (stream < 1048576)
  | .guild stream => decide (stream < 1048576)
  | .arrayEntryStart wheel _ _ => decide (wheel < 192)
  | .mxCommit wheel _ _ => decide (wheel < 192)
  | .mxhPartnerTimeout wheel => decide (wheel < 192)
  | .mvCommit wheel _ => decide (wheel < 192)
  | .copyComplete wheel _ => decide (wheel < 192)
  | .chainComplete wheel _ => decide (wheel < 192)
  | .travQueryComplete wheel _ => decide (wheel < 192)
  | .crewStart wheel => decide (wheel < 192)
  | .marketRequest wheel => decide (wheel < 192)
  | .marketAnswer wheel => decide (wheel < 192)
  | .stealProbe wheel => decide (wheel < 192)
  | .stealProbeArrival wheel => decide (wheel < 192)
  | .stealAnswer wheel => decide (wheel < 192)
  | .idleRetry wheel => decide (wheel < 192)
  | .idleGate wheel => decide (wheel < 192)
  | .wheelRestart wheel => decide (wheel < 192)
  | .droop wheel period => decide (wheel < 192) && decide (4 ≤ period) && decide (period ≤ 16)
  | .bellTimeout wheel slot bell => decide (wheel < 192) && decide (slot < 64) && decide (bell < 4)
  | .mxConvergenceTimeout wheel slot => decide (wheel < 192) && decide (slot < 64)
  | .whlCtlEnable wheel => decide (wheel < 192)
  | .whlCtlDisable wheel => decide (wheel < 192)
  | .whlCtlEvict wheel => decide (wheel < 192)
  | .wheelDrainEnd wheel => decide (wheel < 192)
  | .evictionComplete wheel => decide (wheel < 192)
  | .homeSliceWrite wheel _ => decide (wheel < 192)
  | .homeSliceRead wheel _ => decide (wheel < 192)
  | .writeAck wheel _ => decide (wheel < 192)
  | .fillReturn wheel _ => decide (wheel < 192)
  | .combineTimeout wheel _ => decide (wheel < 192)
  | .signalApply wheel _ => decide (wheel < 192)
  | .wake _ => true
  | .sigwPoll _ => true
  | .sigwTimeout _ => true
  | .gbellArrival _ => true
  | .gbellTimeout saggar handle => decide (saggar < 4096) && decide (handle < 4096)
  | .remoteWrite _ => true
  | .remoteSignal _ => true
  | .putAck _ => true
  | .collectorCycle c => decide (c < 64)
  | .collectorCountAdvance c => decide (c < 64)
  | .collectorHeadReread c => decide (c < 64)
  | .collectorCoalesce c => decide (c < 64)
  | .collectorUnbindEnd c => decide (c < 64)
  | .doorbellWrite fn slot _ _ => decide (fn < 256) && decide (slot < 262080)
  | .doorbellRead fn slot => decide (fn < 256) && decide (slot < 262080)
  | .contextFetchEnd stream _ => decide (stream < 1048576)
  | .interactiveWaitExpiry _ => true
  | .saggarDrainEnd saggar => decide (saggar < 4096)
  | .streamDrainEnd stream => decide (stream < 1048576)
  | .gatherComplete stream slot _ => decide (stream < 1048576) && decide (slot < 5)
  | .gatherReleaseEffect stream slot => decide (stream < 1048576) && decide (slot < 5)
  | .offloadComplete _ => true
  | .restoreComplete _ => true
  | .tierMoveComplete _ => true
  | .guildComplete _ => true
  | .guildDrainEnd guild => decide (guild < 65536)
  | .frameZeroingEnd _ => true
  | .unmapComplete _ => true
  | .hbmScrub stack _ => decide (stack < 8)
  | .errorWindowEnd kind index => decide (kind < 13) && decide (index < 4096)
  | .pcMigrationEnd pc _ => decide (pc < 512)
  | .sliceTransferEnd slice _ => decide (slice < 128)
  | .grnPortEnable port => decide (port < 4)
  | .grnPortDisable port => decide (port < 4)
  | .grnPortDrainEnd port => decide (port < 4)
  | .grnPortTrainingEnd port _ => decide (port < 4)
  | .cxlLinkDown port _ => decide (port < 4)
  | .refLoss _ => true
  | .refReturn => true
  | .holdoverExpiry => true
  | .ptpSync _ => true
  | .ptpFollowUp _ => true
  | .ptpDelayResp _ => true
  | .ptpAnnounce _ => true
  | .ptpSyncTimeout => true
  | .genlockEdge => true
  | .genlockTimeout => true
  | .mediaSecondRollover => true
  | .timPairCapture => true
  | .timMtNsRead => true
  | .frmFlowEnable flow => decide (flow < 8)
  | .frmFlowDisable flow => decide (flow < 8)
  | .flowDrainEnd flow => decide (flow < 8)
  | .frameEdge flow => decide (flow < 8)
  | .reservationWake res => decide (res < 16)
  | .reservationStart res => decide (res < 16)
  | .reservationEnd res => decide (res < 16)
  | .releaseOnReady res => decide (res < 16)
  | .completionDeadline flow => decide (flow < 8)
  | .emissionStart flow => decide (flow < 8)
  | .framePacket flow => decide (flow < 8)
  | .emissionEnd flow => decide (flow < 8)
  | .flitReceive port f => decide (port < 24) && decide (f.seq < 4096) && decide (f.ackSeq < 4096)
  | .linkTimeMark port => decide (port < 24)
  | .replayTimeout port => decide (port < 24)
  | .retrainEnd port _ => decide (port < 24)
  | .lnkPortEnable port => decide (port < 32)
  | .lnkPortDisable port => decide (port < 32)
  | .portTrainingEnd port _ _ _ => decide (port < 32)
  | .portDrainEnd port => decide (port < 32)
  | .routeSwapTick => true
  | .ethDatagramReceive port d => decide (24 ≤ port) && decide (port < 32) && decide (d.module < 65536)
  | .ethResendTimeout module => decide (module < 65536)
  | .congestionRaise module => decide (module < 65536)
  | .collectiveControlReceive _ => true
  | .collectiveDataReceive _ => true
  | .ctgInsert ctg _ => decide (ctg < 8)
  | .ctgRemove ctg => decide (ctg < 8)
  | .coneWindow ctg _ _ => decide (ctg < 8)
  | .coneWrite ctg => decide (ctg < 8)
  | .wearPrediction ctg => decide (ctg < 8)
  | .leaveRequest _ => true
  | .grantCycle => true
  | .leaveAnswer _ => true
  | .lingerExpiry wheel => decide (wheel < 192)
  | .permitRenewal _ => true
  | .powerWindow m mv => decide (m < 65536) && decide (mv < 65536)
  | .thermalWindow t0 t1 hub coolant => decide (t0 < 256) && decide (t1 < 256) && decide (hub < 256) && decide (coolant < 256)
  | .thermalTrip die reading => decide (die < 3) && decide (reading < 256)
  | .auxPowerOn => true
  | .auxPowerLoss => true
  | .pwrGoodAssert => true
  | .pwrGoodDeassert => true
  | .powerDownEnd => true
  | .mainInputFault mv => decide (mv < 65536)
  | .modResetAssert => true
  | .modResetRelease strap => decide (strap < 8)
  | .poweringEnd _ strap => decide (strap < 8)
  | .loadingEnd _ => true
  | .trainingLinksEnd _ => true
  | .selfTestEnd _ => true
  | .stateTimeout => true
  | .errorReport e => decide (e.kind < 13) && decide (e.index < 4096)
  | .fenceComplete _ => true
  | .fenRecover _ => true
  | .recoveryEnd kind index _ => decide (kind < 13) && decide (index < 4096)
  | .guildCommit saggar => decide (saggar < 4096)
  | .securingDataReceive _ => true
  | .secureRestoreDone saggar => decide (saggar < 4096)
  | .dunobSnapshotWritten saggar => decide (saggar < 4096)
  | .ledgerDrain => true
  | .sampleWindowEnd => true
  | .tallyWrap wheel index _ => decide (wheel ≤ 192) && decide (index < (if wheel < 192 then 32 else 64))
  | .tallyWrite wheel index _ => decide (wheel ≤ 192) && decide (index < (if wheel < 192 then 32 else 64))
  | .dbgStopArm _ => true
  | .dbgStopCancel => true
  | .dbgStopResume => true
  | .globalStopTick => true
  | .stopDrainEnd => true
  | .globalResumeTick => true
  | .mbxReqTailWrite fn _ => decide (fn < 256)
  | .mbxTake fn => decide (fn < 256)
  | .mbxCplHeadWrite fn _ => decide (fn < 256)
  | .identityQuery fn _ => decide (fn < 256)
  | .saggarCreate fn _ => decide (fn < 256)
  | .saggarDestroy fn _ => decide (fn < 256)
  | .saggarQuery fn _ => decide (fn < 256)
  | .scaleReset fn _ => decide (fn < 256)
  | .streamCreate fn _ => decide (fn < 256)
  | .streamDestroy fn _ => decide (fn < 256)
  | .streamReset fn _ => decide (fn < 256)
  | .streamQuery fn _ => decide (fn < 256)
  | .assignFrames fn _ => decide (fn < 256)
  | .map fn _ => decide (fn < 256)
  | .unmap fn _ => decide (fn < 256)
  | .releaseFrames fn _ => decide (fn < 256)
  | .collectorBind fn _ => decide (fn < 256)
  | .collectorUnbind fn _ => decide (fn < 256)
  | .ledgerBind fn _ => decide (fn < 256)
  | .ledgerUnbind fn _ => decide (fn < 256)
  | .tallyRead fn _ => decide (fn < 256)
  | .watchSet fn _ => decide (fn < 256)
  | .guildBind fn _ => decide (fn < 256)
  | .guildUnbind fn _ => decide (fn < 256)
  | .linkSetId fn _ => decide (fn < 256)
  | .routeLoad fn _ => decide (fn < 256)
  | .routeSwap fn _ => decide (fn < 256)
  | .frmFlowBind fn _ => decide (fn < 256)
  | .frmFlowUnbind fn _ => decide (fn < 256)
  | .secureRestore fn _ => decide (fn < 256)
  | .secureMemberDown fn _ => decide (fn < 256)
  | .snapshotLoad fn _ => decide (fn < 256)
  | .moduleReset fn _ => decide (fn < 256)
  | .keyRevoke fn _ => decide (fn < 256)
  | .configCommitSvn fn _ => decide (fn < 256)
  | .configWrite fn _ => decide (fn < 256)
  | .configSelect fn _ => decide (fn < 256)
  | .configStatus fn _ => decide (fn < 256)
  | .configLog fn _ => decide (fn < 256)
  | .pcieReset => true
  | .vfFlr fn => decide (fn < 256)
  | .vfEnableClear => true
  | .busMasterEnable fn => decide (fn < 256)
  | .mctpSetEndpointId eid => decide (eid < 256)
  | .pldmRequestUpdate _ _ _ => true
  | .pldmTransferComplete _ _ => true
  | .pldmActivateFirmware => true
  | .pldmGetSensorReading sensor => decide (0 < sensor) && decide (sensor ≤ 8)
  | .pldmSetStateEffecter _ _ => true
  | .pldmGetPdr handle => decide (handle < 16)
  | .pldmFruData => true
  | .getVersion => true
  | .getCapabilities => true
  | .negotiateAlgorithms => true
  | .getDigests => true
  | .getCertificate => true
  | .challenge => true
  | .getMeasurements index => decide (index < 256)
  | .registerWrite bar fn addr width64 _ => (bar == 0 || bar == 2 || bar == 4) && decide (fn < 256) && decide (addr < 67108864) && decide (addr % (if width64 then 8 else 4) = 0)
  | .rootPllLock => true
  | .illegalInstruction i _ _ => i.ok
  | .chainSegmentEnd wheel => decide (wheel < 192)
  | .noCorrectableFlitTimeout port => decide (port < 24)
  | .cmisFault ctg state code => decide (ctg < 8) && decide (state < 256) && decide (code < 256)
  | .flashUnitDone => true
  | .hostReadCompletion _ _ _ => true
  | .msixUnmask vector => decide (vector < 2041)
  | .vfEnableSet n => decide (0 < n) && decide (n < 256)
  | .entdaa address => decide (address < 128)
  | .pldmBaseDiscovery => true

end Sys2Proof
end

