-- ==== Sys2Proof/Safety.lean ====
section
/-!
DEFINITION. The terms claims are stated in: what no step undoes, when an instruction issues, what only counts, how a mailbox command
begins.
-/
namespace Sys2Proof.Machine

/-- Fuses only move one way (15 R536, R537): a revoked key stays revoked, the minimum SVN never falls, and what was fixed at
manufacture stays. -/
def fuseKept (a b : Fuse) : Prop :=
  b.variant = a.variant ∧ b.absent = a.absent ∧ b.provisioned = a.provisioned ∧ b.serial = a.serial ∧
  a.revoked &&& b.revoked = a.revoked ∧ a.svnMin ≤ b.svnMin

/-- `y` is the wheel `x` but for its tallies and the stamp of its last event, which never falls (02 R47). -/
def WheelCounted (x y : Wheel) : Prop :=
  ∃ ts n, x.ctl.lastStamp ≤ n ∧ y = { x with tallies := ts, ctl := { x.ctl with lastStamp := n } }

/-- `t` is `s` but for tallies, and the records their overflow writes or loses, with their stamps (18 R602 to R606, R600, R601). -/
def CountsOnly (s t : State) : Prop :=
  (∃ ws gs q l g n, s.freeCtr ≤ n ∧ t = { s with
    wheels := ws, dbg := { s.dbg with queue := q, lost := l, gtallies := g }, front := { s.front with saggars := gs }, freeCtr := n }) ∧
  (∀ w, WheelCounted (s.wheel w) (t.wheel w)) ∧
  (∀ k, ∃ l, t.saggar k = { s.saggar k with ledger := l })

/-- Nothing keeps the instruction from executing: its path is ready for it (`ok`) and has its turn (03 R83 to R85), no result or acquire
holds it back (06 R242, 09 R343), its page may be fetched (08 R312, 03 R122), and its form raises no fault: it is legal, its registers in
range and its pairs even (03 R74, R76, R670), or it has no executing thread and then faults on nothing (04 R140, 06 R221). `c` is its
crew and `x` its path. -/
def Issues (s : State) (i : Issue) (ok : PathWait → Bool) (f : Form) (c : Crew) (x : CPath) : Prop :=
  i.ok = true ∧ issuer s i ok = some (c, x) ∧ heldBack s i.wheel c x f = false ∧ fetchOk s c x = true ∧
    issueFault c f (guardMask c x i) = none

/-- `d` is the crew `c` after its path `p`, which stood as `x`, has executed one instruction that changes no register: the path goes on
behind it, and counts the issue (03 R85). -/
def WentOn (c d : Crew) (p : Nat) (x : CPath) : Prop :=
  path? d p = some { x with pc := x.pc + 8, run := if c.lastPath = some p then x.run + 1 else 1 } ∧
  (∀ q, q ≠ p → path? d q = path? c q) ∧ d.lastPath = some p

/-- The registers of `d` are those of `c`, but that register `r` of each lane of `m` holds `v` of that lane. -/
def RegsBecome (c d : Crew) (m : Word) (r : Nat) (v : Nat → Word) : Prop :=
  ∀ l q, l < 32 → q < 256 → reg d l q = if m.getLsbD l ∧ q = r then v l else reg c l q

/-- The partition has taken its turn (03 R83), the crew is `d`, and nothing else has changed but counters. -/
def CrewIs (i : Issue) (c : Crew) (x : CPath) (d : Crew) (s t : State) : Prop :=
  t.crew? i.wheel i.slot = some d ∧ CountsOnly ((turn s i c x).setCrew i.wheel i.slot d) t

/-- An instruction that writes one register of each executing thread: the value, the path, and nothing else. -/
def WritesReg (i : Issue) (c : Crew) (x : CPath) (v : Nat → Word) (s t : State) : Prop :=
  ∃ d, RegsBecome c d (guardMask c x i) i.da.toNat v ∧ WentOn c d i.path x ∧
    d = { c with regs := d.regs, paths := d.paths, lastPath := d.lastPath } ∧
    CrewIs i c x d s t

/-- The outcome is a next state of which `P` holds. -/
def Goes (o : Host.Outcome State Fault Refusal) (P : State → Prop) : Prop := ∃ t, o = .next t ∧ P t

/-- `t` with the queue and the fuses of `s`: what a command's effect leaves alone. -/
def kept (s t : State) : State := { t with pending := s.pending, fuse := s.fuse }

/-- The crew of an issue once its path has counted it (03 R85). -/
def noted (i : Issue) (c : Crew) (x : CPath) : Crew :=
  modPath { c with lastPath := some i.path } i.path fun y => { y with run := if c.lastPath = some i.path then x.run + 1 else 1 }

/-- The issuing path stands behind the instruction. -/
def PathPast (i : Issue) (x : CPath) (t : State) : Prop :=
  ((t.crew? i.wheel i.slot).bind fun d => path? d i.path).map CPath.pc = some (x.pc + 8)

/-- An instruction that changes the crew to `d`, sends its path on, and changes nothing else. -/
def BecomesCrew (i : Issue) (c : Crew) (x : CPath) (d : Crew) (s t : State) : Prop :=
  WentOn c d i.path x ∧ CrewIs i c x d s t

/-- Keys rise strictly, as in every table a machine builds. -/
def RisingKeys {α : Type} (t : Tab α) : Prop := (Tab.keys t).Pairwise (· < ·)

/-- Consecutive instructions the path has issued, this one counted (03 R85). -/
def runOf (i : Issue) (c : Crew) (x : CPath) : Nat := if c.lastPath = some i.path then x.run + 1 else 1

/-- `d` is `c` but for its issuing path, which stands as `y`, and the count of the issue. -/
def PathBecomes (i : Issue) (c d : Crew) (y : CPath) : Prop :=
  path? d i.path = some y ∧ (∀ q, q ≠ i.path → path? d q = path? c q) ∧ d.lastPath = some i.path ∧
  d = { c with paths := d.paths, lastPath := d.lastPath }

/-- Where thread `l` of a path goes at a branch: to its target when it takes the branch, else behind it. -/
def goesTo (i : Issue) (c : Crew) (x : CPath) (target : Nat → DWord) (l : Nat) : DWord :=
  if (guardMask c x i).getLsbD l then target l else x.pc + 8

/-- Threads `k` and `l` of a path go the same way: both take the branch or neither does, to one address. -/
def SameWay (i : Issue) (c : Crew) (x : CPath) (target : Nat → DWord) (k l : Nat) : Prop :=
  (guardMask c x i).getLsbD k = (guardMask c x i).getLsbD l ∧ goesTo i c x target k = goesTo i c x target l

/-- `d` is the crew after a branch of its path (03 R84, R86): the threads that go one way form one ready path at the address they go to,
threads that differ in guard or target stand on different ones, every other path stays, and a split takes the address JPUSH recorded. -/
def Branched (i : Issue) (c : Crew) (x : CPath) (target : Nat → DWord) (d : Crew) : Prop :=
  (∀ l, x.mask.getLsbD l = true → ∃ q y, path? d q = some y ∧ y.pc = goesTo i c x target l ∧ y.wait = .ready ∧
    ∀ k, y.mask.getLsbD k = true ↔ x.mask.getLsbD k = true ∧ SameWay i c x target k l) ∧
  (∀ q y, path? d q = some y → (q ≠ i.path ∧ path? c q = some y) ∨ ∃ l, x.mask.getLsbD l = true ∧ y.pc = goesTo i c x target l ∧
    ∀ k, y.mask.getLsbD k = true ↔ x.mask.getLsbD k = true ∧ SameWay i c x target k l) ∧
  (∀ q y, q ≠ i.path → path? c q = some y → path? d q = some y) ∧
  ((∀ k l, x.mask.getLsbD k = true → x.mask.getLsbD l = true → SameWay i c x target k l) ∨ x.reconv = none → d.splits = c.splits) ∧
  (∀ a k l, x.reconv = some a → x.mask.getLsbD k = true → x.mask.getLsbD l = true → ¬SameWay i c x target k l →
    d.splits = Tab.ins c.splits ((Tab.keys c.splits).getLastD 0 + 1) { addr := a, members := x.mask } ∧
    ∀ q y, path? d q = some y → (q = i.path ∨ path? c q = none) → y.reconv = none) ∧
  d = { c with regs := d.regs, paths := d.paths, splits := d.splits, lastPath := some i.path }

/-- As `RegsBecome`, for the pair at `r` (03 R74). -/
def PairsBecome (c d : Crew) (m : Word) (r : Nat) (v : Nat → DWord) : Prop :=
  ∀ l q, l < 32 → q < 256 → reg d l q =
    if m.getLsbD l ∧ q = r then (v l).setWidth 32 else if m.getLsbD l ∧ q = r + 1 then (v l >>> 32).setWidth 32 else reg c l q

/-- As `RegsBecome`, for predicate `p`; p7 takes no value (03 R75). -/
def PredsBecome (c d : Crew) (m : Word) (p : Nat) (v : Nat → Bool) : Prop :=
  ∀ l q, l < 32 → q < 8 → predOf d l q = if m.getLsbD l ∧ q = p ∧ p ≠ 7 then v l else predOf c l q

/-- Integer instructions with two register operands: what DA becomes (03 R124, R671). -/
def alu2Spec : Instr → Option (Issue × (Word → Word → Word))
  | .add i => some (i, fun a b => BitVec.ofNat 32 (a.toNat + b.toNat))
  | .sub i => some (i, fun a b => BitVec.ofInt 32 (a.toInt - b.toInt))
  | .mulLo i => some (i, fun a b => BitVec.ofNat 32 (a.toNat * b.toNat))
  | .mulHi i => some (i, fun a b => BitVec.ofInt 32 (a.toInt * b.toInt / 2 ^ 32))
  | .mulHiu i => some (i, fun a b => BitVec.ofNat 32 (a.toNat * b.toNat / 2 ^ 32))
  | .div i => some (i, fun a b => if b = 0 then 0xFFFFFFFF else BitVec.ofInt 32 (a.toInt.tdiv b.toInt))
  | .and i => some (i, fun a b => a &&& b)
  | .or i => some (i, fun a b => a ||| b)
  | .xor i => some (i, fun a b => a ^^^ b)
  | .shl i => some (i, fun a b => BitVec.ofNat 32 (a.toNat * 2 ^ (b.toNat % 32)))
  | .shr i => some (i, fun a b => BitVec.ofNat 32 (a.toNat / 2 ^ (b.toNat % 32)))
  | .sar i => some (i, fun a b => BitVec.ofInt 32 (a.toInt / 2 ^ (b.toNat % 32)))
  | .min i => some (i, fun a b => BitVec.ofInt 32 (min a.toInt b.toInt))
  | .max i => some (i, fun a b => BitVec.ofInt 32 (max a.toInt b.toInt))
  | .minu i => some (i, fun a b => BitVec.ofNat 32 (min a.toNat b.toNat))
  | .maxu i => some (i, fun a b => BitVec.ofNat 32 (max a.toNat b.toNat))
  | _ => none

/-- Integer instructions with the immediate of X, sign-extended (03 R124): the values of X allowed, and what DA becomes. -/
def aluImmSpec : Instr → Option (Issue × Bool × (Word → Int → Word))
  | .addi i => some (i, true, fun a n => BitVec.ofInt 32 (a.toInt + n))
  | .andi i => some (i, true, fun a n => a &&& BitVec.ofInt 32 n)
  | .ori i => some (i, true, fun a n => a ||| BitVec.ofInt 32 n)
  | .xori i => some (i, true, fun a n => a ^^^ BitVec.ofInt 32 n)
  | .shli i => some (i, decide (i.x.toNat < 32), fun a n => BitVec.ofNat 32 (a.toNat * 2 ^ n.toNat))
  | .shri i => some (i, decide (i.x.toNat < 32), fun a n => BitVec.ofNat 32 (a.toNat / 2 ^ n.toNat))
  | _ => none

/-- Other instructions that write DA alone, lane by lane: their form, and the value. -/
def aluOtherSpec : Instr → Option (Issue × Form × (Crew → Nat → Word))
  | .popc i => some (i, { legal := i.x == 0 && i.sb == 0, regs := [da i, sa i] },
      fun c l => BitVec.ofNat 32 ((List.range 32).filter fun k => (reg c l (sa i)).getLsbD k).length)
  | .clz i => some (i, { legal := i.x == 0 && i.sb == 0, regs := [da i, sa i] },
      fun c l => BitVec.ofNat 32 (((List.range 33).find? fun n => decide ((reg c l (sa i)).toNat < 2 ^ n)).map (32 - ·) |>.getD 0))
  | .mov i => some (i, { legal := i.x == 0 && i.sb == 0, regs := [da i, sa i] }, fun c l => reg c l (sa i))
  | .sel i => some (i, { legal := decide (i.x.toNat < 8), regs := [da i, sa i, sb i] },
      fun c l => if predOf c l (i.x.toNat % 8) then reg c l (sa i) else reg c l (sb i))
  | .movi i => some (i, { legal := i.sa == 0 && i.sb == 0, regs := [da i] }, fun _ _ => BitVec.ofInt 32 i.x.toInt)
  | .movhi i => some (i, { legal := i.sa == 0 && i.sb == 0 && decide (i.x.toNat < 2 ^ 16), regs := [da i] },
      fun c l => BitVec.ofNat 32 (i.x.toNat % 2 ^ 16 * 2 ^ 16 + (reg c l (da i)).toNat % 2 ^ 16))
  | .sreg i => some (i, { legal := i.sa == 0 && i.sb == 0 && decide (i.x.toNat < 10), regs := [da i] },
      fun c l => BitVec.ofNat 32 (([l, i.slot, c.part, i.wheel, c.task, c.saggar % 4096, c.stream, c.layer, c.operator, c.live.toNat][i.x.toNat]?).getD 0))
  | .acread i => some (i, { guarded := true, legal := i.sa == 0 && i.sb == 0 && xf i 22 2 == 0 && xf i 0 18 == 0, regs := [da i] },
      fun c _ => Tab.get 0 c.ac (i.x.toNat / 2 ^ 18 % 16))
  | .vgetvl i => some (i, { guarded := true, legal := i.sa == 0 && i.sb == 0 && i.x == 0, regs := [da i] }, fun c _ => BitVec.ofNat 32 c.vl)
  | _ => none

/-- FP32 instructions (05 R173, 03 R668): their form, and the value as the numerics of 05 give it. -/
def fpSpec : Instr → Option (Issue × Form × (Crew → Nat → Word))
  | .fadd i => some (i, { legal := i.x == 0, regs := [da i, sa i, sb i] }, fun c l => fadd (reg c l (sa i)) (reg c l (sb i)))
  | .fsub i => some (i, { legal := i.x == 0, regs := [da i, sa i, sb i] }, fun c l => fsub (reg c l (sa i)) (reg c l (sb i)))
  | .fmul i => some (i, { legal := i.x == 0, regs := [da i, sa i, sb i] }, fun c l => fmul (reg c l (sa i)) (reg c l (sb i)))
  | .fmin i => some (i, { legal := i.x == 0, regs := [da i, sa i, sb i] }, fun c l => fmin (reg c l (sa i)) (reg c l (sb i)))
  | .fmax i => some (i, { legal := i.x == 0, regs := [da i, sa i, sb i] }, fun c l => fmax (reg c l (sa i)) (reg c l (sb i)))
  | .ffma i => some (i, { legal := xf i 0 16 == 0, regs := [da i, sa i, sb i, xf i 16 8] },
      fun c l => ffma (reg c l (sa i)) (reg c l (sb i)) (reg c l (xf i 16 8)))
  | .frcp i => some (i, { legal := i.x == 0 && i.sb == 0, regs := [da i, sa i] }, fun c l => rcp32 (reg c l (sa i)))
  | .frsq i => some (i, { legal := i.x == 0 && i.sb == 0, regs := [da i, sa i] }, fun c l => rsqrt32 (reg c l (sa i)))
  | .fsqrt i => some (i, { legal := i.x == 0 && i.sb == 0, regs := [da i, sa i] }, fun c l => fsqrt (reg c l (sa i)))
  | .fexp2 i => some (i, { legal := i.x == 0 && i.sb == 0, regs := [da i, sa i] }, fun c l => exp2_32 (reg c l (sa i)))
  | _ => none

/-- FP64 instructions (05 R173, R177): their form, and the value. -/
def dpSpec : Instr → Option (Issue × Form × (Crew → Nat → DWord))
  | .dadd i => some (i, { legal := i.x == 0, pairs := [da i, sa i, sb i] }, fun c l => dadd (pair c l (sa i)) (pair c l (sb i)))
  | .dmul i => some (i, { legal := i.x == 0, pairs := [da i, sa i, sb i] }, fun c l => dmul (pair c l (sa i)) (pair c l (sb i)))
  | .dfma i => some (i, { legal := xf i 0 16 == 0, pairs := [da i, sa i, sb i, xf i 16 8] },
      fun c l => dfma (pair c l (sa i)) (pair c l (sb i)) (pair c l (xf i 16 8)))
  | .dmov i => some (i, { legal := i.x == 0 && i.sb == 0, pairs := [da i, sa i] }, fun c l => pair c l (sa i))
  | _ => none

/-- Compares and predicate logic (03 R124, R669): their form, and the predicate's value. -/
def predSpec : Instr → Option (Issue × Form × (Crew → Nat → Bool))
  | .isetp i => some (i, { legal := decide (da i < 8) && xf i 0 19 == 0 && decide (xf i 20 4 < 6), regs := [sa i, sb i] },
      fun c l =>
        let a := if i.x.getLsbD 19 then (reg c l (sa i)).toInt else (reg c l (sa i)).toNat
        let b := if i.x.getLsbD 19 then (reg c l (sb i)).toInt else (reg c l (sb i)).toNat
        [decide (a = b), decide (a ≠ b), decide (a < b), decide (a ≤ b), decide (b < a), decide (b ≤ a)].getD (xf i 20 4) false)
  | .fsetp i => some (i, { legal := decide (da i < 8) && xf i 0 20 == 0 && decide (xf i 20 4 < 14), regs := [sa i, sb i] },
      fun c l => (fcond (xf i 20 4) (reg c l (sa i)) (reg c l (sb i))).getD false)
  | .plop i => some (i, { legal := decide (da i < 8) && decide (sa i < 8) && decide (sb i < 8) && decide (i.x.toNat < 4) },
      fun c l =>
        let a := predOf c l (sa i)
        let b := predOf c l (sb i)
        [a && b, a || b, a != b, a && !b].getD (i.x.toNat) false)
  | _ => none

/-! ### Memory instructions -/

/-- The form of LD and of ST (03 R124, R670): `d` is the register that holds the datum, `z` the field that must be zero, `load` that it
reads. -/
def datumForm (i : Issue) (load : Bool) (d : Nat) (z : BitVec 8) : Form :=
  let f : Form := { reads := load && !i.x.getLsbD 18, legal := decide (xf i 21 3 ≤ 4) && xf i 19 2 != 3 && xf i 16 2 != 3 && z == 0 }
  dataForm (if i.x.getLsbD 18 then { f with regs := [sa i] } else { f with pairs := [sa i] }) (xf i 21 3) d

/-- Bytes of the datum of LD and ST. -/
def width (i : Issue) : Nat := widthOf (xf i 21 3)

/-- The executing threads, and the addresses they access in device memory through SA plus the offset of X. -/
def lanes (i : Issue) (c : Crew) (x : CPath) : List Nat := lanesOf (guardMask c x i)
def devAddrs (i : Issue) (c : Crew) (x : CPath) : List DWord := (lanes i c x).map (devAddr i c)
/-- As `devAddrs`, of instructions that add no offset. -/
def saAddrs (i : Issue) (c : Crew) (x : CPath) : List DWord := (lanes i c x).map fun l => pair c l (sa i)

/-- Accesses of a crew that fault on nothing: aligned to `n`, mapped with the permission, and no held range written (08 R312). -/
def accessOk (s : State) (k : Nat) (write : Bool) (n : Nat) (vas : List DWord) : Prop :=
  (∀ a ∈ vas, a.toNat % n = 0) ∧ firstFault s k write n vas = none

/-- The eight atomics. -/
def atomSpec : Instr → Option (Issue × AtomOp)
  | .atomAdd i => some (i, .add)
  | .atomFadd i => some (i, .fadd)
  | .atomMin i => some (i, .min)
  | .atomMax i => some (i, .max)
  | .atomAnd i => some (i, .and)
  | .atomOr i => some (i, .or)
  | .atomExch i => some (i, .exch)
  | .atomCas i => some (i, .cas)
  | _ => none

/-- An atomic of 64 bits. -/
def wideAtom (i : Issue) : Bool := xf i 21 3 == 3

/-- The form of an atomic (03 R124, R670): 32 or 64 bits, no 64-bit FADD; CAS takes two values from SB on. -/
def atomForm (op : AtomOp) (i : Issue) : Form :=
  { legal := xf i 0 19 == 0 && (xf i 21 3 == 2 || (wideAtom i && op != .fadd))
    pairs := sa i :: (if wideAtom i then [da i] else []) ++
      (if op == .cas then (if wideAtom i then [sb i, sb i + 2] else []) else if wideAtom i then [sb i] else [])
    regs := (if wideAtom i then [] else [da i]) ++
      (if op == .cas then (if wideAtom i then [] else [sb i, sb i + 1]) else if wideAtom i then [] else [sb i]) }

/-- What an atomic of thread `l` carries to the home slice. -/
def atomEntry (op : AtomOp) (i : Issue) (c : Crew) (l : Nat) : StoreOp :=
  .atom op (wideAtom i) (if wideAtom i then pair c l (sb i) else (reg c l (sb i)).setWidth 64)
    (if wideAtom i then pair c l (sb i + 2) else (reg c l (sb i + 1)).setWidth 64) i.path l (da i) (xf i 19 2 == 1 || xf i 19 2 == 3)

/-- What of a read, and of an entry of the store path, its instruction fixes. -/
def readKey (r : ReadTxn) : Nat × Nat × Nat × ReadDest × Nat := (r.uid, r.pa, r.len, r.dest, r.order)
def storeKey (e : StoreEntry) : Nat × DWord × Nat × StoreOp × Bool := (e.uid, e.va, e.pa, e.op, e.rel)

/-- No byte of memory changes. -/
def SameMemory (s t : State) : Prop := ∀ a, memByte t a = memByte s a

/-- `d` is `c` but for its paths, their splits and waits, and its queries: every register, predicate, tile, accumulator word, window,
counter and byte of local store is as before. -/
def PathsOnly (c d : Crew) : Prop :=
  d = { c with paths := d.paths, lastPath := d.lastPath, splits := d.splits, bells := d.bells, mxSince := d.mxSince, queries := d.queries }

/-- The issue changed no crew of another wheel, no byte of memory and nothing of the time unit. -/
def Elsewhere (i : Issue) (s t : State) : Prop :=
  (∀ w k, w ≠ i.wheel → t.crew? w k = s.crew? w k) ∧ SameMemory s t ∧ t.time = s.time

/-- The issue changed nothing of its crew but its paths and waits, and nothing of the others or of memory. -/
def Untouched (i : Issue) (c : Crew) (s t : State) : Prop :=
  (∃ d, t.crew? i.wheel i.slot = some d ∧ PathsOnly c d) ∧ Elsewhere i s t

/-- The value that byte `off` of sector `sec` will have at its home slice: that of the youngest entry of the store path that holds it. -/
def pendingByte (l : List StoreEntry) (sec off : Nat) : Option Byte :=
  l.foldl (fun r e => match e.op with
    | .bytes t => if e.pa / 32 = sec then (Tab.find t off).or r else r
    | _ => r) none

/-- As `pendingByte`, after stores of `bs` at `pa` in order. -/
def pendingAfter (l : List StoreEntry) (ws : List (Nat × List Byte)) (sec off : Nat) : Option Byte :=
  ws.foldl (fun r w => if w.1 / 32 = sec then (Tab.find (sectorBytes w.1 w.2) off).or r else r) (pendingByte l sec off)

/-- Identities name one entry each of the wheel's store path, all given before, and no path of the crew waits for one to come. -/
def StoreIds (s : State) (w : Nat) (c : Crew) : Prop :=
  ((s.wheel w).mem.store.map StoreEntry.id).Nodup ∧ (∀ e ∈ (s.wheel w).mem.store, e.id < s.nextId) ∧
  ∀ p ∈ c.paths, p.2.wait ≠ .fence s.nextId ∧ ∀ b m, p.2.wait ≠ .arrive s.nextId b m

/-- The crew has a write in the store path that has not been acknowledged. -/
def writesOut (s : State) (w uid : Nat) : Bool := (s.wheel w).mem.store.any fun e => e.uid == uid && e.op != .fence

/-- Writes of the store path stay; those of the crew leave the combining buffer (09 R342). -/
def WritesStay (s t : State) (w uid : Nat) : Prop :=
  ((t.wheel w).mem.store.filter fun e => e.op != .fence) =
    ((s.wheel w).mem.store.filter fun e => e.op != .fence).map fun e => if e.uid = uid then { e with combining := false } else e

/-- A release of the crew, of identity `id`, is under way. -/
def ReleaseOut (t : State) (w id uid : Nat) : Prop :=
  ∃ e ∈ (t.wheel w).mem.store, e.id = id ∧ e.op = .fence ∧ e.rel = true ∧ e.uid = uid

/-- The wait the issuing path stands in. -/
def issueWait (i : Issue) (t : State) : Option PathWait := ((t.crew? i.wheel i.slot).bind fun d => path? d i.path).map CPath.wait

/-- `r` is a STALE_WAIT record of wheel `w` for the ledger of saggar `k` (18 R596). -/
def staleRec (r : Rec) (w k : Nat) : Bool := r.type == 0x21 && r.source == w && r.dests == [k]

/-- Instructions of the accumulator, copy, training and vector families whose values come from the lead lane, or which have one effect
for the crew (04 R140, 06 R221). -/
def leadSpec : Instr → Option Issue
  | .accWin i => some i
  | .accZero i => some i
  | .accRed i => some i
  | .accRd i => some i
  | .accWr i => some i
  | .acopy1d i => some i
  | .acopy2d i => some i
  | .acwait i => some i
  | .acread i => some i
  | .gacc i => some i
  | .opt i => some i
  | .lstat i => some i
  | .uscaleSet i => some i
  | .grecv i => some i
  | .ptab i => some i
  | .vsetvl i => some i
  | .vgetvl i => some i
  | .vchain i => some i
  | .vred i => some i
  | .trav i => some i
  | _ => none

/-! ### Instructions for the engines -/

/-- What of a copy-engine operation its instruction fixes. -/
def copyKey (e : Copy) : Nat × Nat × CopyKind × Nat := (e.uid, e.counter, e.kind, e.saggar)

/-- The block an operand field names is there and free of earlier work; `pass` tells a pass-through window from another (04 R144, R153,
07 R261). -/
def blockOk (s : State) (i : Issue) (c : Crew) (f : Nat) (pass : Bool) (P : Window → Bool) : Bool :=
  match blockField c f with
  | .error _ => false
  | .ok (w, _) => blockFree s i c f 1 && passThrough s c.saggar w == pass && P w

/-- The first accumulator word of the block an operand field names. -/
def blockWord (c : Crew) (f : Nat) : Nat := match blockField c f with
  | .error _ => 0
  | .ok (_, w) => w

/-- The block an operand field names is INT32. -/
def blockInt (c : Crew) (f : Nat) : Bool := match blockField c f with
  | .error _ => false
  | .ok (w, _) => w.isInt

/-- The 64 bytes of an OPT descriptor, when they can be read (05 R194). -/
def optBytes (s : State) (i : Issue) (c : Crew) (l : Nat) : Option (List Byte) :=
  match (engReadN s { saggar := c.saggar, stream := c.stream, source := i.wheel } (pair c l (sa i)) 64 2).1 with
  | .error _ => none
  | .ok b => some b

/-- Rows of ACC.RD and ACC.WR are in place: stride, and the range when it is local store (04 R157). -/
def rowsOk (i : Issue) (c : Crew) (l row : Nat) : Bool :=
  let stride := (reg c l (sb i)).toNat
  stride % 16 == 0 && decide (row ≤ stride) &&
    (!i.x.getLsbD 16 || lsIn c (spaceAddr c l (sa i) (i.x.getLsbD 16)).toNat (span 64 row stride))

/-- Instructions that the copy engine performs: the issue, its form, the operands it runs on, the operation, and the arrival counter
(03 R96, 04 R157, 05 R193, R194, 07 R279, R287, 10 R374). `l` is the lead lane; `pass` tells blocks of a pass-through window (07 R261). -/
def copySpec (s : State) (c : Crew) (l : Nat) (pass : Bool) : Instr → Option (Issue × Form × Bool × CopyKind × Nat)
  | .acopy1d i =>
    let dir := xf i 22 2
    let len := (reg c l (xf i 8 8)).toNat
    some (i, { guarded := true, reads := dir == 0 || dir == 2, legal := i.da == 0 && xf i 16 2 != 3 && xf i 0 8 == 0
               pairs := [sa i, sb i], regs := [xf i 8 8] },
      !((dir == 1 || dir == 3) && !lsIn c (lsOff c l (sa i)) len) && !((dir == 0 || dir == 3) && !lsIn c (lsOff c l (sb i)) len) &&
        !(dir == 2 && decide (2 ^ 28 < len)),
      .copy1 dir (pair c l (sa i)) (pair c l (sb i)) len, xf i 18 4)
  | .acopy2d i =>
    let dir := xf i 22 2
    let r := xf i 8 8
    let rows := (reg c l r).toNat
    let rb := (reg c l (r + 1)).toNat
    let ss := (reg c l (r + 2)).toNat
    let ds := (reg c l (r + 3)).toNat
    some (i, { guarded := true, reads := dir == 0 || dir == 2, legal := i.da == 0 && dir != 3 && xf i 16 2 != 3 && xf i 0 8 == 0
               pairs := [sa i, sb i], regs := [r, r + 1, r + 2, r + 3] },
      !(dir == 1 && !lsIn c (lsOff c l (sa i)) (span rows rb ss)) && !(dir == 0 && !lsIn c (lsOff c l (sb i)) (span rows rb ds)) &&
        !(dir == 2 && decide (2 ^ 28 < rows * rb)),
      .copy2 dir (pair c l (sa i)) (pair c l (sb i)) rows rb ss ds, xf i 18 4)
  | .grecv i =>
    let r := xf i 8 8
    let n := (reg c l (sa i)).toNat % 8
    let off := (reg c l r).toNat
    let len := (reg c l (r + 1)).toNat
    let dst := lsOff c l (sb i)
    some (i, { guarded := true, reads := true, legal := i.da == 0 && xf i 22 2 == 0 && xf i 16 2 == 0 && xf i 0 8 == 0, regs := [sa i, sb i, r, r + 1] },
      lsIn c dst len && ((Tab.find (s.stream c.stream).gslots n).map fun g => decide (off + len ≤ g.bytes)).getD false,
      .grecv n off dst len, xf i 18 4)
  | .ptab i =>
    let ls := i.x.getLsbD 23
    let half := i.x.getLsbD 22
    let r := xf i 8 8
    let a := spaceAddr c l (sb i) ls
    let p0 := (reg c l r).toNat % 2 ^ 22
    let n := (reg c l (r + 1)).toNat
    let mm := (reg c l (r + 2)).toNat
    let sz := if half then 4 else 8
    some (i, spaceForm ls { guarded := true, reads := true, legal := i.da == 0 && xf i 16 2 != 3 && xf i 0 8 == 0, pairs := [sa i]
                            regs := [r, r + 1, r + 2] } (sb i),
      (pair c l (sa i)).toNat % 8 == 0 && a.toNat % sz == 0 && decide (0 < mm) && decide (mm ≤ 256) &&
        !(ls && !lsIn c a.toNat (min n (2 ^ 22 - p0) * mm * sz)),
      .ptab (pair c l (sa i)) a ls half p0 n mm, xf i 18 4)
  | .accRd i =>
    let ls := i.x.getLsbD 16
    let fmt := xf i 21 3
    let row := 16 * (outBytes fmt).getD 0
    some (i, spaceForm ls { guarded := true, legal := xf i 0 12 == 0 && decide (xf i 18 3 ≤ 4), regs := [sb i] } (sa i),
      blockOk s i c (da i) pass (fun w => !w.isInt || fmt == 6) && decide (0 < row) && rowsOk i c l row,
      .accRd (blockWord c (da i)) (blockInt c (da i)) fmt (xf i 18 3) (i.x.getLsbD 17) ls (spaceAddr c l (sa i) ls) (reg c l (sb i)).toNat,
      xf i 12 4)
  | .accWr i =>
    let ls := i.x.getLsbD 16
    some (i, spaceForm ls { guarded := true, reads := !ls, legal := xf i 18 6 == 0 && xf i 0 12 == 0, regs := [sb i] } (sa i),
      blockOk s i c (da i) pass (fun _ => true) && rowsOk i c l 64,
      .accWr (blockWord c (da i)) (blockInt c (da i)) (i.x.getLsbD 17) ls (spaceAddr c l (sa i) ls) (reg c l (sb i)).toNat, xf i 12 4)
  | .gacc i =>
    let stride := (reg c l (sb i)).toNat
    let a := pair c l (sa i)
    some (i, { guarded := true, reads := true, legal := xf i 16 8 == 0 && xf i 0 4 == 0, pairs := [sa i], regs := [sb i, xf i 8 8] },
      !inReplayable s c && blockOk s i c (da i) pass (fun w => !w.isInt) && stride % 32 == 0 && decide (0 < stride) && a.toNat % 32 == 0 &&
        layerOk s c.saggar c.layer,
      .gacc (blockWord c (da i)) a stride (reg c l (xf i 8 8)), xf i 4 4)
  | .opt i =>
    let bs := (optBytes s i c l).getD []
    some (i, { guarded := true, reads := true, legal := i.da == 0 && i.sb == 0 && xf i 16 8 == 0 && xf i 0 12 == 0, pairs := [sa i] },
      settled s c.saggar (pair c l (sa i)) 64 && !inReplayable s c && (pair c l (sa i)).toNat % 64 == 0 && (optBytes s i c l).isSome && !(OptDesc.of bs).bad &&
        layerOk s c.saggar (OptDesc.of bs).layer,
      .opt bs, xf i 12 4)
  | .rput i =>
    let r := xf i 8 8
    let len := (reg c l (r + 1)).toNat
    let att := i.x.getLsbD 21
    let wa := pair c l (r + 2)
    let peer := peerOf s c.saggar (reg c l r)
    some (i, { legal := i.da == 0 && xf i 22 2 != 3 && xf i 16 4 == 0 && xf i 0 4 == 0, pairs := [sa i, sb i, r]
               regs := [r, r + 1, r + 2, r + 3, r + 4] },
      (pair c l (sa i)).toNat % 4 == 0 && (pair c l (sb i)).toNat % 4 == 0 && !(att && wa.toNat % 4 != 0) && peer.isSome &&
        decide (0 < len) && decide (len ≤ 2 ^ 28),
      .rput ((peer.map fun p => p.2.1).getD 0) ((peer.map fun p => p.2.2).getD 0) (pair c l (sa i)) (pair c l (sb i)) len
        (if att then some (xf i 22 2, wa, reg c l (r + 4)) else none), xf i 4 4)
  | _ => none

/-- Formats and scales an MX or MXH may name for a window (04 R131, R135). -/
def mxFormats (i : Issue) (w : Window) : Bool :=
  let fa := xf i 21 3
  let fb := xf i 18 3
  fa != 7 && fb != 7 && (fa == fb || (isFp8 fa && isFp8 fb)) && (w.isInt == (fa == 3)) &&
    (if fa == 0 || fb == 0 then decide (xf i 7 4 ≤ 11) && !([sa i, sa i + 1, sa i + 2, sa i + 3, sb i].contains (xf i 11 4))
     else xf i 11 4 == 0 && xf i 7 4 == 0)

/-- The form of MX and MXH (04 R136, R147, R162). -/
def mxForm (half : Bool) (i : Issue) : Form :=
  { late := true, legal := decide (sa i < 16) && decide (sb i < 16) && xf i 0 (if half then 6 else 7) == 0
    tiles := [sa i, sa i + 1, sa i + 2, sa i + 3, sb i] ++ (if xf i 21 3 == 0 || xf i 18 3 == 0 then [xf i 11 4] else []) }

/-- The form of MV (04 R160, R162). -/
def mvForm (i : Issue) : Form :=
  { late := true, legal := decide (da i < 4) && decide (sb i < 16) && !i.x.getLsbD 16 && xf i 0 7 == 0, regs := [sa i], tiles := [sb i, xf i 11 4] }

/-- The threads of the crew whose guard is true, once every live thread stands at the instruction (04 R138). -/
def crewLanes (c : Crew) (x : CPath) (i : Issue) : Word := guardMask c { x with mask := c.live } i

/-- The last live threads of the crew come to an MX-class instruction at which the others wait, or all wait there for room (04 R137,
R138, R141). -/
def Converges (i : Issue) (c : Crew) (x : CPath) : Prop :=
  converged c i.path = true ∧ ∀ e ∈ c.paths, e.2.wait = .mx → e.2.pc = x.pc

/-- Every path of the crew that waited at the instruction, and the issuing one, goes on behind it; the others stay (04 R138). -/
def CrewPast (i : Issue) (c : Crew) (x : CPath) (t : State) : Prop :=
  ∃ d, t.crew? i.wheel i.slot = some d ∧ d.mxSince = none ∧ ∀ q y, path? c q = some y → ∃ z, path? d q = some z ∧
    if q = i.path ∨ y.wait = .mx then z.pc = x.pc + 8 ∧ z.wait = .ready ∧ z.mask = y.mask else z = y

/-- What of an entry of the array queue its instruction fixes. -/
def mxKey (e : MxEntry) : Nat × Nat × Nat × Nat × Nat × Nat × Bool × Word × Bool × Bool :=
  (e.uid, e.word, e.ta0, e.tw, e.fmtA, e.fmtB, e.acc, e.lanes, e.half, e.started)

/-- As `mxKey`, of the matrix-vector queue. -/
def mvKey (e : MvEntry) : Nat × Nat × Nat × Nat × Nat × Nat × Bool × List Byte × List Byte :=
  (e.uid, e.word, e.fmtW, e.fmtX, e.lane, e.row, e.acc, e.wTile, e.xTile)

/-- The parts of a transfer of a tile and device memory: address in device memory, place among the tile bytes, length (04 R161). -/
def tileParts (i : Issue) (tile : Nat) (vas : List DWord) : List (DWord × Nat × Nat) :=
  (vas.zip (chunks i)).flatMap fun e => (chunkParts (chunkOf i)).map fun p =>
    (e.1 + BitVec.ofNat 64 p.1, tile * 1024 + e.2 * chunkOf i + p.1, p.2)

/-! ### Crier -/

/-- The form of a group-bell instruction (10 R378, R379): which of DA and SB it uses. -/
def gbellForm (i : Issue) (useDa useSb : Bool) : Form :=
  { legal := (useDa || i.da == 0) && (useSb || i.sb == 0) && i.x == 0
    regs := sa i :: (if useDa then [da i] else []) ++ (if useSb then [sb i] else []) }

/-- The bell a group-bell instruction names: SA of its lead thread `l`. -/
def gHandle (i : Issue) (c : Crew) (l : Nat) : Nat := (reg c l (sa i)).toNat % 256

/-- A group-bell instruction issues on a bell the saggar has, not broken unless it resets it. -/
def GbellIssues (s : State) (i : Issue) (useDa useSb reset : Bool) (c : Crew) (x : CPath) (l : Nat) : Prop :=
  Issues s i isReady (gbellForm i useDa useSb) c x ∧ leadLane (guardMask c x i) = some l ∧
  gHandle i c l < (s.saggar c.saggar).cfg.groupBells ∧ ((gbell s c.saggar (gHandle i c l)).broken && !reset) = false

/-- What of a wait and of a completion record its instruction fixes. -/
def waitKey (w : Wait) : Waiter × DWord × Nat × Word × Nat := (w.who, w.va, w.pa, w.target, w.reach)
def crecKeyOf (r : CRec) : Word × Nat × Nat × Bool := (r.tag, r.stream, r.source, r.kind)

/-! ### Translation -/

/-- A leaf as MAP enters it (08 R309 to R311): of a page size, aligned in both spaces, within the pointer and the entry. -/
def LeafOk (e : Nat × Mapping) : Prop :=
  (e.2.size = 2 ^ 16 ∨ e.2.size = 2 ^ 21 ∨ e.2.size = 2 ^ 30) ∧ e.1 % e.2.size = 0 ∧ e.2.pa % e.2.size = 0 ∧
  e.1 + e.2.size ≤ 2 ^ 57 ∧ e.2.pa + e.2.size ≤ 2 ^ 48 ∧ e.2.home < 2 ^ 16

/-- Leaves in rising order, none over another. -/
def LeavesOk (m : Tab Mapping) : Prop := (∀ e ∈ m, LeafOk e) ∧ m.Pairwise fun a b => a.1 + a.2.size ≤ b.1

/-! ### Memory commands -/

/-- Bytes of `n` from `pa` become `bs`; every other byte of memory stays. -/
def BytesBecome (s t : State) (pa : Nat) (bs : List Byte) : Prop :=
  ∀ a, memByte t a = if pa ≤ a ∧ a < pa + bs.length then bs.getD (a - pa) 0 else memByte s a

/-- Entry `e` of a wheel's store path may be performed now (09 R331, R333, R342, R346; 08 R325). -/
def Performs (s : State) (w id : Nat) (e : StoreEntry) : Prop :=
  w < 192 ∧ storeOf s w id = some e ∧ memRuns s = true ∧ mayPerform s (s.wheel w).mem.store (s.wheel w).mem.reads e = true ∧
  lineBusy s e.pa = false

/-! ### Stream commands -/

/-- The command `c`, of opcode `op`, stands at the begin position of stream `n`, was read whole, leaving `s1`, and passes every check and
wait (11 R408, R412, R415): `wait` and `bad` are the opcode's own. -/
def CmdBegins (s s1 : State) (n op : Nat) (c : List Byte) (wait : State → Stream → List Byte → Bool)
    (bad : State → Stream → List Byte → Option Nat) : Prop :=
  n < 2 ^ 20 ∧ s.serving = true ∧ s.frozen = false ∧ mayBegin s n = true ∧
  (∃ h u, readUnits s n (s.stream n) (s.stream n).beginPos 1 = (.got h, u) ∧ cmdOp h = op ∧ op ≤ 11 ∧ cmdSize h = ownSize h ∧
    cmdSize h ≤ availUnits (s.stream n) ∧ readUnits s n (s.stream n) (s.stream n).beginPos (cmdSize h) = (.got c, s1)) ∧
  headerFault s1 (s.stream n) c = none ∧
  ((cmdBarrier c || op == 2 || op == 4 || op == 5 || op == 11) = true → allDone (s.stream n) = true) ∧
  wait s (s.stream n) c = false ∧ bad s1 (s.stream n) c = none

/-- The ring position of the command that stream `n` begins next. -/
def posOf (s : State) (n : Nat) : Word := (s.stream n).beginPos

/-- A stream's HEAD_WORD takes its HEAD: none is set, it is the host's, or its word may be written (11 R409, 10 R674). -/
def headOk (s : State) (n : Nat) : Bool :=
  let x := s.stream n
  x.headWord == 0 || x.headHost || (match translate s x.saggar x.headWord with
    | none => false
    | some (pa, m) => m.write && !poisoned s pa)

/-- PREFETCH waits while four early restores of its stream are in flight, and its layer is one of the table (07 R284). -/
def prefetchWait (n : Nat) (s : State) (x : Stream) (c : List Byte) : Bool :=
  prefetchStarts s x.saggar (cf c 16 12 20) &&
    decide (4 ≤ (s.front.tier.filter fun (e : Nat × TierJob) => e.2.kind == 2 && e.2.stream == n).length)
def prefetchBad (s : State) (x : Stream) (c : List Byte) : Option Nat :=
  if layerOk s x.saggar (cf c 16 12 20) then none else some fScaleRange

/-! ### Engine commits -/

/-- The crew after entry `e` commits, with whether a word overflowed or became NaN (04 R138, 05 R187). -/
def mxSum (c : Crew) (e : MxEntry) : Crew × Bool × Bool :=
  (lanesOf e.lanes).foldl (fun st l => [2 * l, 2 * l + 1].foldl (fun st row =>
    (List.range (if e.half then 8 else 16)).foldl (fun st col => commitWord e st row col) st) st) (c, false, false)

/-- As `mxSum`, for a matrix-vector entry (04 R159). -/
def mvSum (c : Crew) (e : MvEntry) : Crew × Bool × Bool :=
  (List.range 16).foldl (fun (st : Crew × Bool × Bool) j =>
    let r := if e.longSum && !e.dunob then (some (drawLane st.1 e.lane).1, (drawLane st.1 e.lane).2) else (none, st.1)
    let v := mvWord e j (accWord r.2 (e.word + j)) r.1
    (setAcc r.2 (e.word + j) v.1, st.2.1 || v.2.1, st.2.2 || (v.2.1 && v.2.2))) (c, false, false)

/-! ### Mailbox commands -/

/-- The command table (19 R637): a code's issuer, whether it names a saggar, and the request bits it uses from byte 16 on. -/
def mbxRow (code : Nat) : MbxSpec :=
  let bound : MbxSpec := { code, sag := true }
  let pf : MbxSpec := { code, pf := true }
  match code with
  | 0x01 => { code, query := true, always := true }
  | 0x10 => pf
  | 0x11 => { bound with own := true }
  | 0x12 => { bound with own := true, query := true }
  | 0x13 => bound
  | 0x18 => { bound with used := [fld 18 0 7, fld 19 0 8, fld 20 0 32, fld 24 0 64, fld 32 0 64, fld 40 0 64] }
  | 0x19 => { bound with used := [fld 20 0 32, fld 24 0 8] }
  | 0x1A => { bound with used := [fld 20 0 32] }
  | 0x1B => { bound with used := [fld 20 0 32], query := true }
  | 0x20 => { bound with pf := true, used := [fld 24 0 64, fld 32 0 64] }
  | 0x21 => { bound with used := [fld 18 0 5, fld 24 0 64, fld 32 0 64, fld 40 0 64] }
  | 0x22 => { bound with used := [fld 24 0 64, fld 40 0 64] }
  | 0x23 => { bound with used := [fld 24 0 64, fld 32 0 64] }
  | 0x28 => { bound with used := [fld 18 0 8, fld 20 0 32, fld 24 0 64, fld 32 0 64, fld 40 0 64, fld 48 0 16, fld 52 0 32, fld 56 0 32] }
  | 0x29 => { bound with used := [fld 18 0 8] }
  | 0x2A => { bound with used := [fld 18 0 1, fld 19 0 8, fld 20 0 32, fld 24 0 64, fld 32 0 64, fld 40 0 64] }
  | 0x2B => bound
  | 0x2C => { bound with used := [fld 18 0 16, fld 20 0 8], query := true }
  | 0x2D => { bound with used := [fld 18 0 8, fld 20 0 12, fld 20 22 10, fld 24 0 57, fld 32 0 57] }
  | 0x30 => { bound with used := [fld 18 0 16, fld 20 0 32, fld 24 0 32, fld 32 0 64] }
  | 0x31 => { bound with used := [fld 18 0 16] }
  | 0x34 => { pf with used := [fld 16 0 16] }
  | 0x35 => { pf with used := [fld 16 0 32] }
  | 0x36 => { pf with used := [fld 24 0 64] }
  | 0x38 => { bound with
      pf := true, used := [fld 18 0 8, fld 19 0 8, fld 20 0 32, fld 24 0 64, fld 32 0 64, fld 40 0 64, fld 48 0 64] }
  | 0x39 => { pf with used := [fld 18 0 8] }
  | 0x40 => { bound with
      used := [fld 18 0 16, fld 20 0 32, fld 24 0 16, fld 26 0 8] ++ (List.range 4).flatMap fun i => [fld (32 + 8 * i) 0 12, fld (32 + 8 * i) 32 32] }
  | 0x41 => { bound with used := [fld 18 0 16] }
  | 0x42 => { bound with used := [fld 18 0 8] }
  | 0x48 => pf
  | 0x49 => { pf with used := [fld 16 0 8] }
  | 0x4A => pf
  | 0x4B => { pf with used := [fld 16 0 8, fld 20 0 32, fld 24 0 32] }
  | 0x4C => { pf with used := [fld 16 0 1, fld 17 0 8] }
  | 0x4D => { pf with query := true, always := true }
  | 0x4E => { pf with used := [fld 16 0 32, fld 20 0 32], query := true }
  | _ => { code }

/-- Request `r`, number `n` of function `fn`, begins now as a command of this code, and no shared refusal answers it (19 R633, R676,
R677). -/
def MbxBegins (s : State) (fn n code : Nat) (r : Req) : Prop := fn < 256 ∧ begins (mbxRow code) s fn n = some r

/-- The command completes with a status and a result, from the state its effect leaves. -/
def Answers (o : Out) (s u : State) (fn n st : Nat) (res : List Byte := []) : Prop := o = .next (kept s (complete u fn n st res))

/-- The command has begun in the state its effect leaves, and completes by an event of its own. -/
def Begun (o : Out) (s u : State) (fn n : Nat) : Prop := o = .next (kept s (modReq u fn n fun r => { r with begun := true }))

/-- Request `n` of a function is over. -/
def Over (t : State) (fn n : Nat) : Prop := ∀ q ∈ (t.mbx fn).inflight, q.n ≠ n

end Sys2Proof.Machine
end

