-- ==== Sys2Proof/Certificates/Slice0/Obligations.lean ====
section
/-!
DEFINITION. The statements for the provers.
-/
open Sys2Proof Sys2Proof.Machine

/-- O1. A step takes the command at the front of the queue. Rests on R24, R632. -/
def Obligations.FrontCommand : Prop :=
  ∀ (c : Instr) (s : State) (rest : List Instr),
    step { s with pending := c :: rest } = exec c { s with pending := rest }

/-- O2. With nothing waiting, a step is one TIME tick (the model’s choice, log entry 1). Rests on R41, R55, R60, R68, R616. -/
def Obligations.IdleTick : Prop :=
  ∀ s : State, s.pending = [] →
    (s.time.locked = false → step s = .next s) ∧
    (s.time.locked = true → Goes (step s) fun t =>
      t.time.gts = s.time.gts + 1 ∧ t.time.mt = s.time.mt + mtStep s ∧
      t.time.watch = (if s.frozen then s.time.watch else s.time.watch + 1) ∧
      (t.time.pairGts, t.time.pairMt) = (match s.time.pairDue with
        | some p => p
        | none => if s.time.capture then (t.time.gts, t.time.mt) else (s.time.pairGts, s.time.pairMt)) ∧
      t.time.pairSeq = (if s.time.pairDue.isSome || s.time.capture then s.time.pairSeq + 1 else s.time.pairSeq) ∧
      t.time.pairDue = none ∧ t.time.capture = false ∧
      (∀ f, t.flow f = { s.flow f with edges := (s.flow f).edges.map fun e => match (s.flow f).bind with
        | some b => if e.d = t.gts then { e with ready := some (readyWord s b) } else e
        | none => e }) ∧
      t = { s with time := t.time, frm := { s.frm with flows := t.frm.flows } })

/-- O3. No step clears a blown fuse, lowers the fused minimum SVN or changes what manufacture fixed. Rests on R5, R536, R537. -/
def Obligations.FusesOneWay : Prop :=
  ∀ s t : State, step s = .next t → fuseKept s.fuse t.fuse

/-- O4. At reset no key is revoked and the minimum SVN is zero (the model’s choice of a part, log entry 6). Rests on R3, R536, R537. -/
def Obligations.FusesAtReset : Prop :=
  fuseKept {} State.reset.fuse ∧ State.reset.fuse.revoked = 0 ∧ State.reset.fuse.svnMin = 0

/-- O5. No command touches the queue of waiting commands. Rests on 19_host_interface_registers. -/
def Obligations.QueueLeftAlone : Prop :=
  ∀ (c : Instr) (s t : State), exec c s = .next t → t.pending = s.pending

/-- O6. Every command answers a next state. Rests on R6, R9, R548. -/
def Obligations.EveryCommandRuns : Prop :=
  ∀ (c : Instr) (s : State), ∃ t, exec c s = .next t

/-- O7. Nelol words and the commands they issue agree. Rests on R122, R123, R124. -/
def Obligations.NelolWords : Prop :=
  (∀ (cls op : BitVec 6) (i : Issue), wordCommand i.wheel i.slot i.path (instrWord cls op i) =
    (nelolOp cls.toNat op.toNat).map fun f => f i) ∧
  (∀ (wheel slot path : Nat) (w : BitVec 64), instrWord (wordClass w) (wordOp w) (wordFields wheel slot path w) = w ∧
    ((wordFields wheel slot path w).wheel, (wordFields wheel slot path w).slot, (wordFields wheel slot path w).path) = (wheel, slot, path)) ∧
  (∃ code : Instr → Nat × Nat, ∀ (a b : Nat) (f : Issue → Instr) (i : Issue), nelolOp a b = some f → code (f i) = (a, b)) ∧
  (∀ a b : Nat, nelolOp a b ≠ none → a ≤ 0x09 ∨ (0x10 ≤ a ∧ a ≤ 0x12) ∨ (0x18 ≤ a ∧ a ≤ 0x1A) ∨ a = 0x1C ∨ (0x20 ≤ a ∧ a ≤ 0x22) ∨
    (0x24 ≤ a ∧ a ≤ 0x26))

/-- O8. Integer instructions write their result in every executing thread and change nothing else. Rests on R124, R671, R75. -/
def Obligations.IntegerResults : Prop :=
  (∀ (k : Instr) (i : Issue) (g : Word → Word → Word), alu2Spec k = some (i, g) →
    ∀ (s : State) (c : Crew) (x : CPath), Issues s i isReady { legal := i.x == 0, regs := [da i, sa i, sb i] } c x →
      Goes (exec k s) (WritesReg i c x (fun l => g (reg c l (sa i)) (reg c l (sb i))) s)) ∧
  (∀ (k : Instr) (i : Issue) (ok : Bool) (g : Word → Int → Word), aluImmSpec k = some (i, ok, g) →
    ∀ (s : State) (c : Crew) (x : CPath), Issues s i isReady { legal := ok && i.sb == 0, regs := [da i, sa i] } c x →
      Goes (exec k s) (WritesReg i c x (fun l => g (reg c l (sa i)) i.x.toInt) s))

/-- O9. Moves, counts and reads of special registers write DA in every executing thread and change nothing else. Rests on R124, R126, R100, R220. -/
def Obligations.AluOtherResults : Prop :=
  ∀ (k : Instr) (i : Issue) (f : Form) (v : Crew → Nat → Word), aluOtherSpec k = some (i, f, v) →
    ∀ (s : State) (c : Crew) (x : CPath), Issues s i isReady f c x → Goes (exec k s) (WritesReg i c x (v c) s)

/-- O10. FP32 and FP64 instructions without overflow write their result and change nothing else. Rests on R74, R124, R173, R177, R668. -/
def Obligations.FloatResults : Prop :=
  (∀ (k : Instr) (i : Issue) (f : Form) (v : Crew → Nat → Word), fpSpec k = some (i, f, v) →
    ∀ (s : State) (c : Crew) (x : CPath), Issues s i isReady f c x →
      (∀ l, l < 32 → (guardMask c x i).getLsbD l = true → (f32 (v c l)).finite = true) → Goes (exec k s) (WritesReg i c x (v c) s)) ∧
  (∀ (k : Instr) (i : Issue) (f : Form) (v : Crew → Nat → DWord), dpSpec k = some (i, f, v) →
    ∀ (s : State) (c : Crew) (x : CPath), Issues s i isReady f c x →
      (∀ l, l < 32 → (guardMask c x i).getLsbD l = true → (f64 (v c l)).finite = true) →
      Goes (exec k s) fun t => ∃ d, PairsBecome c d (guardMask c x i) (da i) (v c) ∧ BecomesCrew i c x d s t ∧
        d = { c with regs := d.regs, paths := d.paths, lastPath := d.lastPath })

/-- O11. Compares and predicate logic write one predicate and no register. Rests on R75, R124, R669. -/
def Obligations.PredicateResults : Prop :=
  ∀ (k : Instr) (i : Issue) (f : Form) (v : Crew → Nat → Bool), predSpec k = some (i, f, v) →
    ∀ (s : State) (c : Crew) (x : CPath), Issues s i isReady f c x →
      Goes (exec k s) fun t => ∃ d, PredsBecome c d (guardMask c x i) (da i) (v c) ∧ BecomesCrew i c x d s t ∧
        d = { c with preds := d.preds, paths := d.paths, lastPath := d.lastPath }

/-- O12. A conversion in range writes the converted value. Rests on R124, R171, R172, R178, R179. -/
def Obligations.Conversions : Prop :=
  ∀ (i : Issue) (s : State) (c : Crew) (x : CPath),
    Issues s i isReady { legal := isFormat (xf i 18 6) && isFormat (xf i 12 6) && decide (xf i 9 3 ≤ 4) && xf i 0 8 == 0 && i.sb == 0
                         pairs := (if xf i 18 6 = 8 then [da i] else []) ++ (if xf i 12 6 = 8 then [sa i] else []), regs := [da i, sa i] } c x →
    (∀ l, l < 32 → (cvtLane (noteIssue s i c x) i c l).saturated = false ∧ (cvtLane (noteIssue s i c x) i c l).beyond = false) →
    (narrows (xf i 18 6) (xf i 12 6) && inGradient s c) = false →
      Goes (exec (.cvt i) s) fun t => ∃ d, BecomesCrew i c x d s t ∧
        (if xf i 18 6 = 8 then PairsBecome c d (guardMask c x i) (da i) fun l => BitVec.ofNat 64 (cvtLane (noteIssue s i c x) i c l).code
         else RegsBecome c d (guardMask c x i) (da i) fun l => BitVec.ofNat 32 (cvtLane (noteIssue s i c x) i c l).code)

/-- O13. TMRD writes the wheel’s stamp. Rests on R46, R47, R125. -/
def Obligations.TimeRead : Prop :=
  ∀ (i : Issue) (s : State) (c : Crew) (x : CPath),
    Issues s i isReady { legal := i.sa == 0 && i.sb == 0 && i.x == 0, pairs := [da i] } c x →
      Goes (exec (.tmrd i) s) fun t => ∃ g d, max s.gts (s.wheel i.wheel).ctl.lastStamp ≤ g ∧ g ≤ max (s.gts + 1) (s.wheel i.wheel).ctl.lastStamp ∧
        ((s.wheel i.wheel).ctl.period ≤ 4 → g = max s.gts (s.wheel i.wheel).ctl.lastStamp) ∧ (t.wheel i.wheel).ctl.lastStamp = g ∧
        PairsBecome c d (guardMask c x i) (da i) (fun _ => BitVec.ofNat 64 g) ∧ BecomesCrew i c x d s t ∧
        d = { c with regs := d.regs, paths := d.paths, lastPath := d.lastPath }

/-- O14. NOP, YIELD, JOIN and EXIT. Rests on R86, R87, R88. -/
def Obligations.PathControl : Prop :=
  ∀ (i : Issue) (s : State) (c : Crew) (x : CPath), Issues s i isReady { legal := i.da == 0 && i.sa == 0 && i.sb == 0 && i.x == 0 } c x →
    let m := guardMask c x i
    Goes (exec (.nop i) s) (BecomesCrew i c x (pathNext (noted i c x) i.path) s) ∧
    (m = 0 → Goes (exec (.yield i) s) (BecomesCrew i c x (pathNext (noted i c x) i.path) s)) ∧
    (m ≠ 0 → Goes (exec (.yield i) s) fun t => ∃ d, CrewIs i c x d s t ∧ d.lastPath = none ∧ path? d i.path = some { x with pc := x.pc + 8, run := 0 } ∧
      (∀ q, q ≠ i.path → path? d q = path? c q) ∧ d = { c with paths := d.paths, lastPath := d.lastPath }) ∧
    ((∀ e ∈ c.splits, e.2.addr = x.pc → e.2.members &&& m = 0) →
      Goes (exec (.join i) s) (BecomesCrew i c x (pathNext (noted i c x) i.path) s)) ∧
    (∀ k sp, c.splits = [(k, sp)] → sp.addr = x.pc → sp.members &&& m ≠ 0 → RisingKeys c.paths →
      let stay := if x.mask &&& c.live &&& ~~~m = 0 then x.mask else m
      let here := (c.paths.filter fun e => e.2.wait == .join k).foldl (fun a e => a ||| e.2.mask) stay
      Goes (exec (.join i) s) fun t => ∃ d, CrewIs i c x d s t ∧ d = { c with paths := d.paths, splits := d.splits, lastPath := d.lastPath } ∧
        (x.mask &&& c.live &&& ~~~m ≠ 0 → ∃ q, path? d q = some { pc := x.pc + 8, mask := x.mask &&& c.live &&& ~~~m }) ∧
        if sp.members &&& c.live &&& ~~~here = 0 then d.splits = [] ∧ ∃ q, path? d q = some { pc := x.pc + 8, mask := here }
        else d.splits = c.splits ∧ path? d i.path = some { x with mask := stay, wait := .join k, run := runOf i c x }) ∧
    (c.live &&& ~~~m = 0 → Goes (exec (.exit i) s) fun t => t.crew? i.wheel i.slot = none) ∧
    (c.live &&& ~~~m ≠ 0 → Goes (exec (.exit i) s) fun t => SameMemory s t ∧ ∃ d, t.crew? i.wheel i.slot = some d ∧
      d = { c with live := c.live &&& ~~~m, paths := d.paths, splits := d.splits, bells := d.bells, lastPath := d.lastPath } ∧
      (path? d i.path).map (fun y => (y.pc, y.mask, y.wait)) =
        if x.mask &&& c.live &&& ~~~m = 0 then none else some (x.pc + 8, x.mask &&& c.live &&& ~~~m, .ready))

/-- O15. Branches send each thread to its target and split the path where threads differ; CALL links; JPUSH records. Rests on R84, R86, R124. -/
def Obligations.Branches : Prop :=
  ∀ (i : Issue) (s : State) (c : Crew) (x : CPath), x.mask ≠ 0 → RisingKeys c.paths →
    (Issues s i isReady { legal := i.da == 0 && i.sa == 0 && i.sb == 0 } c x →
      ((guardMask c x i = 0 ∨ (relative i x).toNat % 8 = 0) → Goes (exec (.bra i) s) fun t => ∃ d, CrewIs i c x d s t ∧ d.regs = c.regs ∧
        Branched i c x (fun _ => x.pc + (i.x.signExtend 64 <<< 3)) d) ∧
      Goes (exec (.jpush i) s) fun t => ∃ d, CrewIs i c x d s t ∧ PathBecomes i c d { x with
        pc := x.pc + 8, run := runOf i c x, reconv := if guardMask c x i = 0 then x.reconv else some (x.pc + (i.x.signExtend 64 <<< 3)) }) ∧
    (∀ k ∈ [Instr.brx i, Instr.ret i], Issues s i isReady { legal := i.da == 0 && i.sb == 0 && i.x == 0, pairs := [sa i] } c x →
      (∀ l ∈ lanesOf (guardMask c x i), (pair c l (sa i)).toNat % 8 = 0) →
      Goes (exec k s) fun t => ∃ d, CrewIs i c x d s t ∧ d.regs = c.regs ∧ Branched i c x (fun l => pair c l (sa i)) d) ∧
    (Issues s i isReady { legal := i.sa == 0 && i.sb == 0, pairs := [da i] } c x → (guardMask c x i = 0 ∨ (relative i x).toNat % 8 = 0) →
      Goes (exec (.call i) s) fun t => ∃ d, CrewIs i c x d s t ∧ PairsBecome c d (guardMask c x i) (da i) (fun _ => x.pc + 8) ∧
        Branched i c x (fun _ => x.pc + (i.x.signExtend 64 <<< 3)) d)

/-- O16. ACWAIT resolves at once, waits for its counter, or is stale. Formalises R100. -/
def Obligations.AcwaitResolves : Prop :=
  (∀ (i : Issue) (s : State) (c : Crew) (x : CPath) (l n k : Nat) (C T : Word), leadLane (guardMask c x i) = some l →
    Issues s i isReady { guarded := true, legal := i.da == 0 && i.sb == 0 && xf i 22 2 == 0 && xf i 0 18 == 0, regs := [sa i] } c x →
    n = xf i 18 4 → C = acOf c n → T = reg c l (sa i) → k = openOn (s.wheel i.wheel) c.uid n → k < 2 ^ 32 → c.saggar < 4096 →
      Goes (exec (.acwait i) s) fun t =>
        if (C - T).toNat < 2 ^ 31 then PathPast i x t ∧ issueWait i t = some .ready
        else if (T - C).toNat ≤ (C + BitVec.ofNat 32 k - C).toNat then
          issueWait i t = some (.acwait n T) ∧ ((t.crew? i.wheel i.slot).bind fun d => path? d i.path).map CPath.pc = some x.pc
        else PathPast i x t ∧ issueWait i t = some .ready ∧
          ((t.dbg.queue.filter fun r => staleRec r i.wheel c.saggar).length =
              (s.dbg.queue.filter fun r => staleRec r i.wheel c.saggar).length + 1 ∨
            16 ≤ (t.dbg.queue.filter fun r => r.source == i.wheel).length)) ∧
  (∀ (c : Crew) (q n : Nat) (y : CPath) (T : Word), path? c q = some y → y.wait = .acwait n T →
    acOf (advanceAc c n) n = acOf c n + 1 ∧
    path? (advanceAc c n) q = some (if (acOf c n + 1 - T).toNat < 2 ^ 31 then { y with wait := .ready, pc := y.pc + 8 } else y)) ∧
  (∀ (s : State) (w : Nat) (e : Copy) (c : Crew), s.crew? w e.slot = some c → c.uid = e.uid →
    (endCopy s w e).crew? w e.slot = some (advanceAc c e.counter))

/-- O17. An unassigned class or OP faults the crew with ILLEGAL_INSTRUCTION. Rests on R121, R123, R670. -/
def Obligations.IllegalFaults : Prop :=
  ∀ (i : Issue) (a b : BitVec 6) (s : State),
    (nelolOp a.toNat b.toNat ≠ none → exec (.illegalInstruction i a b) s = .next s) ∧
    (∀ (c : Crew) (x : CPath), nelolOp a.toNat b.toNat = none → i.ok = true → issuer s i isReady = some (c, x) →
      fetchOk s c x = true →
      exec (.illegalInstruction i a b) s = .next (kept s (crewFault (noteIssue s i c x) i.wheel i.slot 0x10 x.pc)))

/-- O18. Loads read local store at once, and device memory from L1 or by reads in flight. Rests on R124, R332, R333, R340. -/
def Obligations.LoadsIssue : Prop :=
  ∀ (i : Issue) (s : State) (c : Crew) (x : CPath), Issues s i isReady (datumForm i true (da i) i.sb) c x →
    (i.x.getLsbD 18 = true → lsFault c (width i) ((lanes i c x).map (lsAddr i c)) = none →
      Goes (exec (.ld i) s) (BecomesCrew i c x (pathNext ((lanes i c x).foldl (fun d l =>
        putVal d l (da i) (lsGet c (lsAddr i c l).toNat (width i))) (noted i c x)) i.path) s)) ∧
    (i.x.getLsbD 18 = false → accessOk s c.saggar false (width i) (devAddrs i c x) →
      let pa := fun l => paOf s c.saggar (devAddr i c l)
      let held := fun l => (l1Sector s i.wheel (pa l)).filter fun e => xf i 19 2 == 0 && e.saggar == c.saggar
      let missed := (lanes i c x).filter fun l => (held l).isNone
      Goes (exec (.ld i) s) fun t => Elsewhere i s t ∧
        (t.wheel i.wheel).mem.reads.map readKey = (s.wheel i.wheel).mem.reads.map readKey ++ missed.map (fun l =>
          (c.uid, pa l, width i, .reg l (da i), xf i 19 2)) ∧
        (t.wheel i.wheel).mem.store = (s.wheel i.wheel).mem.store ∧
        ∃ d, t.crew? i.wheel i.slot = some d ∧ d = { c with regs := d.regs, paths := d.paths, lastPath := d.lastPath } ∧
          d.regs = ((lanes i c x).foldl (fun e l => match held l with
            | some q => putVal e l (da i) ((q.bytes.drop (pa l % 32)).take (width i))
            | none => e) c).regs ∧
          (path? d i.path).map (fun y => (y.pc, y.wait)) =
            if missed ≠ [] ∨ (s.wheel i.wheel).mem.reads.any (fun r => r.uid == c.uid && r.path == i.path) = true then some (x.pc, .reads)
            else some (x.pc + 8, .ready))

/-- O19. Stores write local store at once, and join the store path toward device memory. Rests on R124, R333, R338. -/
def Obligations.StoresIssue : Prop :=
  ∀ (i : Issue) (s : State) (c : Crew) (x : CPath), Issues s i isReady (datumForm i false (sb i) i.da) c x →
    (i.x.getLsbD 18 = true → lsFault c (width i) ((lanes i c x).map (lsAddr i c)) = none →
      Goes (exec (.st i) s) (BecomesCrew i c x (pathNext ((lanes i c x).foldl (fun d l =>
        lsPut d (lsAddr i c l).toNat (getVal c l (sb i) (width i))) (noted i c x)) i.path) s)) ∧
    (i.x.getLsbD 18 = false → accessOk s c.saggar true (width i) (devAddrs i c x) → StoreIds s i.wheel c →
      let w := fun l => (paOf s c.saggar (devAddr i c l), getVal c l (sb i) (width i))
      Goes (exec (.st i) s) fun t => Untouched i c s t ∧ PathPast i x t ∧ issueWait i t = some .ready ∧
        (∀ sec off, pendingByte (t.wheel i.wheel).mem.store sec off = pendingAfter (s.wheel i.wheel).mem.store ((lanes i c x).map w) sec off) ∧
        (∀ e ∈ (s.wheel i.wheel).mem.store, e.uid ≠ c.uid → e ∈ (t.wheel i.wheel).mem.store) ∧
        (xf i 19 2 ≠ 0 → (t.wheel i.wheel).mem.store.map storeKey = (s.wheel i.wheel).mem.store.map storeKey ++ (lanes i c x).map fun l =>
          (c.uid, devAddr i c l, (w l).1, .bytes (sectorBytes (w l).1 (w l).2), xf i 19 2 == 2)))

/-- O20. Atomics leave for their home slices and wait for the old value. Rests on R124, R338. -/
def Obligations.AtomicsIssue : Prop :=
  ∀ (k : Instr) (i : Issue) (op : AtomOp), atomSpec k = some (i, op) →
    ∀ (s : State) (c : Crew) (x : CPath), Issues s i isReady (atomForm op i) c x →
      accessOk s c.saggar true (if wideAtom i then 8 else 4) (saAddrs i c x) → lanes i c x ≠ [] →
      Goes (exec k s) fun t => Untouched i c s t ∧ issueWait i t = some .reads ∧
        (t.wheel i.wheel).mem.store.map storeKey = (s.wheel i.wheel).mem.store.map storeKey ++ (lanes i c x).map fun l =>
          (c.uid, pair c l (sa i), paOf s c.saggar (pair c l (sa i)), atomEntry op i c l, xf i 19 2 == 2 || xf i 19 2 == 3)

/-- O21. FENCE and BELL.C release the crew’s writes, wait for them, and acquire. Rests on R90, R91, R92, R340, R342, R343, R344, R347. -/
def Obligations.FencesAndBells : Prop :=
  ∀ (i : Issue) (s : State) (c : Crew) (x : CPath), StoreIds s i.wheel c →
    (Issues s i isReady { legal := i.da == 0 && i.sa == 0 && i.sb == 0 && decide (0 < i.x.toNat) && decide (i.x.toNat < 4) } c x →
      lanes i c x ≠ [] →
      Goes (exec (.fence i) s) fun t => Untouched i c s t ∧
        (i.x.toNat = 1 → PathPast i x t ∧ issueWait i t = some .ready ∧ (t.wheel i.wheel).mem.store = (s.wheel i.wheel).mem.store) ∧
        (i.x.toNat ≠ 1 → WritesStay s t i.wheel c.uid ∧ (writesOut s i.wheel c.uid = true → ReleaseOut t i.wheel s.nextId c.uid)) ∧
        (i.x.toNat = 2 → PathPast i x t ∧ issueWait i t = some .ready) ∧
        (i.x.toNat = 3 → if writesOut s i.wheel c.uid then issueWait i t = some (.fence s.nextId) else PathPast i x t ∧ issueWait i t = some .ready) ∧
        (i.x.toNat = 1 ∨ (i.x.toNat = 3 ∧ writesOut s i.wheel c.uid = false) → ∀ e ∈ (t.wheel i.wheel).mem.l1, e.2.saggar ≠ c.saggar)) ∧
    (∀ l0, Issues s i isReady { legal := i.da == 0 && i.sb == 0 && decide (i.x.toNat < 4), regs := [sa i] } c x →
      leadLane (guardMask c x i) = some l0 → (∀ l ∈ lanes i c x, reg c l (sa i) = reg c l0 (sa i)) →
      guardMask c x i &&& ~~~(reg c l0 (sa i)) = 0 →
      ((crewBell c (xf i 0 2)).mask = 0 ∨ (crewBell c (xf i 0 2)).mask = reg c l0 (sa i)) →
      Goes (exec (.bellC i) s) fun t => Untouched i c s t ∧ WritesStay s t i.wheel c.uid ∧
        (writesOut s i.wheel c.uid = true →
          issueWait i t = some (.arrive s.nextId (xf i 0 2) (guardMask c x i)) ∧ ReleaseOut t i.wheel s.nextId c.uid) ∧
        ((∀ e ∈ (s.wheel i.wheel).mem.store, e.uid ≠ c.uid) →
          if reg c l0 (sa i) &&& c.live &&& ~~~((crewBell c (xf i 0 2)).arrived ||| guardMask c x i) = 0 then
            PathPast i x t ∧ issueWait i t = some .ready ∧ ∀ e ∈ (t.wheel i.wheel).mem.l1, e.2.saggar ≠ c.saggar
          else issueWait i t = some (.bell (xf i 0 2)) ∧
            (t.crew? i.wheel i.slot).map (fun d => (crewBell d (xf i 0 2)).arrived) =
              some ((crewBell c (xf i 0 2)).arrived ||| guardMask c x i)))

/-- O22. Work for the copy engine joins it and the path goes on. Rests on R95, R96, R157, R193, R194, R261, R279, R287, R374. -/
def Obligations.CopiesJoin : Prop :=
  ∀ (k : Instr) (s : State) (c : Crew) (x : CPath) (l : Nat) (i : Issue) (f : Form) (ok : Bool) (kind : CopyKind) (n : Nat),
    Issues s i isReady f c x → leadLane (guardMask c x i) = some l → copyRoom s i c = true →
    (copySpec s c l false k = some (i, f, ok, kind, n) → ok = true →
      Goes (exec k s) fun t => Untouched i c s t ∧ PathPast i x t ∧ issueWait i t = some .ready ∧
        (t.wheel i.wheel).eng.copies.map copyKey = (s.wheel i.wheel).eng.copies.map copyKey ++ [(c.uid, n, kind, c.saggar)]) ∧
    (copySpec s c l true k = some (i, f, ok, kind, n) → ok = true → k ∈ [Instr.accRd i, .accWr i, .gacc i] →
      Goes (exec k s) (CrewIs i c x (pathNext (advanceAc (noted i c x) n) i.path) s))

/-- O23. Matrix instructions of a converged crew join their queues. Rests on R136, R137, R138, R140, R141, R147, R159, R261. -/
def Obligations.MatrixJoins : Prop :=
  ∀ (i : Issue) (s : State) (c : Crew) (x : CPath), Converges i c x →
    let noTile := fun (l : List Nat) => ∀ t ∈ l, tileComing (s.wheel i.wheel) c.uid t = false
    let stays := fun (t : State) => (t.wheel i.wheel).eng.mxq = (s.wheel i.wheel).eng.mxq ∧ (t.wheel i.wheel).eng.mvq = (s.wheel i.wheel).eng.mvq
    (∀ (half : Bool) (k : Instr), k = (if half then .mxh i else .mx i) → Issues s i readyOrMx (mxForm half i) c x →
      ((s.wheel i.wheel).eng.mxq.filter fun e => !e.started).length < 8 → noTile [sa i, sa i + 1, sa i + 2, sa i + 3, sb i, xf i 11 4] →
      (crewLanes c x i = 0 → Goes (exec k s) fun t => Untouched i c s t ∧ CrewPast i c x t ∧ stays t) ∧
      (∀ (w : Window) (word : Nat), crewLanes c x i ≠ 0 → formFault c (mxForm half i) = none → blockAt c (da i % 4) (da i / 4) = .ok (w, word) →
        mxFormats i w = true → ((s.stream c.stream).dunob && (half || xf i 21 3 == 0 || xf i 18 3 == 0)) = false →
        Goes (exec k s) fun t => Untouched i c s t ∧ CrewPast i c x t ∧
          if passThrough s c.saggar w then stays t
          else (t.wheel i.wheel).eng.mvq = (s.wheel i.wheel).eng.mvq ∧
            (t.wheel i.wheel).eng.mxq.map mxKey = (s.wheel i.wheel).eng.mxq.map mxKey ++
              [(c.uid, word, sa i, sb i, xf i 21 3, xf i 18 3, i.x.getLsbD 15, crewLanes c x i, half, false)])) ∧
    (Issues s i readyOrMx (mvForm i) c x → (s.wheel i.wheel).eng.mvq.length < 4 → noTile [sb i, xf i 11 4] →
      (crewLanes c x i = 0 → Goes (exec (.mv i) s) fun t => Untouched i c s t ∧ CrewPast i c x t ∧ stays t) ∧
      (∀ w : Window, crewLanes c x i ≠ 0 → formFault c (mvForm i) = none → Tab.find c.wins (da i) = some w →
        (reg c ((leadLane (crewLanes c x i)).getD 0) (sa i)).toNat % 4096 * 16 + 16 ≤ w.size * 1024 → w.isInt = false →
        ((isFp8 (xf i 21 3) && isFp8 (xf i 18 3)) || (xf i 21 3 == 4 && xf i 18 3 == 4)) = true →
        Goes (exec (.mv i) s) fun t => Untouched i c s t ∧ CrewPast i c x t ∧
          if passThrough s c.saggar w then stays t
          else (t.wheel i.wheel).eng.mxq = (s.wheel i.wheel).eng.mxq ∧
            (t.wheel i.wheel).eng.mvq.map mvKey = (s.wheel i.wheel).eng.mvq.map mvKey ++
              [(c.uid, w.base * 1024 + (reg c ((leadLane (crewLanes c x i)).getD 0) (sa i)).toNat % 4096 * 16, xf i 21 3, xf i 18 3,
                (leadLane (crewLanes c x i)).getD 0, xf i 7 4, i.x.getLsbD 15, tileBytes c (sb i), tileBytes c (xf i 11 4))]))

/-- O24. A path that comes to a matrix instruction before the others waits. Rests on R137. -/
def Obligations.MatrixWaits : Prop :=
  ∀ (half : Bool) (k : Instr) (i : Issue) (f : Form) (s : State) (c : Crew) (x : CPath),
    (k, f) ∈ [(if half then Instr.mxh i else .mx i, mxForm half i), (.mv i, mvForm i)] → Issues s i readyOrMx f c x →
    x.wait = .ready → converged c i.path = false → (∀ e ∈ c.paths, e.2.wait = .mx → e.2.pc = x.pc) →
      Goes (exec k s) fun t => Untouched i c s t ∧ issueWait i t = some .mx ∧
        (t.wheel i.wheel).eng.mxq = (s.wheel i.wheel).eng.mxq ∧ (t.wheel i.wheel).eng.mvq = (s.wheel i.wheel).eng.mvq

/-- O25. Tile loads, stores and clears. Rests on R161, R163, R333, R340. -/
def Obligations.TilesAndWindows : Prop :=
  ∀ (i : Issue) (s : State) (c : Crew) (x : CPath) (l : Nat), leadLane (guardMask c x i) = some l →
    (∀ as, Issues s i isReady { tileForm i (i.sb == 0) (da i) with reads := !i.x.getLsbD 23 } c x →
      tileHeld (s.wheel i.wheel) c.uid (da i) = false → i.x.getLsbD 23 = true → tileLs i c l = .ok as →
      Goes (exec (.tld i) s) (BecomesCrew i c x (pathNext { noted i c x with
        tiles := (as.zip (chunks i)).foldl (fun ts e => putBytes ts (da i * 1024 + e.2 * chunkOf i) (getBytes c.ls e.1 (chunkOf i))) c.tiles }
        i.path) s)) ∧
    (∀ vas, Issues s i isReady { tileForm i (i.sb == 0) (da i) with reads := !i.x.getLsbD 23 } c x →
      tileHeld (s.wheel i.wheel) c.uid (da i) = false →
      i.x.getLsbD 23 = false → tileDev i c l = .ok vas → firstFault s c.saggar false (chunkOf i) vas = none →
      let held := fun (p : DWord × Nat × Nat) => (l1Sector s i.wheel (paOf s c.saggar p.1)).filter fun e => e.saggar == c.saggar
      let missed := (tileParts i (da i) vas).filter fun p => (held p).isNone
      Goes (exec (.tld i) s) fun t => Elsewhere i s t ∧ (t.wheel i.wheel).mem.store = (s.wheel i.wheel).mem.store ∧
        (t.wheel i.wheel).mem.reads.map readKey = (s.wheel i.wheel).mem.reads.map readKey ++
          missed.map (fun p => (c.uid, paOf s c.saggar p.1, p.2.2, .tile p.2.1, 0)) ∧
        ∃ d, t.crew? i.wheel i.slot = some d ∧ d = { c with tiles := d.tiles, paths := d.paths, lastPath := d.lastPath } ∧
          d.tiles = (tileParts i (da i) vas).foldl (fun ts p => match held p with
            | some q => putBytes ts p.2.1 ((q.bytes.drop (paOf s c.saggar p.1 % 32)).take p.2.2)
            | none => ts) c.tiles ∧
          (path? d i.path).map (fun y => (y.pc, y.wait)) =
            if missed ≠ [] ∨ (s.wheel i.wheel).mem.reads.any (fun r => r.uid == c.uid && r.path == i.path) = true then some (x.pc, .reads)
            else some (x.pc + 8, .ready)) ∧
    (∀ as, Issues s i isReady (tileForm i (i.da == 0) (sb i)) c x → tileComing (s.wheel i.wheel) c.uid (sb i) = false →
      i.x.getLsbD 23 = true → tileLs i c l = .ok as →
      Goes (exec (.tst i) s) (BecomesCrew i c x (pathNext { noted i c x with
        ls := (as.zip (chunks i)).foldl (fun ls e => putBytes ls e.1 (getBytes c.tiles (sb i * 1024 + e.2 * chunkOf i) (chunkOf i))) c.ls }
        i.path) s)) ∧
    (∀ vas, Issues s i isReady (tileForm i (i.da == 0) (sb i)) c x → tileComing (s.wheel i.wheel) c.uid (sb i) = false →
      i.x.getLsbD 23 = false → tileDev i c l = .ok vas → firstFault s c.saggar true (chunkOf i) vas = none → StoreIds s i.wheel c →
      Goes (exec (.tst i) s) fun t => Untouched i c s t ∧ PathPast i x t ∧ issueWait i t = some .ready ∧
        (∀ e ∈ (s.wheel i.wheel).mem.store, e.uid ≠ c.uid → e ∈ (t.wheel i.wheel).mem.store) ∧
        ∀ sec off, pendingByte (t.wheel i.wheel).mem.store sec off = pendingAfter (s.wheel i.wheel).mem.store
          ((tileParts i (sb i) vas).map fun p => (paOf s c.saggar p.1, getBytes c.tiles p.2.1 p.2.2)) sec off) ∧
    (Issues s i isReady { legal := decide (da i < 16) && i.sa == 0 && i.sb == 0 && i.x == 0, tiles := [da i] } c x →
      tileHeld (s.wheel i.wheel) c.uid (da i) = false →
      Goes (exec (.tzero i) s) (BecomesCrew i c x (pathNext { noted i c x with
        tiles := putBytes c.tiles (da i * 1024) (List.replicate 1024 0) } i.path) s))

/-- O26. Windows, cleared blocks and reductions. Rests on R152, R153, R156, R164, R261. -/
def Obligations.Accumulators : Prop :=
  ∀ (i : Issue) (s : State) (c : Crew) (x : CPath) (l : Nat), leadLane (guardMask c x i) = some l →
    (∀ w, Issues s i isReady { guarded := true, legal := decide (da i < 4) && xf i 3 21 == 0, regs := [sa i, sb i] } c x →
      windowOf c (da i) (xf i 0 2) (i.x.getLsbD 2) ((reg c l (sa i)).toNat % 64) ((reg c l (sa i)).toNat / 256 % 128)
        (if (reg c l (sb i)).toNat / 65536 % 2 = 1 then some ((reg c l (sb i)).toNat % 65536) else none) = .ok w →
      Goes (exec (.accWin i) s) fun t => Elsewhere i s t ∧ ∃ d, t.crew? i.wheel i.slot = some d ∧ WentOn c d i.path x ∧
        d = { c with wins := Tab.ins c.wins (da i) w, paths := d.paths, lastPath := d.lastPath }) ∧
    (Issues s i isReady { guarded := true, legal := i.sa == 0 && i.sb == 0 && i.x == 0 } c x → blockOk s i c (da i) false (fun _ => true) = true →
      Goes (exec (.accZero i) s) fun t => ∃ d, BecomesCrew i c x d s t ∧ d = { c with acc := d.acc, paths := d.paths, lastPath := d.lastPath } ∧
        ∀ n, accWord d n = if blockWord c (da i) ≤ n ∧ n < blockWord c (da i) + 1024 then 0 else accWord c n) ∧
    (Issues s i isReady { guarded := true, legal := i.sa == 0 && i.sb == 0 && i.x == 0 } c x → blockOk s i c (da i) true (fun _ => true) = true →
      Goes (exec (.accZero i) s) (BecomesCrew i c x (pathNext (noted i c x) i.path) s)) ∧
    (∀ w y src dst, Issues s i isReady { guarded := true, legal := xf i 16 8 == 0 && xf i 0 15 == 0, regs := [sb i] } c x →
      blockField c (sa i) = .ok (w, src) → blockField c (da i) = .ok (y, dst) → w.isInt = y.isInt →
      let n := (reg c l (sb i)).toNat
      let r := redAll (noted i c x) y.isInt y.longSum (s.stream c.stream).dunob (i.x.getLsbD 15) src n dst
      0 < n → n ≤ 64 → sa i / 4 + n ≤ w.size → (dst ≤ src ∨ src + 1024 * n ≤ dst) → passThrough s c.saggar y = false →
      blockFree s i c (da i) 1 = true → blockFree s i c (sa i) n = true → r.2.1 = false →
      Goes (exec (.accRed i) s) (BecomesCrew i c x (pathNext r.1 i.path) s)) ∧
    (∀ w y src dst, Issues s i isReady { guarded := true, legal := xf i 16 8 == 0 && xf i 0 15 == 0, regs := [sb i] } c x →
      blockField c (sa i) = .ok (w, src) → blockField c (da i) = .ok (y, dst) →
      let n := (reg c l (sb i)).toNat
      0 < n → n ≤ 64 → sa i / 4 + n ≤ w.size → (dst ≤ src ∨ src + 1024 * n ≤ dst) →
      blockFree s i c (da i) 1 = true → blockFree s i c (sa i) n = true →
      (passThrough s c.saggar y = true → Goes (exec (.accRed i) s) (BecomesCrew i c x (pathNext (noted i c x) i.path) s)) ∧
      (passThrough s c.saggar y = false → w.isInt ≠ y.isInt → Goes (exec (.accRed i) s) fun t => ∃ d, BecomesCrew i c x d s t ∧
        d = { c with acc := d.acc, paths := d.paths, lastPath := d.lastPath } ∧
        ∀ k, ¬(dst ≤ k ∧ k < dst + 1024) → accWord d k = accWord c k))

/-- O27. ACWAIT, LSTAT, USCALE.SET and VSETVL. Rests on R100, R196, R220. -/
def Obligations.CounterAndLayerOps : Prop :=
  ∀ (i : Issue) (s : State) (c : Crew) (x : CPath) (l : Nat), leadLane (guardMask c x i) = some l →
    (Issues s i isReady { guarded := true, legal := i.da == 0 && i.sb == 0 && xf i 22 2 == 0 && xf i 0 18 == 0, regs := [sa i] } c x →
      Goes (exec (.acwait i) s) fun t => Untouched i c s t ∧
        (if reached (acOf c (xf i 18 4)) (reg c l (sa i)) = true then PathPast i x t ∧ issueWait i t = some .ready
         else if (reg c l (sa i) - acOf c (xf i 18 4)).toNat ≤ openOn (s.wheel i.wheel) c.uid (xf i 18 4) then
           issueWait i t = some (.acwait (xf i 18 4) (reg c l (sa i)))
         else PathPast i x t)) ∧
    (Issues s i isReady { guarded := true, legal := i.sb == 0 && i.x == 0, regs := [da i, sa i] } c x →
      layerOk s c.saggar ((reg c l (sa i)).toNat % 2 ^ 20) = true →
      Goes (exec (.lstat i) s) (WritesReg i c x (fun _ => lstatWord s c.saggar ((reg c l (sa i)).toNat % 2 ^ 20)) s)) ∧
    (Issues s i isReady { guarded := true, legal := i.da == 0 && i.x == 0, regs := [sa i, sb i] } c x →
      layerOk s c.saggar ((reg c l (sa i)).toNat % 2 ^ 20) = true →
      -64 ≤ ((reg c l (sb i)).setWidth 8).toInt → ((reg c l (sb i)).setWidth 8).toInt ≤ 63 →
      exec (.uscaleSet i) s = .next (kept s (next (layerMod (noteIssue s i c x) c.saggar ((reg c l (sa i)).toNat % 2 ^ 20) fun e =>
        { e with pending := ((reg c l (sb i)).setWidth 8).toInt, pendingValid := true }) i))) ∧
    (Issues s i isReady { guarded := true, legal := i.sb == 0 && i.x == 0, regs := [da i, sa i] } c x →
      Goes (exec (.vsetvl i) s) fun t => ∃ d, BecomesCrew i c x d s t ∧
        RegsBecome c d (guardMask c x i) (da i) (fun _ => BitVec.ofNat 32 (min (reg c l (sa i)).toNat (2 ^ 24))) ∧
        d = { c with regs := d.regs, vl := min (reg c l (sa i)).toNat (2 ^ 24), paths := d.paths, lastPath := d.lastPath })

/-- O28. Vector chains and ray queries join their units; VRED reduces a tile. Rests on R10, R222, R234, R239, R240, R241, R242, R250. -/
def Obligations.VectorsAndRays : Prop :=
  ∀ (i : Issue) (s : State) (c : Crew) (x : CPath),
    let key := fun (e : VecEntry) => (e.uid, e.counter, e.desc, e.vl, e.vred)
    let vecForm : Form := { guarded := true, legal := decide (sa i < 16) && decide (sb i < 16) && xf i 0 12 == 0, regs := [da i]
                            tiles := sa i :: (if i.x.getLsbD 12 then [sb i] else []) }
    let travForm : Form := { guarded := true, reads := true, legal := i.x.toNat < 8, pairs := [sb i]
                             regs := ((List.range 8).map (sa i + ·)) ++ ((List.range 4).map (da i + ·)) }
    let ray := fun l => (List.range 8).map fun k => reg c l (sa i + k)
    let chainForm : Form := { guarded := true, reads := true, legal := i.da == 0 && i.sb == 0 && xf i 16 7 == 0 && xf i 0 12 == 0 }
    (∀ l raw, Issues s i isReady (spaceForm (i.x.getLsbD 23) chainForm (sa i)) c x →
      leadLane (guardMask c x i) = some l → readDesc s i c l = .ok raw → chainFault s c raw (ChainDesc.of raw) = none →
      chainGo i s c x (guardMask c x i) = true →
      Goes (exec (.vchain i) s) fun t => Untouched i c s t ∧ PathPast i x t ∧ issueWait i t = some .ready ∧
        (t.wheel i.wheel).eng.vecq.map key = (s.wheel i.wheel).eng.vecq.map key ++ [(c.uid, xf i 12 4, ChainDesc.of raw, c.vl, none)]) ∧
    (∀ f, Issues s i isReady vecForm c x → guardMask c x i ≠ 0 → vredOf i = some f →
      ((s.wheel i.wheel).eng.vecq = [] → vredBeyond i c c.vl f = false →
        Goes (exec (.vred i) s) fun t => ∃ d, BecomesCrew i c x d s t ∧
          d = { c with regs := d.regs, preds := d.preds, paths := d.paths, lastPath := d.lastPath } ∧
          ∀ lane, lane < 32 →
            (∀ q, q < 256 → reg d lane q = if (guardMask c x i).getLsbD lane ∧ lane < vredCount i f ∧ q = da i then
              BitVec.ofNat 32 (vredRes i c c.vl f lane).1 else reg c lane q) ∧
            ∀ p, p < 8 → predOf d lane p = if (guardMask c x i).getLsbD lane ∧ p = xf i 13 3 ∧ p ≠ 7 then
              (decide (lane < vredCount i f) && (vredRes i c c.vl f lane).2) else predOf c lane p) ∧
      ((s.wheel i.wheel).eng.vecq ≠ [] → (s.wheel i.wheel).eng.vecq.length < 8 →
        Goes (exec (.vred i) s) fun t => Untouched i c s t ∧ issueWait i t = some (.vec s.nextId) ∧
          (t.wheel i.wheel).eng.vecq.map key = (s.wheel i.wheel).eng.vecq.map key ++ [(c.uid, 0, { stages := [] }, c.vl, some (i, guardMask c x i))])) ∧
    (Issues s i isReady travForm c x → s.fuse.variant ≠ 3 → queriesOn (s.wheel i.wheel) + count (guardMask c x i) ≤ 256 →
      sa i % 8 = 0 → da i % 4 = 0 → (∀ l ∈ lanes i c x, (pair c l (sb i)).toNat % 128 = 0) →
      ((∀ l ∈ lanes i c x, (rayOf (ray l)).isSome = true) →
        Goes (exec (.trav i) s) fun t => Untouched i c s t ∧ PathPast i x t ∧ issueWait i t = some .ready ∧
          (t.crew? i.wheel i.slot).map (fun d => d.queries.map fun q => (q.lane, q.da, q.ray, q.root)) =
            some (c.queries.map (fun q => (q.lane, q.da, q.ray, q.root)) ++ (lanes i c x).map fun l => (l, da i, ray l, pair c l (sb i)))) ∧
      ((∀ l ∈ lanes i c x, rayOf (ray l) = none ∧ missAtOnce (ray l) = true) →
        Goes (exec (.trav i) s) fun t => ∃ d, BecomesCrew i c x d s t ∧
          d = { c with regs := d.regs, paths := d.paths, lastPath := d.lastPath } ∧ ∀ lane q, lane < 32 → q < 256 →
            reg d lane q = if (guardMask c x i).getLsbD lane ∧ da i ≤ q ∧ q < da i + 4 then [0x7F800000#32, 0xFFFFFFFF, 0, 0].getD (q - da i) 0
              else reg c lane q)) ∧
    (Issues s i isReady { guarded := true, legal := true } c x → s.fuse.variant = 3 → guardMask c x i ≠ 0 →
      exec (.trav i) s = .next (kept s (crewFault (noteIssue s i c x) i.wheel i.slot fUnitAbsent x.pc)))

/-- O29. An instruction of the accumulators, the copy engine, training, vectors or traversal with no executing thread does nothing. Rests on R140, R221. -/
def Obligations.NoExecutingThread : Prop :=
  ∀ (k : Instr) (i : Issue) (s : State) (c : Crew) (x : CPath), leadSpec k = some i → i.ok = true → issuer s i isReady = some (c, x) →
    fetchOk s c x = true → c.queries = [] → acquiring s i.wheel c = false → queriesOn (s.wheel i.wheel) ≤ 256 → guardMask c x i = 0 →
      Goes (exec k s) fun t => ∃ d, BecomesCrew i c x d s t ∧ d = { c with paths := d.paths, lastPath := d.lastPath }

/-- O30. Signals, waits and completion records leave. Rests on R356, R357, R360, R366, R373, R386, R387. -/
def Obligations.SignalsAndWaits : Prop :=
  ∀ (i : Issue) (s : State) (c : Crew) (x : CPath),
    (Issues s i isReady { legal := i.da == 0 && xf i 22 2 != 3 && xf i 0 21 == 0, pairs := [sa i], regs := [sb i] } c x →
      accessOk s c.saggar true 4 (saAddrs i c x) →
      Goes (exec (.sig i) s) fun t => Untouched i c s t ∧ PathPast i x t ∧
        (t.wheel i.wheel).mem.store.map storeKey = (s.wheel i.wheel).mem.store.map storeKey ++ (lanes i c x).map fun l =>
          (c.uid, pair c l (sa i), paOf s c.saggar (pair c l (sa i)), .signal (xf i 22 2) (reg c l (sb i)), i.x.getLsbD 21)) ∧
    (Issues s i isReady { legal := decide (da i < 8) && xf i 22 2 == 0 && xf i 5 15 == 0, pairs := [sa i], regs := [sb i] } c x →
      accessOk s c.saggar false 4 (saAddrs i c x) → lanes i c x ≠ [] →
      Goes (exec (.sigw i) s) fun t => Untouched i c s t ∧ issueWait i t = some (.sigw (i.x.getLsbD 21) (da i)) ∧
        (t.wheel i.wheel).mem.reads.map (fun r => (r.uid, r.pa, r.len)) = (s.wheel i.wheel).mem.reads.map (fun r => (r.uid, r.pa, r.len)) ++
          (lanes i c x).map (fun l => (c.uid, paOf s c.saggar (pair c l (sa i)), 4)) ∧
        ∀ l ∈ lanes i c x, ∃ id w, Tab.find t.crier.waits id = some w ∧ w.st = .reading ∧
          waitKey w = (.thread i.wheel i.slot c.uid i.path l, pair c l (sa i), paOf s c.saggar (pair c l (sa i)), reg c l (sb i), reachOf (xf i 0 5))) ∧
    (∀ l g gid q, Issues s i isReady { legal := i.da == 0 && xf i 22 2 != 3 && xf i 16 6 == 0 && xf i 0 8 == 0, pairs := [sa i],
                                       regs := [sb i, xf i 8 8] } c x → leadLane (guardMask c x i) = some l →
      (pair c l (sa i)).toNat % 4 = 0 → peerOf s c.saggar (reg c l (xf i 8 8)) = some (g, gid, q) →
      Goes (exec (.sigR i) s) fun t => Untouched i c s t ∧ PathPast i x t ∧
        ((∃ tag o, Tab.find t.link.sigs tag = some o ∧ (o.guild, o.rank, o.va, o.op, o.v) = (gid, q, pair c l (sa i), xf i 22 2, reg c l (sb i))) ∨
         ∃ n, (t.port n).undelivered = (s.port n).undelivered + 1)) ∧
    (∀ l, Issues s i isReady { legal := i.da == 0 && (i.x == 0 || i.x == 1 <<< 21), regs := [sa i, sb i] } c x →
      leadLane (guardMask c x i) = some l → outstanding s i.wheel < 4 →
      let n := (reg c l (sa i)).toNat % 64
      (s.coll n).bound = true → (s.coll n).saggar = c.saggar → (s.coll n).unbinding = none →
      Goes (exec (.collect i) s) fun t => Untouched i c s t ∧ PathPast i x t ∧
        (t.coll n).offered.map crecKeyOf = (s.coll n).offered.map crecKeyOf ++ [(reg c l (sb i), c.stream, i.wheel, false)])

/-- O31. Group bells. Rests on R378, R379, R380, R381, R382, R384. -/
def Obligations.GroupBells : Prop :=
  ∀ (i : Issue) (s : State) (c : Crew) (x : CPath) (l : Nat),
    let h := gHandle i c l
    let g := gbell s c.saggar h
    (GbellIssues s i false false false c x l → c.uid ∉ g.members → g.members.length < 16384 →
      Goes (exec (.bellGjoin i) s) fun t => Untouched i c s t ∧ PathPast i x t ∧
        gbell t c.saggar h = { g with members := c.uid :: g.members }) ∧
    (GbellIssues s i false false false c x l → c.uid ∈ g.members →
      Goes (exec (.bellGleave i) s) fun t => Untouched i c s t ∧ PathPast i x t ∧
        (gbell t c.saggar h).members = g.members.filter (· != c.uid)) ∧
    (GbellIssues s i false false false c x l → mayArrive s c h g = true →
      Goes (exec (.bellGarrive i) s) fun t => Untouched i c s t ∧ issueWait i t = some (.gbell h g.phase) ∧
        ∃ id a, Tab.find t.crier.arrivals id = some a ∧ a.uid = c.uid ∧ a.handle = h ∧ a.phase = g.phase) ∧
    (GbellIssues s i true false false c x l → mayArrive s c h g = true →
      Goes (exec (.bellGsignal i) s) fun t => PathPast i x t ∧ SameMemory s t ∧
        (∃ d, t.crew? i.wheel i.slot = some d ∧ RegsBecome c d (guardMask c x i) (da i) fun _ => g.phase) ∧
        ∃ id a, Tab.find t.crier.arrivals id = some a ∧ a.uid = c.uid ∧ a.handle = h ∧ a.phase = g.phase) ∧
    (GbellIssues s i false true false c x l → c.uid ∈ g.members →
      Goes (exec (.bellGwait i) s) fun t => Untouched i c s t ∧
        (if judge g.phase (reg c l (sb i) + 1) (reachOf 0) = .waits then issueWait i t = some (.gbell h (reg c l (sb i)))
         else PathPast i x t ∧ ∀ e ∈ (t.wheel i.wheel).mem.l1, e.2.saggar ≠ c.saggar)) ∧
    (GbellIssues s i false false true c x l →
      Goes (exec (.bellGreset i) s) fun t => Untouched i c s t ∧ PathPast i x t ∧
        gbell t c.saggar h = { phase := g.phase + 1 } ∧ ∀ e ∈ t.crier.arrivals, ¬(e.2.saggar = c.saggar ∧ e.2.handle = h))

/-- O32. A store, an atomic or a signal is performed at its home slice once, and changes no other byte. Rests on R331, R333, R346, R356, R357, R671. -/
def Obligations.StoresPerformed : Prop :=
  ∀ (w id : Nat) (s : State) (e : StoreEntry), Performs s w id e →
    (∀ tab, e.op = .bytes tab → (tab.length = 32 ∨ poisoned s e.pa = false) → (∀ p ∈ tab, p.1 < 32) → tab.Pairwise (fun a b => a.1 < b.1) →
      Goes (exec (.homeSliceWrite w id) s) fun t => (storeOf t w id).map StoreEntry.performed = some true ∧
        ∀ a, memByte t a = if a / 32 = e.pa / 32 then (Tab.find tab (a % 32)).getD (memByte s a) else memByte s a) ∧
    (∀ op wide v y path lane d acq, e.op = .atom op wide v y path lane d acq → poisoned s e.pa = false →
      (let o : DWord := BitVec.ofNat 64 (leNat (memBytes s e.pa 4))
       op = .fadd → addBeyond (o.setWidth 32) (v.setWidth 32) ((atomValue op wide o v y).setWidth 32) = false) →
      Goes (exec (.homeSliceWrite w id) s) fun t => (storeOf t w id).map StoreEntry.performed = some true ∧
        (∀ r, readOf s w id = some r → (readOf t w id).map ReadTxn.value = some (some (memBytes s e.pa (if wide then 8 else 4)))) ∧
        BytesBecome s t e.pa (leBytes (if wide then 8 else 4)
          (atomValue op wide (BitVec.ofNat 64 (leNat (memBytes s e.pa (if wide then 8 else 4)))) v y).toNat)) ∧
    (∀ op v, e.op = .signal op v → poisoned s e.pa = false →
      Goes (exec (.signalApply w id) s) fun t => (storeOf t w id).map StoreEntry.performed = some true ∧
        BytesBecome s t e.pa (leBytes 4 (sigValue op (memWord s e.pa) v).toNat))

/-- O33. Memory keeps its one canonical form. Rests on R331, R346. -/
def Obligations.MemoryFormKept : Prop :=
  ∀ (w id : Nat) (c : Instr) (s t : State), c ∈ [Instr.homeSliceWrite w id, .signalApply w id, .homeSliceRead w id, .combineTimeout w id] →
    Memory.wf s.ms.mem = true → exec c s = .next t → Memory.wf t.ms.mem = true

/-- O34. Reads take their value at the home slice and deliver it; acknowledged stores leave. Rests on R331, R333, R334, R338, R343, R321. -/
def Obligations.ReadsAndAcks : Prop :=
  ∀ (w id : Nat) (s : State), w < 192 → memRuns s = true →
    (∀ r, readOf s w id = some r → r.order ≠ 3 → r.value = none → lineBusy s r.pa = false →
      storeAhead (s.wheel w).mem.store r = false → olderRead (s.wheel w).mem.reads r = false →
      Goes (exec (.homeSliceRead w id) s) fun t => SameMemory s t ∧
        (readOf t w id).map (fun q => (q.value, q.poisoned, q.sector, q.dest)) = some
          (if poisoned s r.pa then (some [], true, r.sector, r.dest)
           else (some (memBytes s r.pa r.len), r.poisoned,
             laterStores (s.wheel w).mem.store r (memBytes s (r.pa / 32 * 32) 32), r.dest))) ∧
    (∀ e, storeOf s w id = some e → e.performed = true →
      Goes (exec (.writeAck w id) s) fun t => (∀ f ∈ (t.wheel w).mem.store, f.id ≠ id) ∧
        ((∀ l, s.launch? e.launch = some l → l.left ≠ 0) → SameMemory s t)) ∧
    (∀ e, storeOf s w id = some e →
      Goes (exec (.combineTimeout w id) s) fun t => SameMemory s t ∧ (storeOf t w id) = some { e with combining := false }) ∧
    (∀ r bs c, readOf s w id = some r → r.value = some bs → s.crew? w r.slot = some c → c.uid = r.uid →
      (∀ lane d, r.poisoned = false → r.dest = .reg lane d →
        Goes (exec (.fillReturn w id) s) fun t => SameMemory s t ∧ readOf t w id = none ∧
          (t.crew? w r.slot).map Crew.regs = some (putVal c lane d bs).regs ∧
          (r.acq = true → ∀ e ∈ (t.wheel w).mem.l1, e.2.saggar ≠ r.saggar) ∧
          (∀ y, path? c r.path = some y → y.wait = .reads → (∀ q ∈ (s.wheel w).mem.reads, q.id ≠ id → q.uid = r.uid → q.path ≠ r.path) →
            ((t.crew? w r.slot).bind fun e => path? e r.path).map (fun z => (z.pc, z.wait)) = some (y.pc + 8, .ready))) ∧
      (∀ off, r.poisoned = false → r.dest = .tile off →
        Goes (exec (.fillReturn w id) s) fun t => SameMemory s t ∧ readOf t w id = none ∧
          (t.crew? w r.slot).map (fun d => (d.regs, d.tiles)) = some (c.regs, putBytes c.tiles off bs)) ∧
      (∀ lane d y, r.poisoned = true → r.dest = .reg lane d → path? c r.path = some y →
        exec (.fillReturn w id) s = .next (kept s (crewFault (tallyCrew (dropRead s w id) w c (memEvent (dropRead s w id) w r.pa 14)) w r.slot fOperand y.pc))))

/-- O35. Wakes, time-outs, polls and arrivals. Rests on R365, R366, R368, R369, R370, R380, R382, R411, R674. -/
def Obligations.WakesAndPolls : Prop :=
  ∀ (id : Nat) (s : State), memRuns s = true →
    (∀ w wh sl uid p l c x acq pred, Tab.find s.crier.waits id = some w → w.who = .thread wh sl uid p l →
      s.crew? wh sl = some c → c.uid = uid → path? c p = some x → x.wait = .sigw acq pred → l < 32 → pred < 8 →
      let ends := fun (v : Bool) (t : State) => Tab.find t.crier.waits id = none ∧ SameMemory s t ∧
        ∃ d y, t.crew? wh sl = some d ∧ path? d p = some y ∧ d.regs = c.regs ∧
          (∀ q, predOf d l q = if q = pred ∧ q ≠ 7 then v else predOf c l q) ∧
          ((∃ e ∈ s.crier.waits, e.1 ≠ id ∧ ∃ m, e.2.who = .thread wh sl uid p m) → y.pc = x.pc ∧ y.wait = x.wait) ∧
          ((∀ e ∈ s.crier.waits, e.1 ≠ id → ∀ m, e.2.who ≠ .thread wh sl uid p m) → y.pc = x.pc + 8 ∧ y.wait = .ready ∧
            (acq = true → ∀ e ∈ (t.wheel wh).mem.l1, e.2.saggar ≠ c.saggar))
      (w.st = .woken → Goes (exec (.wake id) s) (ends true)) ∧
      (∀ dl, w.st ≠ .woken → w.deadline = some dl → dl < s.watch → Goes (exec (.sigwTimeout id) s) (ends false))) ∧
    (∀ w n pos, Tab.find s.crier.waits id = some w → w.who = .command n pos → w.st = .woken →
      exec (.wake id) s = .next (kept s (completeCmd
        { s with crier := { s.crier with waits := Tab.del s.crier.waits id } } n (BitVec.ofNat 32 pos)))) ∧
    (∀ g c x h p, Tab.find s.crier.waits id = none → Tab.find s.crier.gwakes id = some g → s.crew? g.wheel g.slot = some c →
      c.uid = g.uid → path? c g.path = some x → x.wait = .gbell h p →
      Goes (exec (.wake id) s) fun t => Tab.find t.crier.gwakes id = none ∧ SameMemory s t ∧
        (∃ d, t.crew? g.wheel g.slot = some d ∧ PathsOnly c d ∧ (path? d g.path).map (fun y => (y.pc, y.wait)) = some (x.pc + 8, .ready)) ∧
        ∀ e ∈ (t.wheel g.wheel).mem.l1, e.2.saggar ≠ c.saggar) ∧
    (∀ w, Tab.find s.crier.waits id = some w → w.st = .polled → lineBusy s w.pa = false → w.read + 128 ≤ s.watch →
      (poisoned s w.pa = false → w.isTail = false →
        Goes (exec (.sigwPoll id) s) fun t => SameMemory s t ∧
          (Tab.find t.crier.waits id).map Wait.st = some (if judge (memWord s w.pa) w.target w.reach = .waits then .polled else .woken)) ∧
      (poisoned s w.pa = false → w.isTail = true →
        Goes (exec (.sigwPoll id) s) fun t => SameMemory s t ∧
          Tab.find t.crier.waits id = some { w with target := memWord s w.pa, read := s.watch }) ∧
      (∀ wh sl uid p l, poisoned s w.pa = true → w.who = .thread wh sl uid p l →
        exec (.sigwPoll id) s = .next (kept s (faultUid s wh sl uid fOperand (pcOfPath s wh sl p))))) ∧
    (∀ a, Tab.find s.crier.arrivals id = some a → released s a.wheel id = true →
      let g := gbell s a.saggar a.handle
      g.broken = false → a.uid ∈ g.members → a.uid ∉ g.arrived →
      Goes (exec (.gbellArrival id) s) fun t => Tab.find t.crier.arrivals id = none ∧ SameMemory s t ∧
        if g.arrived.length + 1 = g.members.length then
          (gbell t a.saggar a.handle).phase = g.phase + 1 ∧ (gbell t a.saggar a.handle).arrived = []
        else (gbell t a.saggar a.handle).phase = g.phase ∧ (gbell t a.saggar a.handle).arrived = a.uid :: g.arrived)

/-- O36. NOP, LAUNCH, SIGNAL, WAIT, TIER_MOVE and PREFETCH of a stream begin and take effect. Rests on R408, R412, R413, R415, R416, R284, R285, R366. -/
def Obligations.StreamCommandsBegin : Prop :=
  ∀ (n : Nat) (s s1 : State) (c : List Byte),
    let x := s.stream n
    let k := x.saggar
    let o := openCmd s1 n c
    (CmdBegins s s1 n 0 c noWait noBad → exec (.nopCommand n) s = .next (kept s (completeCmd o n (posOf s n)))) ∧
    (CmdBegins s s1 n 1 c launchWait launchBad → launchRuns o (o.stream n) c = true → ((o.stream n).block.isSome && (o.stream n).overflow) = false →
      Goes (exec (.launch n) s) fun t => ∃ id l, Tab.find t.front.launches id = some l ∧
        (l.stream, l.saggar, l.total, l.prog, l.res, l.pos) =
          (n, k, cf c 44 8 24 + 1, launchProg (o.stream n) c, launchRes c, posOf s n)) ∧
    (CmdBegins s s1 n 5 c wordWait signalBad → exec (.signal n) s = .next (kept s (completeCmd
      (engSignal o { saggar := k, stream := n, source := 518 } (cAddr c 16) (cf c 28 0 2) (BitVec.ofNat 32 (cf c 24 0 32))).2 n (posOf s n)))) ∧
    (∀ pa m, CmdBegins s s1 n 6 c wordWait waitBad → translate s k (cAddr c 16) = some (pa, m) →
      Goes (exec (.wait n) s) fun t => SameMemory s t ∧ ∃ id w, Tab.find t.crier.waits id = some w ∧
        w.who = .command n (posOf s n).toNat ∧ w.pa = pa ∧ w.target = BitVec.ofNat 32 (cf c 24 0 32) ∧
        (w.st = .woken ↔ judge (memWord s pa) w.target w.reach ≠ .waits)) ∧
    (CmdBegins s s1 n 10 c noWait moveBad →
      Goes (exec (.tierMove n) s) fun t => ∃ id j, Tab.find t.front.tier id = some j ∧ j.kind = 3 ∧ j.stream = n ∧ j.pos = posOf s n ∧
        j.ranges = [(cAddr c 16, cAddr c 24, cf c 32 0 64)] ∧ j.sig = cAddr c 40 ∧ j.orphan = false) ∧
    (CmdBegins s s1 n 9 c (prefetchWait n) prefetchBad → prefetchStarts o k (cf c 16 12 20) = true →
      Goes (exec (.prefetch n) s) fun t => ∃ id j, Tab.find t.front.tier id = some j ∧ j.kind = 2 ∧ j.stream = n ∧ j.layer = cf c 16 12 20 ∧
        j.ranges = homeCopies s k (cf c 16 12 20))

/-- O37. Layer blocks open, commit or replay; STEP processes the layers or asks for a snapshot. Rests on R197, R198, R201, R202, R205, R416, R587. -/
def Obligations.LayerCommandsBegin : Prop :=
  ∀ (n : Nat) (s s1 : State) (c : List Byte),
    let x := s.stream n
    let k := x.saggar
    let o := openCmd s1 n c
    (CmdBegins s s1 n 2 c noWait layerBeginBad → offFull o (o.stream n) c = false → headOk s n = true →
      Goes (exec (.layerBegin n) s) fun t => ∃ b, (t.stream n).block = some b ∧ b.layer = cmdLayer c ∧ b.ranges = rangesOf c ∧
        b.base = cf c 16 30 2 ∧ (t.stream n).level = cf c 16 30 2 ∧ (t.stream n).overflow = false ∧ (t.stream n).replayPos = (t.stream n).beginPos) ∧
    (∀ b, CmdBegins s s1 n 3 c (fun u _ _ => blockBusy u n) commitBad → x.block = some b →
      (x.overflow = false → (handsOver o b && decide (offLeft o k < unitsOf (savesOf b.ranges))) = false →
        Goes (exec (.layerCommit n) s) fun t => (t.stream n).block = none ∧ (t.stream n).layerOpen = false ∧ (t.stream n).level = 0) ∧
      (x.overflow = true →
        Goes (exec (.layerCommit n) s) fun t => (t.stream n).level = min (x.level + 1) 2 ∧ (t.stream n).beginPos = x.replayPos ∧
          (t.stream n).overflow = false ∧ (t.stream n).block.map Block.replays = some (b.replays + 1))) ∧
    (CmdBegins s s1 n 4 c (fun u y _ => decide (3 ≤ (u.saggar y.saggar).sec.state)) stepBad →
      (cf c 16 0 1 = 0 → exec (.step n) s = .next (kept s (processStep (latchSec o k) n (posOf s n)))) ∧
      (cf c 16 0 1 = 1 → Goes (exec (.step n) s) fun t => (t.saggar k).sec.dunob =
        some { stream := n, pos := posOf s n, n := (s.saggar k).step + 1, since := s.time.gts }))

/-- O38. Gathers take their slot, and a guild command its number. Rests on R273, R275, R276, R482, R487. -/
def Obligations.GatherAndGuildBegin : Prop :=
  ∀ (n : Nat) (s s1 : State) (c : List Byte),
    let o := openCmd s1 n c
    (CmdBegins s s1 n 7 c gatherWait gatherBad →
      Goes (exec (.gather n) s) fun t => SameMemory s t ∧ ∃ g, Tab.find (t.stream n).gslots (cf c 18 0 3) = some g ∧ g.weight = cf c 16 0 16 ∧
        g.dest = cAddr c 24 ∧ g.word = cAddr c 32 ∧ g.pos = posOf s n ∧ g.complete = false) ∧
    (∀ g, CmdBegins s s1 n 8 c gatherWait releaseBad → Tab.find (s.stream n).gslots (cf c 18 0 3) = some g →
      Goes (exec (.gatherRelease n) s) fun t => SameMemory s t ∧ ∃ id,
        Tab.find (t.stream n).gslots (cf c 18 0 3) = some { g with releasing := some (posOf s n, id) }) ∧
    (CmdBegins s s1 n 8 c gatherWait releaseBad → Tab.find (s.stream n).gslots (cf c 18 0 3) = none →
      exec (.gatherRelease n) s = .next (kept s (completeCmd o n (posOf s n)))) ∧
    (∀ g outs, CmdBegins s s1 n 11 c guildWait guildBad → o.guild? (gcmd c).gid = some g → g.heard = [] → g.early = [] →
      (formOuts o { saggar := (s.stream n).saggar, stream := n, source := 520 } (gcmd c).gid g (gcmd c) (cmdLayer c) (cmdOper c)).1 = .ok outs →
      Goes (exec (.guild n) s) fun t => (t.guild? (gcmd c).gid).map Guild.seq = some (g.seq + 1) ∧
        ∃ id j, Tab.find t.link.jobs id = some j ∧ j.guild = (gcmd c).gid ∧ j.seq = g.seq ∧ j.stream = n ∧ j.pos = posOf s n ∧ j.outs = outs)

/-- O39. Engines start, commit and complete their entries. Rests on R97, R138, R142, R148, R149, R159, R234, R235, R241, R251. -/
def Obligations.EnginesComplete : Prop :=
  ∀ (w : Nat) (s : State), w < 192 →
    (∀ h rest bh bp, mayStart s w = true → waitingMx s w = h :: rest →
      (h.half = false ∨ (partnerOf h [] rest = none ∧ rest ≠ []) →
        Goes (exec (.arrayEntryStart w bh bp) s) fun t => SameMemory s t ∧ startEntry s w h bh none ∈ (t.wheel w).eng.mxq ∧
          (t.wheel w).eng.lastStart = s.watch) ∧
      (∀ p, h.half = true → partnerOf h [] rest = some p →
        Goes (exec (.arrayEntryStart w bh bp) s) fun t => SameMemory s t ∧ startEntry s w h bh (some p.id) ∈ (t.wheel w).eng.mxq ∧
          startEntry s w p bp (some h.id) ∈ (t.wheel w).eng.mxq) ∧
      (h.half = true → rest = [] → exec (.arrayEntryStart w bh bp) s = .next s) ∧
      (h.half = true → rest = [] → max h.since (s.wheel w).eng.lastStart + 2 ≤ s.watch →
        Goes (exec (.mxhPartnerTimeout w) s) fun t => SameMemory s t ∧ startEntry s w h false none ∈ (t.wheel w).eng.mxq)) ∧
    (memWheel s w = true →
      (∀ h rest c, (s.wheel w).eng.mxq = h :: rest → h.started = true → h.partner = none → h.bad = false →
        accBusy (s.wheel w) h.uid h.word (h.word + 1024) h.id = false → entryCrew s w h.slot h.uid = some c → (mxSum c h).2.1 = false →
        Goes (exec (.mxCommit w false false) s) fun t => SameMemory s t ∧ t.crew? w h.slot = some (mxSum c h).1 ∧
          ∀ e ∈ (t.wheel w).eng.mxq, e.id ≠ h.id) ∧
      (∀ h rest p c d, (s.wheel w).eng.mxq = h :: rest → h.started = true → h.bad = false → h.partner = some p.id → p.bad = false →
        rest.find? (fun e => e.id == p.id) = some p → h.slot ≠ p.slot →
        accBusy (s.wheel w) h.uid h.word (h.word + 1024) h.id = false → accBusy (s.wheel w) p.uid p.word (p.word + 1024) p.id = false →
        entryCrew s w h.slot h.uid = some c → entryCrew s w p.slot p.uid = some d → (mxSum c h).2.1 = false → (mxSum d p).2.1 = false →
        Goes (exec (.mxCommit w false false) s) fun t => SameMemory s t ∧ t.crew? w h.slot = some (mxSum c h).1 ∧
          t.crew? w p.slot = some (mxSum d p).1 ∧ ∀ e ∈ (t.wheel w).eng.mxq, e.id ≠ h.id ∧ e.id ≠ p.id) ∧
      (∀ e c, nextMv s w = some e → accBusy (s.wheel w) e.uid e.word (e.word + 16) e.id = false →
        entryCrew s w e.slot e.uid = some c → (mvSum c e).2.1 = false →
        Goes (exec (.mvCommit w false) s) fun t => SameMemory s t ∧ t.crew? w e.slot = some (mvSum c e).1 ∧
          ∀ q ∈ (t.wheel w).eng.mvq, q.id ≠ e.id) ∧
      (∀ k h, vecSlot (s.wheel w) = some k → (s.wheel w).eng.vecq.find? (fun e => e.slot == k) = some h →
        (h.segsLeft ≠ 0 → (∀ e ∈ (s.wheel w).eng.vecq, e.vred = none) →
          Goes (exec (.chainSegmentEnd w) s) fun t => SameMemory s t ∧ { h with segsLeft := h.segsLeft - 1 } ∈ (t.wheel w).eng.vecq ∧
            (t.wheel w).eng.vecTurn = (k + 1) % 64) ∧
        (∀ bad u n c, h.segsLeft = 0 → h.vred = none → ownStores (s.wheel w) h.uid h.id = false → chainCounterBusy (s.wheel w) h = false →
          h.accWords.any (fun p => mxInto (s.wheel w) h.uid p.1 p.2 h.id) = false → runChain s w h bad = (.ok n, u) →
          (∀ e ∈ (u.wheel w).eng.vecq, e.vred = none) →
          entryCrew u w h.slot h.uid = some c → n.beyond = false → n.sat = false → inGradient u c = false →
          Goes (exec (.chainComplete w ⟨h.id, bad⟩) s) fun t => SameMemory u t ∧ t.crew? w h.slot = some (advanceAc c h.counter) ∧
            ∀ e ∈ (t.wheel w).eng.vecq, e.id ≠ h.id) ∧
        (∀ i m c f, (s.wheel w).eng.vecq = [h] → h.vred = some (i, m) → entryCrew s w h.slot h.uid = some c → vredOf i = some f →
          vredBeyond i c h.vl f = false →
          Goes (exec (.chainSegmentEnd w) s) fun t => SameMemory s t ∧ (t.wheel w).eng.vecq = [] ∧ ∃ d, t.crew? w h.slot = some d ∧
            ∀ lane q, lane < 32 → q < 256 → reg d lane q = if m.getLsbD lane ∧ lane < vredCount i f ∧ q = da i then
              BitVec.ofNat 32 (vredRes i c h.vl f lane).1 else reg c lane q)) ∧
      (∀ e u id, (s.wheel w).eng.copies.find? (fun e => e.id == id) = some e → copyHeld s e = false → e.sent = none →
        counterBusy (s.wheel w) e = false → (e.leave = true → leaveKnown s 1 w id ≠ 0) → (∀ r, e.after = some r → released s w r = true) →
        (runCopy s w e = (none, u) → (∀ g q a b l m, e.kind ≠ .rput g q a b l m) →
          exec (.copyComplete w id) s = .next (kept s (endCopy u w e))) ∧
        (∀ g q a b l m, e.kind = .rput g q a b l m → exec (.copyComplete w id) s = .next (kept s (sendPut s w e g q a b l m)))) ∧
      (∀ id slot c q r b n fin, (s.wheel w).crews.findSome? (fun (e : Nat × Crew) =>
          (e.2.queries.find? fun q => q.id == id).map fun q => (e.1, e.2, q)) = some (slot, c, q) → rayOf q.ray = some r →
        walk s w c.saggar q r (2 ^ 64) [{ entry := none, slot := 0, kind := 0, index := 0, tris := 0 }] { t := r.tmax } {} = some (.ok (b, n, fin)) →
        Goes (exec (.travQueryComplete w id) s) fun t => SameMemory s t ∧ t.crew? w slot =
          some (putResult { c with queries := c.queries.filter fun p => p.id != id } q.lane q.da (travResult b))))

/-- O40. Wheels find work and start crews. Rests on R77, R104, R105, R106, R107, R108, R109, R111, R422. -/
def Obligations.WorkFinding : Prop :=
  ∀ (w : Nat) (s : State), w < 192 → (∀ e ∈ s.front.launches, e.2.pinned = false) →
    (∀ r rest l p, (s.wheel w).work.deque = r :: rest → wheelOn s w = true → canStart s w r = true → s.launch? r.launch = some l →
      bestPart (s.wheel w) l.res = some p → r.saved = none →
      Goes (exec (.crewStart w) s) fun t => SameMemory s t ∧ ∃ c, t.crew? w (freeSlot (s.wheel w)) = some c ∧ c.task = r.first ∧
        c.launch = r.launch ∧ c.saggar = l.saggar ∧ c.part = p ∧ c.regs = [] ∧ c.preds = [] ∧ c.acc = [] ∧ c.tiles = [] ∧ c.ls = [] ∧ c.vl = 0 ∧
        c.live = 0xFFFFFFFF ∧ c.paths = [(0, { pc := l.prog, mask := 0xFFFFFFFF })]) ∧
    (wheelOn s w = true → wheelEvicting (s.wheel w) = false → anyRoom (s.wheel w) = true → (s.wheel w).work.asking = false →
      (s.wheel w).work.gotEmpty = false → (s.wheel w).work.retry = false → hasStartable s w = false →
      Goes (exec (.marketRequest w) s) fun t => (t.wheel w).work = { (s.wheel w).work with asking := true }) ∧
    ((s.wheel w).work.asking = true → s.serving = true → s.frozen = false → (s.wheel w).ctl.state = .on → (s.wheel w).ctl.stopGts = none →
      (bestLaunch s w = none → (s.wheel w).ctl.resv = none →
        Goes (exec (.marketAnswer w) s) fun t => (t.wheel w).work = { (s.wheel w).work with asking := false, gotEmpty := true, nextProbe := 0 }) ∧
      (∀ id l, bestLaunch s w = some (id, l) → rangesHeld (s.wheel w) < 64 → tasksHeld (s.wheel w) ≤ 448 →
        Goes (exec (.marketAnswer w) s) fun t => (t.wheel w).work.asking = false ∧
          (resumablesFor w l = [] → ∃ r, r.launch = id ∧ r.saved = none ∧ (t.wheel w).work.deque = (s.wheel w).work.deque ++ [r]) ∧
          (∀ q rest, resumablesFor w l = q :: rest →
            { launch := id, first := q.task, count := 1, saved := some q } ∈ (t.wheel w).work.deque ∧
            ((t.wheel w).work.deque.filter fun r => r.launch != id) = (s.wheel w).work.deque.filter fun r => r.launch != id))) ∧
    (∀ v, wheelOn s w = true → (s.wheel w).work.gotEmpty = true → (s.wheel w).work.probe = none → (s.wheel w).work.retry = false →
      (s.wheel w).ctl.resv = none → anyRoom (s.wheel w) = true → (victims s w)[(s.wheel w).work.nextProbe]? = some v →
      Goes (exec (.stealProbe w) s) fun t => (t.wheel w).work = { (s.wheel w).work with probe := some (s.wheel w).work.nextProbe, probeGave := none }) ∧
    (∀ p v, (s.wheel w).work.probe = some p → (s.wheel w).work.probeGave = none → s.serving = true → s.frozen = false →
      (victims s w)[p]? = some v → (s.wheel v).ctl.state = .on →
      Goes (exec (.stealProbeArrival w) s) fun t => (t.wheel w).work.probeGave = some ((stealFrom s w v).map fun q =>
        { launch := q.1.launch, first := q.1.first + (q.1.count - q.2.2), count := q.2.2 })) ∧
    ((s.wheel w).work.probeGave = some none → s.serving = true → s.frozen = false →
      Goes (exec (.stealAnswer w) s) fun t => (t.wheel w).work.probe = none ∧
        (if (s.wheel w).work.nextProbe + 1 < (victims s w).length then (t.wheel w).work.nextProbe = (s.wheel w).work.nextProbe + 1
         else (t.wheel w).work.retry = true ∧ (t.wheel w).work.retrySince = s.watch)) ∧
    (wheelOn s w = true → (s.wheel w).work.retry = true → (s.wheel w).work.retrySince + 256 ≤ s.watch →
      Goes (exec (.idleRetry w) s) fun t => (t.wheel w).work = { (s.wheel w).work with retry := false, gotEmpty := false, nextProbe := 0 }) ∧
    (∀ id l, s.serving = true → s.frozen = false → s.launch? id = some l → l.cls = 1 → l.served = false → l.window + s.img.interWait ≤ s.watch →
      Goes (exec (.interactiveWaitExpiry id) s) fun t => match victimWheel s l with
        | none => t.launch? id = some { l with window := l.window + s.img.interWait }
        | some v => t.launch? id = some { l with served := true } ∧ (t.wheel v).ctl.preempt = some id)

/-- O41. Wheels are enabled, drained, evicted, gated and restarted. Rests on R37, R38, R39, R111, R115, R116, R117, R118. -/
def Obligations.WheelControl : Prop :=
  ∀ (w : Nat) (s : State), w < 192 → s.serving = true → s.present w = true →
    let x := s.wheel w
    (x.ctl.waking = true → x.ctl.state ≠ .fenced →
      Goes (exec (.wheelRestart w) s) fun t => (t.wheel w).ctl.waking = false ∧ (t.wheel w).ctl.gated = false ∧ (t.wheel w).ctl.stopGts = none ∧
        (t.wheel w).ctl.state = if x.ctl.state = .off then .on else x.ctl.state) ∧
    (∀ p, 4 ≤ p → p ≤ 16 → x.ctl.stopGts = none →
      (x.ctl.period ≤ p + 1 → Goes (exec (.droop w p) s) fun t => ∃ n, x.ctl.lastStamp ≤ n ∧
        (t.wheel w).ctl = { x.ctl with period := p, lastStamp := n }) ∧
      (p + 1 < x.ctl.period → exec (.droop w p) s = .next s)) ∧
    (x.ctl.state ≠ .fenced → Goes (exec (.whlCtlEnable w) s) fun t => (t.wheel w).ctl.enable = true ∧
      (t.wheel w).ctl.state = (if x.ctl.state = .draining then .pendingOn else x.ctl.state) ∧ (x.ctl.state = .off → (t.wheel w).ctl.waking = true)) ∧
    (x.ctl.state ≠ .fenced → Goes (exec (.whlCtlDisable w) s) fun t => (t.wheel w).ctl.enable = false ∧
      (t.wheel w).ctl.state = (if x.ctl.state = .off then .off else .draining) ∧ (x.ctl.state = .on → (t.wheel w).work.deque = [] ∧ (t.wheel w).ctl.resv = none)) ∧
    (x.ctl.state = .draining → Goes (exec (.whlCtlEvict w) s) fun t => (t.wheel w).ctl = { x.ctl with evict := true }) ∧
    (x.crews = [] → x.ctl.state = .draining ∨ x.ctl.state = .pendingOn →
      Goes (exec (.wheelDrainEnd w) s) fun t => (t.wheel w).ctl.evict = false ∧ (t.wheel w).ctl.state = .off ∧
        (t.wheel w).ctl.gated = true ∧ (t.wheel w).ctl.resv = none ∧ (t.wheel w).ctl.waking = decide (x.ctl.state = .pendingOn) ∧
        (t.wheel w).work.deque = [] ∧ ∀ p ∈ t.rve.permits, ¬(p.2.kind ≤ 1 ∧ p.2.unit = w)) ∧
    (s.frozen = false → x.ctl.evict = true → (∀ e ∈ x.crews, quiescent s w e.2 = true) → (∀ e ∈ x.crews, evicting s w e.2 = true) →
      Goes (exec (.evictionComplete w) s) fun t => (t.wheel w).crews = [] ∧ (t.wheel w).ctl.evict = false ∧ (t.wheel w).ctl.preempt = none) ∧
    (s.img.idleOff = false → s.frozen = false → x.ctl.state = .on → x.ctl.stopGts = none → wheelIdle x = true → x.ctl.resv = none →
      x.ctl.waking = false → x.ctl.preempt = none → x.work.asking = false → x.work.probe = none →
      x.ctl.idleSince.getD 0 + s.img.idleTicks ≤ s.watch →
      Goes (exec (.idleGate w) s) fun t => (t.wheel w).ctl = { x.ctl with gated := true, stopGts := some (stopTick s x.ctl) })

/-- O42. Watchdogs of bells and of convergence. Rests on R93, R121, R139, R383. -/
def Obligations.Watchdogs : Prop :=
  ∀ (w slot : Nat) (s : State) (c : Crew), w < 192 → slot < 64 → s.crew? w slot = some c →
    (∀ b since, b < 4 → (crewBell c b).since = some since → (crewBell c b).arrived ≠ 0 → since + bellTicks s c.saggar < s.watch →
      exec (.bellTimeout w slot b) s = .next (kept s (crewFault (tallyCrew s w c 0x109) w slot 0x16
        (((c.paths.find? fun p => p.2.wait == .bell b).map fun p => p.2.pc).getD 0)))) ∧
    (∀ since p x, c.mxSince = some since → since + 2 ^ (s.saggar c.saggar).cfg.bellExp / 4 < s.watch →
      c.paths.find? (fun e => e.2.wait == .mx) = some (p, x) →
      exec (.mxConvergenceTimeout w slot) s = .next (if converged c p then s else kept s (crewFault s w slot 0x18 x.pc))) ∧
    (∀ k h since, k < 4096 → (gbell s k h).since = some since → (gbell s k h).broken = false →
      since + 2 ^ (s.saggar k).cfg.bellExp / 4 < s.watch →
      Goes (exec (.gbellTimeout k h) s) fun t => (gbell t k h).broken = true ∧ (gbell t k h).phase = (gbell s k h).phase ∧
        ∀ e ∈ bellWaiters s k h, (s.stream e.2.2.1.stream).st = 1 → (t.stream e.2.2.1.stream).st = 2)

/-- O43. Doorbells offer tails; drains, gathers and tier moves complete. Rests on R405, R410, R412, R425, R401, R273, R276, R282, R284, R285. -/
def Obligations.DoorbellsAndDrains : Prop :=
  ∀ (s : State) (n : Nat), n < 2 ^ 20 →
    let x := s.stream n
    (∀ fn slot v wide, fn < 256 → slot < 262080 → hostUp s = true → fnExists s fn = true → streamAt s fn slot = some (n, x) →
      (exec (.doorbellRead fn slot) s = .next (kept s (s.emit (.readData (x.head.setWidth 64))))) ∧
      (x.st = 1 ∨ x.st = 2 → s.front.queued = [] → (∀ e ∈ s.front.fetching, e.1 ≠ n) →
        (s.front.cached.contains n = true →
          exec (.doorbellWrite fn slot v wide) s = .next (kept s (offerTail (useContext s n) n (v.setWidth 32)))) ∧
        (s.front.cached.contains n = false → canCache s n = true →
          Goes (exec (.doorbellWrite fn slot v wide) s) fun t => t.front.fetching = s.front.fetching ++ [(n, v.setWidth 32)] ∧ t.stream n = x))) ∧
    (∀ tl, s.serving = true → s.front.fetching.find? (fun e => e.1 == n) = some (n, tl) → x.st = 1 → reached tl x.tail = true →
      (tl - x.head).toNat ≤ 2 ^ x.order →
      Goes (exec (.contextFetchEnd n false) s) fun t => t.stream n = { x with tail := tl } ∧ t.front.cached.contains n = true) ∧
    (∀ tl, s.serving = true → s.front.fetching.find? (fun e => e.1 == n) = some (n, tl) → x.st ≠ 0 →
      exec (.contextFetchEnd n true) s = .next (kept s (frontFault
        { s with front := { s.front with fetching := dropFirst n s.front.fetching } } n fOperand 0xFFFFF 0xFFF))) ∧
    (memRuns s = true → x.st = 3 ∨ x.st = 4 → (s.saggar x.saggar).st = .on → streamQuiet s n = true → x.latched = none →
      Goes (exec (.streamDrainEnd n) s) fun t => (t.stream n).st = 0 ∧ SameMemory s t) ∧
    (∀ k, k < 4096 → s.serving = true → (s.saggar k).st = .draining → (s.saggar k).latched = none → drainQuiet s k = true →
      Goes (exec (.saggarDrainEnd k) s) fun t => (t.saggar k).st = .off ∧ ∀ e ∈ t.front.streams, e.2.st ≠ 0 → e.2.saggar ≠ k) ∧
    (∀ slot g sh, slot < 5 → memRuns s = true → Tab.find x.gslots slot = some g →
      (let rank := ((Tab.find s.link.guilds g.guild).map Guild.rank).getD 0
       let here := shardsHere s g rank sh
       g.complete = false → (s.saggar x.saggar).st = .on → wordSettled s x.saggar g.word = true →
        (writeShards s x.saggar n rank g sh here).1 = none →
        Goes (exec (.gatherComplete n slot sh) s) fun t => (Tab.find (t.stream n).gslots slot).map (fun q => (q.complete, q.arrived)) =
          some (decide (∀ r < g.shards, r ∈ here ++ g.arrived), here ++ g.arrived)) ∧
      (∀ pos id, g.complete = true → g.releasing = some (pos, id) → heldRange s x.saggar g.dest.toNat g.bytes = false →
        (∀ w ∈ s.wheels, w.2.eng.copies = []) →
        Goes (exec (.gatherReleaseEffect n slot) s) fun t => Tab.find (t.stream n).gslots slot = none)) ∧
    (∀ id j, Tab.find s.front.tier id = some j → tierRuns s j = true → (tierCopy s j).1 = none →
      (j.kind = 0 →
        Goes (exec (.offloadComplete id) s) fun t => Tab.find t.front.tier id = none ∧ ∀ o ∈ (t.saggar j.saggar).offs,
          (∃ r ∈ j.ranges, r.2.1 = (s.saggar j.saggar).cfg.offBase + BitVec.ofNat 64 o.at_) → o.done = true) ∧
      (j.kind = 1 ∨ j.kind = 2 → (∀ o ∈ (s.saggar j.saggar).offs, o.layer = j.layer → o.done = true) →
        Goes (exec (.restoreComplete id) s) fun t => Tab.find t.front.tier id = none ∧
          (∀ e ∈ t.front.streams, e.2.block.bind Block.restore ≠ some id) ∧
          (j.kind = 2 → ∀ e ∈ (t.saggar j.saggar).early, e.1 = j.layer → e.2 = true)) ∧
      (j.kind = 3 → Goes (exec (.tierMoveComplete id) s) fun t => Tab.find t.front.tier id = none))

/-- O44. Guild commands, collectors and remote operations complete. Rests on R372, R375, R376, R377, R388, R389, R390, R391, R487, R675. -/
def Obligations.GuildsComplete : Prop :=
  ∀ (s : State), memRuns s = true →
    (∀ id j g, Tab.find s.link.jobs id = some j → s.guild? j.guild = some g → (s.saggar j.saggar).st = .on → wordSettled s j.saggar j.sig = true → j.stalled = false → jobDone g j = true →
      (writeRows s { saggar := j.saggar, stream := j.stream, source := 520 }
        (tabBytes j.result (resLen j.op (j.cols * j.rows) g.n g.rank j.comp j.outFmt))
        (rowsIn j.dst j.dstride (j.cols * (if reduces j.op then fmtBytes j.outFmt else 1))
          (resLen j.op (j.cols * j.rows) g.n g.rank j.comp j.outFmt))).1 = none →
      Goes (exec (.guildComplete id) s) fun t => Tab.find t.link.jobs id = none) ∧
    (∀ gid g, gid < 65536 → s.guild? gid = some g → g.st ≠ 1 → (∀ e ∈ s.link.jobs, e.2.guild ≠ gid) → g.latched = none →
      Goes (exec (.guildDrainEnd gid) s) fun t => t.guild? gid = none ∧ SameMemory s t) ∧
    (∀ c, c < 64 → (s.coll c).bound = true → (s.coll c).held = [] →
      Goes (exec (.collectorCycle c) s) fun t => SameMemory s t ∧
        (t.coll c).held = (sortKeys ((s.coll c).offered.filter fun r => r.rel.isNone)).take 8) ∧
    (∀ c r pa m, c < 64 → (s.coll c).bound = true → (s.coll c).held = [r] → (s.coll c).offered = [] → ringRoom (s.coll c) = true →
      let va := (s.coll c).ring + BitVec.ofNat 64 (16 * ((s.coll c).drained % (s.coll c).entries))
      settled s (s.coll c).saggar va 16 = true → translate s (s.coll c).saggar va = some (pa, m) → poisoned s pa = false → pa % 16 = 0 →
      Goes (exec (.collectorCycle c) s) fun t => BytesBecome s t pa (crecBytes r) ∧ (t.coll c).drained = (s.coll c).drained + 1 ∧
        (t.coll c).held = [] ∧ (t.coll c).inFlight = (s.coll c).inFlight ++ [r.stream]) ∧
    (∀ c pa m, c < 64 → (s.coll c).inFlight ≠ [] → settled s (s.coll c).saggar (s.coll c).countWord 4 = true →
      translate s (s.coll c).saggar (s.coll c).countWord = some (pa, m) → m.write = true → poisoned s pa = false →
      Goes (exec (.collectorCountAdvance c) s) fun t =>
        BytesBecome s t pa (leBytes 4 (memWord s pa + BitVec.ofNat 32 (s.coll c).inFlight.length).toNat) ∧
        (t.coll c).count = (s.coll c).count + (s.coll c).inFlight.length ∧ (t.coll c).inFlight = []) ∧
    (∀ c pa m, c < 64 → (s.coll c).bound = true → settled s (s.coll c).saggar (s.coll c).headWord 4 = true → translate s (s.coll c).saggar (s.coll c).headWord = some (pa, m) →
      Goes (exec (.collectorHeadReread c) s) fun t => SameMemory s t ∧ t.coll c = { s.coll c with head := memWord s pa }) ∧
    (∀ c since v, c < 64 → (s.coll c).since = some since → (s.coll c).coalesce ≠ 0 → (s.coll c).announced ≠ (s.coll c).count →
      since + (s.coll c).coalesce ≤ s.watch → (s.coll c).vector = some v →
      Goes (exec (.collectorCoalesce c) s) fun t => SameMemory s t ∧ (t.coll c).announced = (s.coll c).count ∧ (t.coll c).since = none) ∧
    (∀ c fn n, c < 64 → (s.coll c).unbinding = some (fn, n) → (s.coll c).inFlight = [] →
      Goes (exec (.collectorUnbindEnd c) s) fun t => t.coll c = {} ∧ SameMemory s t) ∧
    (∀ id n p, Tab.find s.link.inbound id = some (n, p) → settled s p.saggar p.addr (max 4 p.data.length) = true →
      (∀ pa m, p.kind = 0 → (Tab.has s.link.tags (tagKey p) = true ∨ s.link.tags.length < 16384) →
        remoteOk s p.saggar p.addr p.data.length = true → translate s p.saggar p.addr = some (pa, m) → p.data ≠ [] →
        p.addr.toNat % 32 + p.data.length ≤ 32 → (p.data.length = 32 ∨ poisoned s pa = false) → pa % 32 = p.addr.toNat % 32 →
        Goes (exec (.remoteWrite id) s) fun t => BytesBecome s t pa p.data ∧ Tab.find t.link.inbound id = none) ∧
      (∀ pa, p.kind = 2 → p.count ≤ (Tab.get {} s.link.tags (tagKey p)).done → (Tab.get {} s.link.tags (tagKey p)).denied = false →
        remoteWord s p.saggar p.addr = some pa →
        Goes (exec (.remoteWrite id) s) fun t => BytesBecome s t pa (leBytes 4 (sigValue p.op (memWord s pa) p.v).toNat) ∧
          Tab.find t.link.inbound id = none) ∧
      (∀ pa, p.kind = 1 → settled s p.saggar p.addr 4 = true → remoteWord s p.saggar p.addr = some pa →
        Goes (exec (.remoteSignal id) s) fun t => BytesBecome s t pa (leBytes 4 (sigValue p.op (memWord s pa) p.v).toNat) ∧
          Tab.find t.link.inbound id = none) ∧
      (∀ w e, p.kind = 3 → p.op ≠ 3 → copyOfTag s p.tag = some (w, e) → counterBusy (s.wheel w) e = false →
        exec (.putAck id) s = .next (kept s (endCopy (dropInbound s id) w e))))

/-- O45. Events of the clocks, PTP, genlock and pairing change the time unit as their rules say. Rests on R35, R36, R41, R42, R61, R62, R66, R67, R68, R70. -/
def Obligations.TimeEvents : Prop :=
  ∀ s : State,
    let v := s.time.servo
    (s.hub.state = .powering → s.time.locked = false → Goes (exec .rootPllLock s) fun t => t.time.locked = true ∧ t.time.gts = 0 ∧
      t.time.epoch = s.time.epoch + 1 ∧ t.time.mt = 0 ∧ t.time.rate = 0 ∧ SameMemory s t) ∧
    (s.time.locked = true → s.time.holdover = false → exec (.refLoss true) s =
      .next { s with time := { s.time with holdover := true, refPresent := false, lostAt := s.gts } }) ∧
    (s.time.locked = true → s.time.holdover = true → s.time.lostAt + 400000 < s.gts → exec .refReturn s = .next s) ∧
    (s.time.locked = true → (s.time.holdover = true → s.gts ≤ s.time.lostAt + 400000) → exec .refReturn s = .next { s with time := { s.time with
      holdover := false, refPresent := true, refLoss := if s.time.holdover then min 0xFF (s.time.refLoss + 1) else s.time.refLoss } }) ∧
    (s.time.locked = true → s.time.holdover = true → s.serving = true → exec .holdoverExpiry s =
      .next (if s.time.lostAt + 400000 < s.gts then kept s (enterFailed s 3 12 0 13) else s)) ∧
    (∀ m : SyncMsg, ptpHears s m.domain = true → ofMaster s m.clock = true → logOk m.logInterval = true →
      let tlv := if m.tlv = [] then s.frm.tlv else m.tlv
      (m.twoStep = true → Goes (exec (.ptpSync m) s) fun t => t = { s with time := t.time, frm := { s.frm with tlv := tlv } } ∧
        t.time.servo.syncPend = some (m.seq, (s.time.mt - s.img.rxLat * 2 ^ 41 : Int)) ∧ t.time.servo.lastSync = s.watch) ∧
      (m.twoStep = false → Goes (exec (.ptpSync m) s) fun t =>
        t.time.servo.lastT = some ((m.origin : Int), (s.time.mt - s.img.rxLat * 2 ^ 41 : Int)) ∧
        (v.delay = none → t = { s with time := t.time, outbox := t.outbox, frm := { s.frm with tlv := tlv } } ∧ t.outbox.length = s.outbox.length + 1))) ∧
    (∀ (m : SyncMsg) (r : Int), ptpHears s m.domain = true → ofMaster s m.clock = true → v.syncPend = some (m.seq, r) →
      Goes (exec (.ptpFollowUp m) s) fun t => t.time.servo.lastT = some ((m.origin : Int), r) ∧ t.time.servo.syncPend = none ∧
        (v.delay = none → t = { s with
          time := t.time, outbox := t.outbox, frm := { s.frm with tlv := if m.tlv = [] then s.frm.tlv else m.tlv } })) ∧
    (∀ (m : DelayResp) (a b c : Int), ptpHears s m.domain = true → ofMaster s m.clock = true → v.delayReq = some (m.seq, a) → v.lastT = some (b, c) →
      Goes (exec (.ptpDelayResp m) s) fun t => t = { s with time := t.time } ∧ t.time.servo.delay = some (((c - b) + ((m.receive : Int) - a)) / 2)) ∧
    (∀ m : Announce, ptpHears s m.domain = true → v.foreign = [] →
      Goes (exec (.ptpAnnounce m) s) fun t => t = { s with time := t.time } ∧ t.time.servo.master = some m.clock ∧ t.time.servo.foreign.length = 1) ∧
    (s.serving = true → v.state = 1 ∨ v.state = 2 → v.lastSync + tickRate ≤ s.watch →
      Goes (exec .ptpSyncTimeout s) fun t => t = { s with time := t.time } ∧ t.time.servo.state = 3 ∧ t.time.rate = s.time.rate) ∧
    (s.serving = true → s.time.locked = true → s.time.gen.edges = [] ∨ s.time.gen.edges.headD 0 + 400 ≤ s.gts →
      Goes (exec .genlockEdge s) fun t => t = { s with time := t.time } ∧ t.time.gen.gts = s.time.gts ∧
        (s.time.onGenlock = true → t.time.pairDue ≠ none) ∧
        (∀ d, 15 ≤ s.time.gen.edges.length → (∀ q ∈ spacings ((s.gts :: s.time.gen.edges).take 16), q = d) →
          t.time.gen.present = true ∧ t.time.gen.period = BitVec.ofNat 32 d)) ∧
    (s.serving = true → s.time.gen.present = true → s.time.gen.last + 2 * s.time.gen.period.toNat < s.watch →
      exec .genlockTimeout s = .next { s with time := { s.time with gen := { s.time.gen with present := false, edges := [] } } }) ∧
    (s.time.locked = true → s.time.onSecond = true → mtSecs (s.time.mt - mtStep s) ≠ mtSecs s.time.mt →
      Goes (exec .mediaSecondRollover s) fun t => t = { s with time := t.time } ∧ t.time.pairDue = some (s.time.pairDue.getD (s.time.gts, s.time.mt))) ∧
    (hostUp s = true → exec .timPairCapture s = .next { s with time := { s.time with capture := true } }) ∧
    (hostUp s = true → exec .timMtNsRead s = .next { s with
      time := { s.time with mtSecLatch := BitVec.ofNat 48 (mtSecs s.time.mt) }
      outbox := .readData (BitVec.ofNat 64 (mtNanos s.time.mt)) :: s.outbox })

/-- O46. p7 reads 1 and takes no write; compares write p0 to p6; guards read them. Formalises R75. -/
def Obligations.PredicateSeven : Prop :=
  ∀ (c : Crew) (x : CPath) (i : Issue) (l : Nat), l < 32 →
    predOf c l 7 = true ∧ (∀ v, setPred c l 7 v = c) ∧ (∀ p v, p < 7 → predOf (setPred c l p v) l p = v) ∧
    ((guardMask c x i).getLsbD l = true ↔ (x.mask &&& c.live).getLsbD l = true ∧ predOf c l i.pg.toNat ≠ i.pn) ∧
    ∀ (k : Instr) (f : Form) (v : Crew → Nat → Bool) (s : State), predSpec k = some (i, f, v) → Issues s i isReady f c x →
      Goes (exec k s) fun t => ∃ d, t.crew? i.wheel i.slot = some d ∧ predOf d l 7 = true ∧
        ((guardMask c x i).getLsbD l = true → da i < 7 → predOf d l (da i) = v c l)

/-- O47. Writes to WHL_CTL of a FENCED wheel are ignored. Formalises R118. -/
def Obligations.FencedWheelIgnores : Prop :=
  ∀ (s : State) (w : Nat), w < 192 → (s.wheel w).ctl.state = .fenced →
    exec (.whlCtlEnable w) s = .next s ∧ exec (.whlCtlDisable w) s = .next s ∧ exec (.whlCtlEvict w) s = .next s ∧
    ∀ v, exec (.registerWrite 0 0 (0x01000000 + 0x10000 * w) false v) s = .next s

/-- O48. Frames, mappings, scrubs, migrations, transfers and granary ports end as their rules say. Rests on R304, R306, R307, R314, R320, R322, R323, R325, R552, R673. -/
def Obligations.MemoryUnits : Prop :=
  ∀ s : State,
    (∀ id j, memRuns s = true → Tab.find s.ms.zeroJobs id = some j → (∀ f ∈ j.frames, State.reserveFrame f = false) →
      (∀ f ∈ j.frames, ∀ n ∈ frameExpanders (65536 * f), (s.grn n).state = .on ∨ (s.grn n).state = .fenced) →
      Goes (exec (.frameZeroingEnd id) s) fun t => Tab.find t.ms.zeroJobs id = none ∧
        (∀ f, t.frame f = if f ∈ j.frames then { st := .owned, owner := j.saggar } else s.frame f) ∧
        ∀ a, memByte t a = if a / 65536 ∈ j.frames then 0 else memByte s a) ∧
    (∀ id j, memRuns s = true → Tab.find s.ms.unmapJobs id = some j →
      usesLeaf s j.saggar (j.vas.filterMap (Tab.find (s.saggar j.saggar).maps)) = false →
      Goes (exec (.unmapComplete id) s) fun t => Tab.find t.ms.unmapJobs id = none ∧ SameMemory s t ∧
        (∀ va ∈ j.vas, Tab.find (t.saggar j.saggar).maps va = none) ∧
        (∀ va, va ∉ j.vas → Tab.find (t.saggar j.saggar).maps va = Tab.find (s.saggar j.saggar).maps va)) ∧
    (∀ n p, n < 8 → s.serving = true → p / 64 = n → Tab.get 0 s.ms.scrubs n ≠ s.gts / 34560000000000 + 1 →
      (s.pc p).ceWin + 1 < 8 * s.img.ceLimit →
      Goes (exec (.hbmScrub n [p]) s) fun t => t.pc p = { s.pc p with ce := (s.pc p).ce + 1, ceWin := (s.pc p).ceWin + 1 } ∧ SameMemory s t) ∧
    (∀ n, n < 8 → s.serving = true → Tab.get 0 s.ms.scrubs n ≠ s.gts / 34560000000000 + 1 →
      exec (.hbmScrub n []) s = .next { s with ms := { s.ms with scrubs := Tab.put 0 s.ms.scrubs n (s.gts / 34560000000000 + 1) } }) ∧
    (∀ c l, c < 128 → s.serving = true → (s.slice c).state = 1 → s.fen.dies.getLsbD (c / 64) = false →
      Goes (exec (.sliceTransferEnd c l) s) fun t => (t.slice c).state = 2 ∧ (t.slice c).sets = [] ∧ (t.slice (c ^^^ 1)).carries = true ∧
        SameMemory s t ∧ ∀ a ∈ l, homeSlice s a = c → poisoned t a = true) ∧
    (∀ p l, p < 512 → s.serving = true → (s.pc p).state = 1 → s.fen.dies.getLsbD (p / 256) = false →
      Goes (exec (.pcMigrationEnd p l) s) fun t => (t.pc p).state = 2 ∧ SameMemory s t ∧
        ∀ a ∈ l, nearTier a = true → (stackPc a).1 * 64 + (stackPc a).2 = p → poisoned t a = true) ∧
    (∀ k n, unitExists s k n = true → s.serving = true → s.frozen = false →
      s.watch % 2 ^ 30 = 0 → Tab.get 0 s.fen.ended (4096 * k + n) ≠ s.watch →
      Goes (exec (.errorWindowEnd k n) s) fun t =>
        t = { s with ms := t.ms, fen := { s.fen with wheelErr := t.fen.wheelErr, ended := t.fen.ended } } ∧
        Tab.get 0 t.fen.ended (4096 * k + n) = s.watch ∧ SameMemory s t ∧
        (k = 0 → wheelErr t n = {}) ∧ (k = 1 → t.slice n = { s.slice n with ceWin := 0, ueWin := 0 }) ∧
        (k = 2 → t.pc n = { s.pc n with ceWin := 0, ueWin := 0 }) ∧ (k = 10 → t.grn n = { s.grn n with poisonWin := 0 })) ∧
    (∀ n, hasGrn s n = true →
      let x := s.grn n
      (hostUp s = true → x.state = .on →
        exec (.grnPortEnable n) s = .next (s.setGrn n { x with enable := true }) ∧
        (expanderOwned s n = true → exec (.grnPortDisable n) s = .next (s.setGrn n { x with refused := true })) ∧
        (expanderOwned s n = false → exec (.grnPortDisable n) s = .next (s.setGrn n { x with enable := false, state := .draining }))) ∧
      (hostUp s = true → x.state = .draining → exec (.grnPortEnable n) s = .next (s.setGrn n { x with enable := true, state := .pendingOn })) ∧
      (hostUp s = true → s.serving = true → x.state = .off → permitOf s 3 (544 + n) 0 = none →
        Goes (exec (.grnPortEnable n) s) fun t => t.grn n = { x with enable := true } ∧ SameMemory s t ∧
          ∃ id p, (id, p) ∈ t.rve.permits ∧ p.kind = 3 ∧ p.unit = 544 + n ∧ p.pend = 1 ∧ p.held = 0) ∧
      (s.serving = true → x.state = .draining →
        exec (.grnPortDrainEnd n) s = .next (s.setGrn n { x with state := .off, linkUp := false })) ∧
      (s.serving = true → x.state = .off → x.enable = true → leaveKnown s 3 (544 + n) 0 ≠ 0 →
        Goes (exec (.grnPortTrainingEnd n true) s) fun t => t.grn n = { x with state := .on, linkUp := true } ∧ SameMemory s t) ∧
      (s.serving = true → x.linkUp = true → exec (.cxlLinkDown n true) s = .next s ∧
        (down s 10 n = false → Goes (exec (.cxlLinkDown n false) s) fun t => (t.grn n).state = .fenced ∧ fencing t 10 n = true ∧ SameMemory s t)))

/-- O49. Error reports are counted, contained or fence; fences complete; recoveries start and end. Rests on R322, R323, R324, R544, R545, R549, R553, R556, R558, R562, R563. -/
def Obligations.ErrorsAndFences : Prop :=
  ∀ s : State, s.serving = true →
    (∀ e : ErrReport, unitExists s e.kind e.index = true →
      (e.etype = 1 → e.kind = 10 → exec (.errorReport e) s = .next (s.setGrn e.index { s.grn e.index with ce := (s.grn e.index).ce + 1 })) ∧
      (e.etype = 1 → e.kind = 1 → (s.slice e.index).ceWin + 1 < 128 →
        exec (.errorReport e) s = .next (s.setSlice e.index { s.slice e.index with
          ce := (s.slice e.index).ce + 1, ceWin := (s.slice e.index).ceWin + 1 })) ∧
      (e.etype = 2 → e.kind = 2 → (s.pc e.index).ueWin = 0 →
        Goes (exec (.errorReport e) s) fun t => t.pc e.index = { s.pc e.index with ueWin := 1 } ∧ poisoned t e.addr = true ∧ SameMemory s t ∧
          t.fen = s.fen) ∧
      (e.etype = 2 → e.kind = 2 → 1 ≤ (s.pc e.index).ueWin → down s 2 e.index = false → (s.stack (e.index / 64)).spareUsed = false →
        Goes (exec (.errorReport e) s) fun t => (t.pc e.index).state = 1 ∧ fencing t 2 e.index = true ∧
          (t.stack (e.index / 64)).spareUsed = true ∧ (t.stack (e.index / 64)).sparePc = e.index % 64 ∧ SameMemory s t) ∧
      (e.etype = 12 → e.kind = 12 → Goes (exec (.errorReport e) s) fun t => t.hub.state = .failed ∧ t.hub.cause = 2) ∧
      (e.etype = 13 → e.kind = 12 → Goes (exec (.errorReport e) s) fun t => t.hub.state = .failed ∧ t.hub.cause = 3)) ∧
    (∀ id j, Tab.find s.fen.jobs id = some j → j.kind = 7 ∨ j.kind = 8 ∨ j.kind = 9 ∨ j.kind = 10 →
      s.fen.recs.contains (j.kind, j.index, false) = false →
      Goes (exec (.fenceComplete id) s) fun t => Tab.find t.fen.jobs id = none ∧ SameMemory s t ∧ t.hub = s.hub) ∧
    (∀ id j, Tab.find s.fen.jobs id = some j → j.kind = 0 → j.index < 192 → fencing s 4 (j.index / 96) = false →
      s.fen.recs.contains (0, j.index, false) = false → (s.wheel j.index).mem.store = [] → (s.wheel j.index).ctl.state = .fenced →
      Goes (exec (.fenceComplete id) s) fun t => Tab.find t.fen.jobs id = none ∧ SameMemory s t ∧
        (t.wheel j.index).ctl.state = .fenced ∧ (t.wheel j.index).ctl.gated = true) ∧
    (∀ id j, Tab.find s.fen.jobs id = some j → j.kind = 4 →
      Goes (exec (.fenceComplete id) s) fun t => t.hub.state = .fencedHalf ∧ t.hub.fencedDie = j.index ∧ Tab.find t.fen.jobs id = none) ∧
    (∀ v : Word, hostUp s = true →
      let k := bits v.toNat 28 4
      let n := bits v.toNat 0 12
      let told := fun (r : Nat) => ({ s with fen := { s.fen with recKind := k, recIndex := n, recResult := r } } : State)
      ((s.fen.recs.any fun e => e.1 == k && e.2.1 == n) = true → exec (.fenRecover v) s = .next (told 3)) ∧
      ((s.fen.recs.any fun e => e.1 == k && e.2.1 == n) = false →
        (k = 0 ∨ k = 7 ∨ k = 8 ∨ k = 9 ∨ k = 10 → unitExists s k n = false ∨ (fenced s k n = false ∧ fencing s k n = false) →
          exec (.fenRecover v) s = .next (told 5)) ∧
        (¬(k = 0 ∨ k = 7 ∨ k = 8 ∨ k = 9 ∨ k = 10) → exec (.fenRecover v) s = .next (told 2)) ∧
        (k = 0 ∨ k = 7 ∨ k = 8 ∨ k = 9 ∨ k = 10 → unitExists s k n = true → fencing s k n = true →
          Goes (exec (.fenRecover v) s) fun t => t.fen.recs = (k, n, false) :: s.fen.recs ∧ t.fen.recResult = 0 ∧ t = { s with fen := t.fen }) ∧
        (k = 0 ∨ k = 7 → unitExists s k n = true → fenced s k n = true → fencing s k n = false →
          Goes (exec (.fenRecover v) s) fun t => (k, n, true) ∈ t.fen.recs ∧ t.fen.recResult = 0 ∧ t = { s with fen := t.fen }))) ∧
    (∀ w, s.present w = true → s.fen.recs.contains (0, w, true) = true → fenced s 0 w = true → s.fen.dies.getLsbD (w / 96) = false →
      Goes (exec (.recoveryEnd 0 w true) s) fun t => (t.wheel w).ctl.state = .off ∧ (t.wheel w).ctl.gated = true ∧
        (t.wheel w).ctl.waking = (s.wheel w).ctl.enable ∧ (t.fen.recs.any fun e => e.1 == 0 && e.2.1 == w) = false ∧ SameMemory s t)

/-- O50. A walk of a saggar’s tables gives what its leaves say, and the caches keep their bounds. Rests on R310, R311, R313. -/
def Obligations.TranslationWalks : Prop :=
  ∀ (s : State) (k : Nat) (va : DWord),
    (LeavesOk (s.saggar k).maps → walkTables s k va = (translate s k va).map fun e => (e.1, e.2.write, e.2.exec)) ∧
    (∀ l idx m, LeavesOk (s.saggar k).maps → Tab.find (s.saggar k).maps (idx * 2 ^ levelShift l) = some m → l < 3 → m.size = 2 ^ levelShift l →
      let e := (tableWord (tableDie s k) k (s.saggar k).maps l idx).toNat
      bits e 0 1 = 1 ∧ bits e 1 1 = 1 ∧ bits e 3 1 = m.write.toNat ∧ bits e 4 1 = m.exec.toNat ∧ bits e 8 40 * 256 = m.pa ∧ bits e 48 16 = m.home) ∧
    (∀ w layer op base m, w < 192 → mappingOf (s.saggar k).maps va.toNat = some (base, m) →
      let x : Xlat := { saggar := k, base }
      let t := wheelXlat s w k layer op va
      SameMemory s t ∧ (t.wheel w).mem.tlb.head? = some x ∧ (t.wheel w).mem.tlb.length ≤ 64 ∧
      (x ∈ (s.wheel w).mem.tlb → t.ms = s.ms) ∧
      (x ∉ (s.wheel w).mem.tlb → ∃ l, Tab.find t.ms.dieTlb (512 * (w / 96) + base / 65536 % 512) = some l ∧ l.head? = some x ∧ l.length ≤ 8)) ∧
    (∀ base m, mappingOf (s.saggar k).maps va.toNat = some (base, m) →
      (hubXlat s k va).ms.hubTlb.head? = some { saggar := k, base } ∧ (hubXlat s k va).ms.hubTlb.length ≤ 8192)

/-- O51. Flows enable, take edges, meet deadlines and emit; reservations open and close. Rests on R428, R429, R430, R434, R435, R437, R438, R441, R442, R444, R448, R450. -/
def Obligations.FlowsAndWindows : Prop :=
  ∀ (s : State) (f : Nat), f < 8 → s.serving = true → s.frozen = false →
    let x := s.flow f
    let r := flowRate s f
    (hasFrames s = true →
      (x.st = 0 → Goes (exec (.frmFlowEnable f) s) fun t => SameMemory s t ∧ (t.flow f).enable = true ∧
        (t.flow f).st = (if enableError s f = 0 then 1 else 0) ∧ (t.flow f).enErr = enableError s f ∧
        (enableError s f = 0 → (t.flow f).next = 0 ∧ (t.flow f).edges = [] ∧ (t.flow f).m = none ∧ (t.flow f).seq = 0)) ∧
      (x.st = 2 → exec (.frmFlowEnable f) s = .next (s.setFlow f { s.flow f with enable := true, st := 3 })) ∧
      (exec (.frmFlowDisable f) s = .next (s.setFlow f { x with enable := false, st := if x.st = 1 ∨ x.st = 3 then 2 else x.st }))) ∧
    (x.st = 2 → x.emission = none → (∀ q ∈ resOf s f, (s.resv q).st = 0) →
      Goes (exec (.flowDrainEnd f) s) fun t => t.flow f = { x with st := 0, edges := [], flywheel := false } ∧ SameMemory s t ∧
        ∀ q ∈ resOf s f, (t.resv q).due = []) ∧
    (x.st = 1 →
      (timeSource s ≠ 2 → pointReached s r x.j = true →
        let g := pointTick s r x.j
        (if x.started then atLeastP r (g - x.edgeGts.toNat) 1 2 = true else atLeastP r (g - x.since) 1 1 = true) →
        Goes (exec (.frameEdge f) s) fun t => SameMemory s t ∧
          t.flow f = { x with
            j := x.j + 1, frame := BitVec.ofNat 64 x.next.toNat, edgeGts := BitVec.ofNat 64 g, next := x.next + 1, started := true
            edges := x.edges ++ [{ n := x.next, gts := g, d := g + flowOffset s f - flowGuard s f, e := g + flowOffset s f
                                   rtp := BitVec.ofNat 32 (x.j * r.2 * 90000 / r.1) }] }) ∧
      (timeSource s ≠ 2 → pointReached s r x.j = true → x.started = true → atLeastP r (pointTick s r x.j - x.edgeGts.toNat) 1 2 = false →
        Goes (exec (.frameEdge f) s) fun t => SameMemory s t ∧ t.flow f = { x with j := x.j + 1 }) ∧
      (timeSource s = 2 → s.time.gen.present = false → s.time.gen.period ≠ 0 → x.started = true →
        max x.edgeGts.toNat x.usedGen + s.time.gen.period.toNat ≤ s.gts →
        Goes (exec (.frameEdge f) s) fun t => SameMemory s t ∧ (t.flow f).flywheel = true ∧
          (t.flow f).usedGen = max x.edgeGts.toNat x.usedGen + s.time.gen.period.toNat) ∧
      (∀ b e, x.bind = some b → x.edges.find? (fun e => !e.checked) = some e → e.d ≤ s.gts → x.emission = none → stillEmitting s f x e = false →
        let v := e.ready.getD (readyWord s b)
        (reached v e.n = true →
          Goes (exec (.completionDeadline f) s) fun t => (t.flow f).m = some e.n ∧ (t.flow f).consec = 0 ∧ (t.flow f).missed = x.missed ∧
            (∀ q ∈ (t.flow f).edges, q.n = e.n → q.checked = true ∧ q.frame = some e.n) ∧
            (∀ pa mp, translate s b.saggar b.free = some (pa, mp) → mp.write = true → poisoned s pa = false →
              BytesBecome s t pa (leBytes 4 (sigValue 1 (memWord s pa) (e.n - 1)).toNat))) ∧
        (∀ m, reached v e.n = false → x.m = some m → v = m →
          Goes (exec (.completionDeadline f) s) fun t => (t.flow f).m = some m ∧ (t.flow f).consec = min 0xFF (x.consec + 1) ∧
            (t.flow f).missed = x.missed + 1 ∧ SameMemory s t)) ∧
      (∀ b e, x.bind = some b → x.edges.find? (fun e => !e.checked) = some e → e.d ≤ s.gts → stillEmitting s f x e = true →
        exec (.completionDeadline f) s = .next (s.setFlow f { x with
          edges := x.edges.map fun q => if q.n = e.n then { q with checked := true, skip := true } else q })) ∧
      (∀ b e, x.bind = some b → x.edges.head? = some e → e.e ≤ s.gts → e.checked = true →
        (e.skip = false → e.frame = none → exec (.emissionStart f) s = .next (s.setFlow f { x with edges := x.edges.drop 1 })) ∧
        (∀ j, e.skip = false → e.frame = some j → x.emission = none → leaveKnown s 5 (536 + f) 0 ≠ 0 →
          exec (.emissionStart f) s = .next (s.setFlow f { x with
            edges := x.edges.drop 1, emission := some { n := e.n, frame := j, rtp := e.rtp, e := e.e }
            emitted := if j = e.n then x.emitted + 1 else x.emitted })) ∧
        (e.skip = true →
          Goes (exec (.emissionStart f) s) fun t => SameMemory s t ∧
            t.flow f = { x with edges := x.edges.drop 1, skipped := x.skipped + 1 }))) ∧
    (∀ b e, x.bind = some b → x.emission = some e →
      (e.k < flowPackets s f → packetTick s f e.e e.k ≤ s.gts → lineFree s f b e = true → Goes (exec (.framePacket f) s) fun t => SameMemory s t ∧
        (∃ c, t.flow f = { x with seq := x.seq + 1, emission := some { e with k := e.k + 1, poisoned := false, carry := c } }) ∧
        (portUp (s.port (24 + flowPort s f)) = true → ∃ l : List Byte, l.length = 1200 ∧ t.outbox.head? = some (.ethernet (flowPort s f)
          (videoHeader s f e.k (flowPackets s f) (e.k / (flowPicture s f).2.2) (480 * (e.k % (flowPicture s f).2.2)) x.seq e.rtp ++ l)))) ∧
      (flowPackets s f ≤ e.k → emissionEndTick s f e.e ≤ s.gts → x.freeDue = none →
        Goes (exec (.emissionEnd f) s) fun t => SameMemory s t ∧ t.flow f = { x with emission := none }) ∧
      (∀ j pa mp, flowPackets s f ≤ e.k → emissionEndTick s f e.e ≤ s.gts → x.freeDue = some j → settled s b.saggar b.free 4 = true → translate s b.saggar b.free = some (pa, mp) →
        mp.write = true → poisoned s pa = false →
        Goes (exec (.emissionEnd f) s) fun t => t.flow f = { x with emission := none, freeDue := none } ∧
          BytesBecome s t pa (leBytes 4 (sigValue 1 (memWord s pa) (j - 1)).toNat))) ∧
    (∀ q w, q < 16 → resFlow s q = f → nextWindow s q = some w → x.st = 1 →
      (w.s ≤ s.gts + 8000 → Goes (exec (.reservationWake q) s) fun t => t = { s with wheels := t.wheels } ∧ ∀ i < 192,
        (t.wheel i).ctl.waking = ((s.wheel i).ctl.waking ||
          ((resMask s q).getLsbD i && s.present i && (s.wheel i).ctl.gated && (s.wheel i).ctl.state == .on))) ∧
      (∀ b, x.bind = some b → w.s ≤ s.gts → s.gts < w.e → (s.resv q).st = 0 →
        Goes (exec (.reservationStart q) s) fun t => SameMemory s t ∧ (t.resv q).st = 1 ∧ (t.resv q).cur = some w ∧
          (t.resv q).due = (s.resv q).due.drop 1 ∧ ∀ i < 192, (resMask s q).getLsbD i = true → s.present i = true →
            (s.wheel i).ctl.state = .on → ((s.wheel i).ctl.gated = false ∨ (s.wheel i).ctl.waking = true) → (s.wheel i).ctl.resv = none →
            (t.wheel i).ctl.resv = some q ∧ (t.wheel i).work.deque = [] ∧
              (t.wheel i).work.kept = (s.wheel i).work.kept ++ (s.wheel i).work.deque)) ∧
    (∀ q w, q < 16 → (s.resv q).cur = some w → (s.resv q).st ≠ 0 →
      (w.e ≤ s.gts → (∀ i ∈ heldWheels s q, deadlineCrews s i = 0) → exec (.reservationEnd q) s = .next (kept s (leaveWindow s q 1))) ∧
      (w.e ≤ s.gts → (∃ i ∈ heldWheels s q, deadlineCrews s i ≠ 0) → (s.resv q).st ≠ 3 →
        Goes (exec (.reservationEnd q) s) fun t => (t.resv q).overruns = (s.resv q).overruns + 1) ∧
      (∀ b, (s.flow (resFlow s q)).bind = some b → resRelease s q = true → reached (readyWord s b) w.n = true →
        exec (.releaseOnReady q) s = .next (kept s (leaveWindow s q 0))))

/-- O52. Spanor ports accept, acknowledge, replay, retrain, train and drain; routes swap; collective packets are heard. Rests on R457, R458, R459, R462, R463, R464, R469, R470, R492, R485. -/
def Obligations.LinkEvents : Prop :=
  ∀ (s : State) (n : Nat), n < 24 →
    let x := s.port n
    (∀ f : Flit, portUp x = true →
      (f.crcOk = false → x.nakSent = false → exec (.flitReceive n f) s =
        .next ((s.setPort n { s.port n with crcErr := x.crcErr + 1, nakSent := true }).emit (.flit n { type := 0, ackSeq := x.rxSeq, nak := true }))) ∧
      (∀ p, f.crcOk = true → f.type = 1 → f.nak = false → f.mark = none → f.pkts = [p] → p.dest = s.link.fabricId → s.frozen = false →
        (f.seq + 4096 - x.rxSeq) % 4096 = 1 →
        Goes (exec (.flitReceive n f) s) fun t => SameMemory s t ∧ Tab.find t.link.inbound s.nextId = some (n, p) ∧
          (t.port n).rxSeq = f.seq ∧ (t.port n).rx = x.rx + 1 ∧ (t.port n).nakSent = false ∧
          (t.port n).fecCorr = x.fecCorr + BitVec.ofNat 64 f.corrected ∧ t.outbox.head? = some (.flit n { type := 0, ackSeq := f.seq, creditClass := p.hop, credits := 1 }))) ∧
    (x.st = .on → x.retraining = false → (∀ m, x.markAt = some m → m + 2 ^ 20 ≤ s.watch) → exec (.linkTimeMark n) s =
      .next ((s.setPort n { x with markAt := some s.watch }).emit (.flit n { type := 2, ackSeq := x.rxSeq, mark := some s.time.gts }))) ∧
    (portUp x = true → x.kept ≠ [] → x.lastAck + 2000 ≤ s.watch → x.reps < 15 →
      Goes (exec (.replayTimeout n) s) fun t => SameMemory s t ∧
        t.port n = { x with replays := x.replays + BitVec.ofNat 64 x.kept.length, reps := x.reps + 1, lastAck := s.watch } ∧
        t.outbox = (x.kept.map fun k => Msg.flit n { seq := k.seq, ackSeq := x.rxSeq, pkts := k.pkts }).reverse ++ s.outbox) ∧
    (portUp x = true → x.lastGood + 40000 ≤ s.watch → (x.window ≠ s.gts / 2 ^ 30 ∨ x.retrains < 4) →
      Goes (exec (.noCorrectableFlitTimeout n) s) fun t => SameMemory s t ∧ (t.port n).retraining = true ∧ (t.port n).since = s.watch) ∧
    (portUp x = true → x.lastGood + 40000 ≤ s.watch → x.window = s.gts / 2 ^ 30 → 4 ≤ x.retrains →
      Goes (exec (.noCorrectableFlitTimeout n) s) fun t => (t.port n).st = .fenced ∧ (t.port n).failCause = 2) ∧
    (x.retraining = true →
      (Goes (exec (.retrainEnd n true) s) fun t => SameMemory s t ∧ (t.port n).retraining = false ∧ (t.port n).st = x.st) ∧
      (Goes (exec (.retrainEnd n false) s) fun t => (t.port n).st = .fenced ∧ (t.port n).failCause = 2)) ∧
    (x.st = .off → x.asked = false → permitOf s 3 (768 + n) 0 = none →
      Goes (exec (.lnkPortEnable n) s) fun t => SameMemory s t ∧ t.port n = { x with enable := true, asked := true } ∧
        ∃ id p, (id, p) ∈ t.rve.permits ∧ p.kind = 3 ∧ p.unit = 768 + n ∧ p.pend = 1 ∧ p.held = 0) ∧
    (x.st = .draining → Goes (exec (.lnkPortEnable n) s) fun t => SameMemory s t ∧ t.port n = { x with enable := true, st := .pendingOn }) ∧
    (x.st = .on → Goes (exec (.lnkPortDisable n) s) fun t => SameMemory s t ∧ t.port n = { x with enable := false, since := s.watch, st := .draining }) ∧
    (x.st = .fenced → exec (.lnkPortEnable n) s = .next s ∧ exec (.lnkPortDisable n) s = .next s) ∧
    (∀ peer flight, x.st = .training →
      (Goes (exec (.portTrainingEnd n true peer flight) s) fun t => SameMemory s t ∧ t.port n = { x with
        st := .on, peerId := bits peer.toNat 16 16, peerPort := bits peer.toNat 0 5, flight := flight.toNat, nextSeq := 1, rxSeq := 0
        nakSent := false, reps := 0, lastAck := s.watch, lastGood := s.watch, credits := (List.range 4).map (Config.linkCredits n) }) ∧
      (Goes (exec (.portTrainingEnd n false peer flight) s) fun t => (t.port n).st = .fenced ∧ (t.port n).failCause = 1)) ∧
    (x.st = .draining → (x.kept = [] ∨ x.since + 40000 ≤ s.watch) →
      Goes (exec (.portDrainEnd n) s) fun t => (t.port n).st = .off ∧ (t.port n).kept = [] ∧ (t.port n).txq = []) ∧
    (∀ tick, s.link.swap = some tick → tick ≤ s.gts → Goes (exec .routeSwapTick s) fun t => SameMemory s t ∧
      t.link = { s.link with act := 1 - s.link.act, swap := none }) ∧
    (∀ id q p, Tab.find s.link.inbound id = some (q, p) → memRuns s = true →
      (p.kind = 4 → p.op ≤ 1 → exec (.collectiveDataReceive id) s = .next (kept s (hearData (dropInbound s id) p))) ∧
      (p.kind = 5 → p.count ≤ 1 → exec (.collectiveControlReceive id) s = .next (kept s (hearCheck (dropInbound s id) p))) ∧
      (p.kind = 5 → p.count = 2 → ∀ g, s.guild? p.guild = some g → (s.saggar g.saggar).sec.lost = [] →
        Goes (exec (.collectiveControlReceive id) s) fun t => (rankOf g p.src, p.v) ∈ (t.saggar g.saggar).sec.reported ∧
          Tab.find t.link.inbound id = none ∧ SameMemory s t))

/-- O53. Ethernet connections and cartridges follow their events. Rests on R473, R475, R476, R477, R478, R479. -/
def Obligations.EthernetAndCartridges : Prop :=
  ∀ s : State,
    (∀ (n : Nat) (d : Datagram), 24 ≤ n → n < 32 → portUp (s.port n) = true →
      let c := connOf s d.module
      (d.fcsOk = false → exec (.ethDatagramReceive n d) s = .next (s.setPort n { s.port n with crcErr := (s.port n).crcErr + 1 })) ∧
      (d.fcsOk = true → d.ce = false → d.pkt = none → Goes (exec (.ethDatagramReceive n d) s) fun t => SameMemory s t ∧
        (t.port n).rx = (s.port n).rx + 1 ∧
        (connOf t d.module).rate = (if d.notice then max 1 (c.rate / 2) else c.rate) ∧ ((s.port n).txq = [] → t.port n = { s.port n with rx := (s.port n).rx + 1 } ∧
          ∀ k ∈ (connOf t d.module).kept, k ∈ c.kept ∧ d.ack < k.seq)) ∧
      (∀ p, d.fcsOk = true → d.pkt = some p → c.stash = [] → d.seq = c.rxSeq + 1 → s.frozen = false → p.dest = s.link.fabricId →
        Goes (exec (.ethDatagramReceive n d) s) fun t => SameMemory s t ∧ Tab.find t.link.inbound s.nextId = some (n, p) ∧
          (connOf t d.module).rxSeq = d.seq)) ∧
    (∀ m, m < 65536 →
      let c := connOf s m
      (∀ k, c.kept.find? (fun k => decide (k.at_ + resendWait k.sends ≤ s.watch)) = some k →
        (k.sends < 8 → Goes (exec (.ethResendTimeout m) s) fun t => SameMemory s t ∧
          (connOf t m).kept = c.kept.map fun q => if q.seq = k.seq then { q with sends := q.sends + 1, at_ := s.watch } else q) ∧
        (8 ≤ k.sends → Goes (exec (.ethResendTimeout m) s) fun t => connOf t m = { ip := c.ip, rxSeq := c.rxSeq, nextSeq := c.nextSeq })) ∧
      (∀ q, c.noticed = some q → q + 20000 ≤ s.watch →
        (Goes (exec (.congestionRaise m) s) fun t => SameMemory s t ∧ (connOf t m).rate = min 65536 (c.rate + 4096) ∧
          (connOf t m).noticed = some s.watch) ∧
        ((∀ n, ethPort s m = some n → (s.port n).txq = []) → exec (.congestionRaise m) s =
          .next (setConn s m { c with rate := min 65536 (c.rate + 4096), noticed := some s.watch })))) ∧
    (∀ n, n < 8 →
      let c := s.ctg n
      (∀ g : CtgPages, hostUp s = true → c.present = false → g.answers = true → coneOk g.cone = true → c.held = [] →
        Goes (exec (.ctgInsert n g) s) fun t => SameMemory s t ∧ (t.ctg n).present = true ∧ (t.ctg n).serial = g.serial ∧
          (t.ctg n).n = (lf g.cone 4 4 + 1) % 2 ^ 32 ∧ (t.ctg n).b = lf g.cone 8 8 ∧ (t.ctg n).th = lf g.cone 16 8 ∧ (t.ctg n).state = 0) ∧
      (hostUp s = true → c.present = true → portUp (s.port (24 + n)) = false →
        Goes (exec (.ctgRemove n) s) fun t => SameMemory s t ∧ t.ctg n = { c with present := false, ready := false, fault := false, app := false }) ∧
      (hostUp s = true → c.present = true → portUp (s.port (24 + n)) = true →
        Goes (exec (.ctgRemove n) s) fun t => (t.port (24 + n)).st = .off ∧ (t.port (24 + n)).failCause = 3) ∧
      (∀ st code, hostUp s = true → c.present = true → down s 9 n = false → (s.port (24 + n)).st ≠ .fenced →
        Goes (exec (.cmisFault n st code) s) fun t => (t.ctg n).fault = true ∧ t.fen.ctgs.getLsbD n = true ∧ (t.port (24 + n)).st = .fenced ∧
          (t.port (24 + n)).failCause = 4) ∧
      (∀ bias heat, hostUp s = true → s.frozen = false → c.present = true → s.windowEnds 400000000 c.win = true →
        Goes (exec (.coneWindow n bias heat) s) fun t => SameMemory s t ∧
        (t.ctg n).windows = c.windows + 1 ∧
        ((s.port (24 + n)).st ≠ .on → (t.ctg n).b = c.b % 2 ^ 64) ∧
        ((t.ctg n).th = (c.th + heatRise heat) % 2 ^ 64 ∨ (t.ctg n).th = (c.th + heatRise heat + 1) % 2 ^ 64)) ∧
      (hostUp s = true → c.present = true → c.wrote + 3600 ≤ c.windows → Goes (exec (.coneWrite n) s) fun t => SameMemory s t ∧
        (t.ctg n).writes = (c.writes + 1) % 65536 ∧ t.outbox = .cartridge n 3 (t.ctg n).held :: s.outbox ∧
        (t.ctg n).held = coneBytes { c with writes := (c.writes + 1) % 65536 }) ∧
      (hostUp s = true → c.present = true → (c.hours.head?.map Prod.fst).getD 0 + 3600 ≤ c.windows → bits s.img.ctgLim1.toNat 16 16 ≤ c.n →
        Goes (exec (.wearPrediction n) s) fun t => SameMemory s t ∧ (t.ctg n).wear = 0xFFFF ∧ (t.ctg n).remain = 0 ∧ (t.ctg n).state = 2))

/-- O54. The reeve’s events: requests, answers, grants, renewals, power and thermal windows. Rests on R494, R495, R497, R498, R499, R500, R502, R505, R506, R507. -/
def Obligations.ReeveEvents : Prop :=
  ∀ s : State, s.frozen = false →
    (∀ id p, s.serving = true → Tab.find s.rve.permits id = some p →
      (p.pend ≠ 0 → p.arrived = none → Goes (exec (.leaveRequest id) s) fun t => t = { s with rve := t.rve } ∧
        Tab.find t.rve.permits id = some { p with arrived := some s.gts }) ∧
      (p.held = 0 → p.pend ≠ 0 → p.arrived ≠ none → p.waited = false → Goes (exec (.leaveAnswer id) s) fun t => SameMemory s t ∧
        Tab.find t.rve.permits id = some { p with waited := true } ∧ t.rve.waits = s.rve.waits + 1) ∧
      (p.held ≠ 0 → Goes (exec (.leaveAnswer id) s) fun t => SameMemory s t ∧
        Tab.find t.rve.permits id = some { p with known := if p.held < p.full then 1 else 2 } ∧
        ((p.kind = 3 ∨ p.kind = 4) → 768 ≤ p.unit → (s.port (p.unit - 768)).asked = true → (t.port (p.unit - 768)).st = .training)) ∧
      (p.held ≠ 0 → p.kind ≤ 2 → p.releasing = false → p.renew = none → p.since + rveTerm s ≤ s.watch →
        Goes (exec (.permitRenewal id) s) fun t => t = { s with rve := t.rve } ∧
          (Tab.find t.rve.permits id).bind Permit.renew = some s.gts ∧ (Tab.find t.rve.permits id).map Permit.held = some p.held)) ∧
    (s.serving = true → s.rve.permits = [] → s.rve.clamp = false → s.rve.cycle ≠ s.watch / 8 + 1 → Goes (exec .grantCycle s) fun t => t = { s with rve := t.rve } ∧
      t.rve = { s.rve with rise := min 3200 (s.rve.rise + 8 * rveSlew s), fall := min 3200 (s.rve.fall + 8 * rveSlew s), cycle := s.watch / 8 + 1 }) ∧
    (∀ id p, s.serving = true → s.rve.clamp = false → s.rve.permits = [(id, p)] → p.kind = 5 → p.held = 0 → p.pend = 1 → p.arrived ≠ none →
      p.renew = none → p.releasing = false → 0 < p.full → s.rve.cycle ≠ s.watch / 8 + 1 →
      Goes (exec .grantCycle s) fun t => SameMemory s t ∧ (Tab.find t.rve.permits id).map Permit.held = some p.full) ∧
    (∀ w id p since, s.present w = true → s.serving = true → permitOf s 0 w 0 = some (id, p) → (s.wheel w).eng.mxq = [] → p.releasing = false →
      p.held ≠ 0 → (s.wheel w).eng.lingerSince = some since → since + rveLinger s ≤ s.watch →
      exec (.lingerExpiry w) s = .next (kept s (giveBack s fun p => p.kind == 0 && p.unit == w))) ∧
    (∀ m mv : Nat, s.time.locked = true → s.watch % 800 = 0 → s.rve.powerWin ≠ s.watch →
      Goes (exec (.powerWindow m mv) s) fun t => SameMemory s t ∧ t.rve.m = m % 65536 ∧ t.rve.vin = mv % 65536 ∧ t.rve.permits = s.rve.permits ∧
        (m ≤ 6600 → s.rve.clamp = false → t = { s with rve := t.rve } ∧ t.rve.clamp = false ∧ t.rve.ceilTicks = s.rve.ceilTicks) ∧
        (6600 < m → t.rve.ceilTicks = s.rve.ceilTicks + 800) ∧
        (6600 < m → s.serving = true → s.rve.clamp = false → t.rve.clamp = true ∧ t.rve.clamps = s.rve.clamps + 1 ∧
          t.rve.clampH = heldAll s / 100 ∧ t.rve.clampTaken = 0) ∧
        (s.serving = true → s.rve.clamp = true → m ≤ s.rve.bEff → t.rve.clamp = false)) ∧
    (∀ t0 t1 hub c : Nat, s.serving = true → s.rve.thermWin ≠ s.watch / 400000 + 1 →
      let hot := (hottestDie t0 t1 hub).2
      hot = max t0 (max t1 hub) ∧
      (hot + 3 ≤ rveThrottleT s → hot < 110 → s.rve.bEff < rveBudget s → Goes (exec (.thermalWindow t0 t1 hub c) s) fun t =>
        SameMemory s t ∧ t.rve.bEff = min (rveBudget s) (s.rve.bEff + 100) ∧ t.rve.throttle = decide (t.rve.bEff < rveBudget s)) ∧
      (rveThrottleT s ≤ hot → hot < 110 → Goes (exec (.thermalWindow t0 t1 hub c) s) fun t => SameMemory s t ∧
        t.rve.bEff = max (s.rve.bEff - 100) (min (rveBase s + 8 * rveEmit s + rveDlRes s) s.rve.bEff)) ∧
      (110 ≤ hot → Goes (exec (.thermalWindow t0 t1 hub c) s) fun t => t.hub.state = .failed ∧ t.hub.cause = 7)) ∧
    (∀ d r : Nat, d < 3 → s.serving = true → Goes (exec (.thermalTrip d r) s) fun t => t.hub.state = .failed ∧ t.hub.cause = 7)

/-- O55. The module powers up, loads, trains, tests itself, fails, resets and powers down by its rules. Rests on R513, R514, R515, R516, R517, R518, R520, R522, R535, R652, R653, R657. -/
def Obligations.PowerAndStart : Prop :=
  ∀ s : State,
    (s.hub.state = .off → Goes (exec .auxPowerOn s) fun t => t.hub.state = (if s.hub.pwrGood then .powering else .aux) ∧ t.time.locked = false ∧
      SameMemory t (cleared s)) ∧
    (s.hub.state ≠ .off → s.hub.flashJobs = [] → Goes (exec .auxPowerLoss s) fun t => t.hub.state = .off ∧ t.flash = s.flash ∧ t.time.locked = false ∧
      t.fen.fails = s.fen.fails ∧ t.front.saggars = []) ∧
    (s.hub.pwrGood = false → Goes (exec .pwrGoodAssert s) fun t => t.hub.pwrGood = true ∧
      t.hub.state = (if s.hub.state = .aux then .powering else s.hub.state)) ∧
    (s.hub.pwrGood = true → s.serving = true → Goes (exec .pwrGoodDeassert s) fun t => t.hub.pwrGood = false ∧ t.hub.powerDown = true ∧
      t.front.saggars = [] ∧ t.front.streams = [] ∧ ∀ e ∈ t.rve.permits, e.2.releasing = true ∧ 0 < e.2.held) ∧
    (s.hub.powerDown = true → s.rve.permits = [] → Goes (exec .powerDownEnd s) fun t =>
      t.hub.state = (if s.hub.pwrGood then .powering else .aux) ∧ t.hub.powerDown = false) ∧
    (∀ mv : Nat, s.serving = true → s.hub.pwrGood = true → mv < 46000 ∨ 58000 < mv →
      Goes (exec (.mainInputFault mv) s) fun t => t.hub.state = .failed ∧ t.hub.cause = 2 ∧ t.time.locked = false ∧
        t.fen.fails.head? = some (failRecord s 2 12 0 0xC (leBytes 4 mv))) ∧
    (s.hub.pwrGood = true → s.hub.resetHeld = false → s.serving = true → s.hub.flashJobs = [] →
      Goes (exec .modResetAssert s) fun t => t.hub.resetHeld = true ∧ t.hub.halted = true ∧ t.hub.startKind = 1 ∧ t.front.saggars = []) ∧
    (∀ p : Nat, p < 8 → s.hub.resetHeld = true → s.hub.halted = true →
      (s.hub.state ≠ .failed → Goes (exec (.modResetRelease p) s) fun t => t.hub.state = .loading ∧ t.hub.strap = p ∧ t.hub.halted = false ∧
        t.hub.cause = 0 ∧ (t.key 4096).st = .active) ∧
      (s.hub.state = .failed → Goes (exec (.modResetRelease p) s) fun t => t.hub.state = .powering ∧ t.hub.resetHeld = false)) ∧
    (∀ p : Nat, p < 8 → s.hub.state = .powering → s.awake = true →
      (s.time.locked = true → s.hub.resetHeld = false →
        Goes (exec (.poweringEnd true p) s) fun t => t.hub.state = .loading ∧ t.hub.strap = p ∧ t.hub.resultA = 0xFF ∧ t.hub.resultB = 0xFF) ∧
      (Goes (exec (.poweringEnd false p) s) fun t => t.hub.state = .failed ∧ t.hub.cause = 2) ∧
      (s.time.locked = false → Goes (exec (.poweringEnd true p) s) fun t => t.hub.state = .failed ∧ t.hub.cause = 3)) ∧
    (∀ f : LoadFacts, s.hub.state = .loading → s.awake = true →
      (∀ n u, f.flashOk = true → chooseSlot s f (slotOrder (dirNow s)) = (some n, u) → (dirNow s).tryValid = false →
        Goes (exec (.loadingEnd f) s) fun t => t.hub.state = .training ∧ t.hub.inForce = n ∧ t.hub.measured = true ∧ t.img = imageOf u n ∧
          t.hub.digest = (if n = 0 then f.a else f.b).digest ∧ t.hub.svn = lf (flashBytes s (slotBase n) 2048) 12 4) ∧
      (f.flashOk = true → (chooseSlot s f (slotOrder (dirNow s))).1 = none →
        Goes (exec (.loadingEnd f) s) fun t => t.hub.state = .failed ∧ t.hub.cause = 1) ∧
      (f.flashOk = false → Goes (exec (.loadingEnd f) s) fun t => t.hub.state = .failed ∧ t.hub.cause = 8)) ∧
    (s.awake = true → s.hub.state = .training → Goes (exec (.trainingLinksEnd []) s) fun t => t.hub.state = .selfTest ∧
      t.hub.memtest = s.img.memtest ∧ SameMemory s t ∧
      ∀ n, hasGrn s n = true → (s.grn n).state = .off → (s.grn n).enable = true → (t.grn n).state = .on ∧ (t.grn n).linkUp = true) ∧
    (s.awake = true → s.hub.state = .selfTest → s.hub.fromTry = false → Goes (exec (.selfTestEnd []) s) fun t =>
      t.hub.state = (if s.fen.dies = 0 then .ready else .fencedHalf) ∧ t.rve.rise = 3200 ∧ t.rve.fall = 3200 ∧ t.rve.bEff = rveBudget s ∧
      t.link.t0 = s.img.routes ∧ t.link.t1 = s.img.routes ∧ SameMemory s t) ∧
    (starting s = true → s.hub.entered + stateBound s ≤ s.watch → Goes (exec .stateTimeout s) fun t => t.hub.state = .failed ∧ t.hub.cause = 6)

/-- O56. Tallies, samples, the ledger, the global stop, securing and snapshots go as their rules say. Rests on R575, R577, R584, R589, R600, R603, R604, R607, R612, R613, R614, R617. -/
def Obligations.DebugAndSecuringEvents : Prop :=
  ∀ s : State,
    (∀ w i v, hasTally s w i = true →
      let x := tallyOf s w i
      (hostUp s = true → exec (.tallyWrite w i v) s = .next (kept s (setTally s w i { x with value := v }))) ∧
      (s.serving = true → s.frozen = false → x.cfg.getLsbD 31 = true → Goes (exec (.tallyWrap w i v) s) fun t => SameMemory s t ∧
        tallyOf t w i = { x with value := v, cfg := x.cfg ||| (1#32 <<< 29) })) ∧
    (s.serving = true → s.frozen = false → s.dbg.sampleOn = true → s.watch % 2 ^ s.dbg.interval = 0 → s.dbg.sampled ≠ s.watch → s.wheels = [] → s.dbg.queue = [] → ∀ i x,
      s.dbg.gtallies = [(i, x)] → x.cfg.getLsbD 31 = true → x.cfg.getLsbD 30 = true →
      Goes (exec .sampleWindowEnd s) fun t => SameMemory s t ∧ ∃ r, t.dbg.queue = [r] ∧ r.type = 0xE0 ∧ r.payload = tallyPayload 192 i x ∧
        r.gts = BitVec.ofNat 64 (s.gts - 1)) ∧
    (s.serving = true → s.front.saggars = [] → s.dbg.gtallies = [] → ∀ r, s.dbg.queue = [r] → r.mod = true → r.dests = [] →
      Goes (exec .ledgerDrain s) fun t => SameMemory s t ∧ t.dbg.queue = [] ∧ t.dbg.mledCount = s.dbg.mledCount + 1 ∧
        Tab.get 0 t.dbg.mled (s.dbg.mledCount.toNat % 524288) = BitVec.ofNat 256 (leNat (recBytes r))) ∧
    (hostUp s = true →
      (s.serving = true → s.dbg.stop < 2 → s.gts + 256 ≤ s.dbg.t.toNat → (∀ f, f < 8 → (s.flow f).st = 0) →
        exec (.dbgStopArm false) s = .next { s with dbg := { s.dbg with byMedia := false, stop := 1, armError := false } }) ∧
      (s.dbg.t.toNat < s.gts + 256 → exec (.dbgStopArm false) s = .next { s with dbg := { s.dbg with byMedia := false, armError := true } }) ∧
      (s.dbg.stop = 1 → exec .dbgStopCancel s = .next { s with dbg := { s.dbg with stop := 0 } }) ∧
      (s.dbg.stop = 3 → s.gts + 256 ≤ s.dbg.u.toNat →
        exec .dbgStopResume s = .next { s with dbg := { s.dbg with stop := 4, armError := false } })) ∧
    (s.serving = true →
      (s.dbg.stop = 1 → s.dbg.t.toNat ≤ s.gts → Goes (exec .globalStopTick s) fun t => SameMemory s t ∧ t.dbg.stop = 2 ∧ t.frozen = true ∧
        t = { s with dbg := t.dbg, front := t.front }) ∧
      (s.dbg.stop = 2 → stopQuiet s = true → Goes (exec .stopDrainEnd s) fun t => SameMemory s t ∧ t.dbg.stop = 3) ∧
      (s.dbg.stop = 4 → s.dbg.u.toNat ≤ s.gts → (∀ n, n < 32 → (s.port n).held = []) →
        Goes (exec .globalResumeTick s) fun t => SameMemory s t ∧ t.dbg.stop = 0 ∧ t.frozen = false)) ∧
    (memRuns s = true →
      (∀ k gid g p, k < 4096 → secGuildOf s k = some (gid, g) → (s.saggar k).sec.armed = some p → (s.saggar k).sec.lost = [] →
        (∀ q, q < g.n → (q, p) ∈ (s.saggar k).sec.reported) → (s.saggar k).sec.stallCmd = none → Goes (exec (.guildCommit k) s) fun t =>
          SameMemory s t ∧ (t.saggar k).sec.points = p :: (s.saggar k).sec.points.take 1 ∧ (t.saggar k).sec.armed = none ∧
          (t.saggar k).sec.state = 2) ∧
      (∀ id n p g, Tab.find s.link.inbound id = some (n, p) → p.kind = 6 → s.guild? p.guild = some g →
        (p.op = 0 → leaveKnown s 2 552 0 ≠ 0 → Goes (exec (.securingDataReceive id) s) fun t => Tab.find t.link.inbound id = none ∧ SameMemory s t ∧
          { rank := rankOf g p.src, step := p.v, va := p.addr.toNat, data := p.data } ∈ (t.saggar g.saggar).sec.journal) ∧
        (p.op = 2 → p.count ≤ (((s.saggar g.saggar).sec.journal).filter fun e => e.rank == rankOf g p.src && e.step == p.v).length →
          Goes (exec (.securingDataReceive id) s) fun t => (rankOf g p.src, p.v) ∈ (t.saggar g.saggar).sec.applied)) ∧
      (∀ k gid g j m, k < 4096 → secGuildOf s k = some (gid, g) → (s.saggar k).sec.restore = some j → j.manifest = some m → j.rebuilt = true →
        (∀ q, q < g.n → q ∈ (s.saggar k).sec.restored) → Goes (exec (.secureRestoreDone k) s) fun t => SameMemory s t ∧
          (t.saggar k).sec.state = 2 ∧ (t.saggar k).sec.restore = none ∧ (t.saggar k).sec.lost = [] ∧ (t.saggar k).step = m.point ∧
          t.front.restores = s.front.restores + 1) ∧
      (∀ k j, k < 4096 → s.frozen = false → (s.saggar k).sec.dunob = some j → (∀ e ∈ streamsOf s k, e.1 = j.stream ∨ allDone e.2 = true) →
        (s.saggar k).cfg.dunobSize / 2 < (1 + ((dunobPlan 1 (s.saggar k).sec.table).map fun e => e.2.2.1).sum) * mib →
        exec (.dunobSnapshotWritten k) s = .next (kept s (frontFault (modSec s k fun x => { x with dunob := none }) j.stream fLaunch 0xFFFFF 0xFFF))) ∧
      (∀ k j, k < 4096 → s.frozen = false → (s.saggar k).sec.dunob = some j → (∀ e ∈ streamsOf s k, e.1 = j.stream ∨ allDone e.2 = true) →
        (s.saggar k).sec.table = [] → 2 * mib ≤ (s.saggar k).cfg.dunobSize → (s.saggar k).cfg.secMode = 2 → (s.stream j.stream).saggar = k → Goes (exec (.dunobSnapshotWritten k) s) fun t =>
          (t.saggar k).step = (s.saggar k).step + 1 ∧ (t.saggar k).sec.dunob = none))

/-- O57. Mailbox commands of saggars, streams, memory, collectors, ledgers, tallies and watchpoints have their effects. Rests on R385, R396, R401, R404, R405, R406, R410, R425, R599, R637, R675, R676. -/
def Obligations.MailboxSaggarCommands : Prop :=
  ∀ (s : State) (fn n : Nat) (r : Req),
    let k := reqSag r
    let g := s.saggar k
    (∀ d, MbxBegins s fn n 0x10 r → reqData r ≠ 0 → r.noHost = false → r.data = some d → (s.saggar (df d 0 0 12)).st ≠ .draining →
      Answers (exec (.saggarCreate fn n) s) s (createSaggar s d).2 fn n (createSaggar s d).1 ∧
      (createRefusal s d = none → Goes (exec (.saggarCreate fn n) s) fun t => (t.saggar (df d 0 0 12)).st = .on ∧
        (t.saggar (df d 0 0 12)).cfg.fn = df d 2 0 8 ∧ (t.key (df d 0 0 12)).st = .active ∧ Over t fn n)) ∧
    (MbxBegins s fn n 0x11 r → g.st = .on → Goes (exec (.saggarDestroy fn n) s) fun t => (t.saggar k).st = .draining ∧ (t.saggar k).drainCause = 0 ∧
      (fn, n) ∈ (t.saggar k).waiters ∧ (t.key k).st = .erasing) ∧
    (MbxBegins s fn n 0x12 r → Answers (exec (.saggarQuery fn n) s) s s fn n stOk
      (leBytes 4 (sagStatus s k) ++ leBytes 4 g.step.toNat ++ leBytes 8 g.cfg.seed.toNat)) ∧
    (MbxBegins s fn n 0x13 r → Answers (exec (.scaleReset fn n) s) s (rewarmReset s k 2) fn n stOk) ∧
    (MbxBegins s fn n 0x18 r → streamInvalid r.body = false → (rf r 20 0 32 = 0xFFFFFFFF ∨ (s.stream (rf r 20 0 32)).st ≠ 3) →
      Answers (exec (.streamCreate fn n) s) s (createStream s r.body).2 fn n (createStream s r.body).1.1 (createStream s r.body).1.2) ∧
    (MbxBegins s fn n 0x19 r → rf r 24 0 8 = 0 → (s.stream (rf r 20 0 32)).st = 1 → (s.stream (rf r 20 0 32)).saggar = k →
      Goes (exec (.streamDestroy fn n) s) fun t => (t.stream (rf r 20 0 32)).st = 3 ∧
        (t.stream (rf r 20 0 32)).drainTail = (s.stream (rf r 20 0 32)).tail ∧ (fn, n) ∈ (t.stream (rf r 20 0 32)).waiters ∧ SameMemory s t) ∧
    (MbxBegins s fn n 0x1A r → (s.stream (rf r 20 0 32)).st = 2 → (s.stream (rf r 20 0 32)).saggar = k → (s.stream (rf r 20 0 32)).headWord = 0 →
      Goes (exec (.streamReset fn n) s) fun t => (t.stream (rf r 20 0 32)).st = 1 ∧
        (t.stream (rf r 20 0 32)).head = (s.stream (rf r 20 0 32)).tail ∧ (t.stream (rf r 20 0 32)).beginPos = (s.stream (rf r 20 0 32)).tail ∧
        (t.stream (rf r 20 0 32)).faultCode = 0 ∧ (t.stream (rf r 20 0 32)).layerOpen = false ∧ Over t fn n) ∧
    (MbxBegins s fn n 0x1B r → rf r 20 0 32 < 2 ^ 20 → (s.stream (rf r 20 0 32)).saggar = k → reqData r ≠ 0 → fnOpen s fn = true →
      Answers (exec (.streamQuery fn n) s) s (hostWrite s fn (reqData r) (ctxBytes (s.stream (rf r 20 0 32)))) fn n stOk) ∧
    (MbxBegins s fn n 0x20 r → assignRefusal s k (rf r 24 0 64) (rf r 32 0 64) = none → Goes (exec (.assignFrames fn n) s) fun t =>
      let fs := framesFrom (rf r 24 0 64) (rf r 32 0 64)
      Tab.find t.ms.zeroJobs s.nextId = some { saggar := k, frames := fs, fn, req := n } ∧ SameMemory s t ∧
        ∀ f, t.frame f = if f ∈ fs then { st := .zeroing, owner := k } else s.frame f) ∧
    (∀ st, MbxBegins s fn n 0x20 r → assignRefusal s k (rf r 24 0 64) (rf r 32 0 64) = some st → Answers (exec (.assignFrames fn n) s) s s fn n st) ∧
    (MbxBegins s fn n 0x21 r → mapRefusal s r (mapReq r) = none → Answers (exec (.map fn n) s) s (mapPages s (mapReq r)) fn n stOk ∧
      Goes (exec (.map fn n) s) fun t => ∀ i, i < (mapReq r).n → Tab.find (t.saggar k).maps ((mapReq r).va + i * (mapReq r).size) =
        some { size := (mapReq r).size, pa := (mapReq r).pa + i * (mapReq r).size, write := (mapReq r).write, exec := (mapReq r).exec
               home := if granaryBase ≤ (mapReq r).pa then (mapReq r).home else 0 }) ∧
    (∀ l, MbxBegins s fn n 0x22 r → rf r 40 0 64 ≠ 0 → leavesFrom g.maps (rf r 24 0 64) (rf r 40 0 64) (g.maps.length + 1) = some l →
      (∀ e ∈ l, ∀ b ∈ boundRanges s k, ¬(e.1 < b.1 + b.2 ∧ b.1 < e.1 + e.2.size)) → Goes (exec (.unmap fn n) s) fun t =>
        Tab.find t.ms.unmapJobs s.nextId = some { saggar := k, vas := l.map Prod.fst, fn, req := n } ∧ SameMemory s t ∧
        ∀ e ∈ l, (Tab.find (t.saggar k).maps e.1).map Mapping.going = some true) ∧
    (MbxBegins s fn n 0x23 r → releaseRefusal s k (rf r 24 0 64) (rf r 32 0 64) = none → Goes (exec (.releaseFrames fn n) s) fun t =>
      SameMemory s t ∧ Over t fn n ∧ ∀ f, t.frame f = if f ∈ framesFrom (rf r 24 0 64) (rf r 32 0 64) then {} else s.frame f) ∧
    (MbxBegins s fn n 0x28 r → collRefusal s r = none → Goes (exec (.collectorBind fn n) s) fun t => SameMemory s t ∧ Over t fn n ∧
      (t.coll (rf r 18 0 8)).bound = true ∧ (t.coll (rf r 18 0 8)).saggar = k ∧ (t.coll (rf r 18 0 8)).ring = rAddr r 24 ∧
      (t.coll (rf r 18 0 8)).count = 0) ∧
    (MbxBegins s fn n 0x29 r → rf r 18 0 8 < 64 → (s.coll (rf r 18 0 8)).bound = true → (s.coll (rf r 18 0 8)).saggar = k →
      (s.coll (rf r 18 0 8)).unbinding = none → Begun (exec (.collectorUnbind fn n) s) s (dropBehind (s.setColl (rf r 18 0 8) { s.coll (rf r 18 0 8) with
        held := [], offered := [], since := none, unbinding := some (fn, n) }) (rf r 18 0 8)) fn n) ∧
    (MbxBegins s fn n 0x2A r → ledgerRefusal s r = none → Goes (exec (.ledgerBind fn n) s) fun t => SameMemory s t ∧ Over t fn n ∧
      ∃ l, (t.saggar k).ledger = some l ∧ l.base = rAddr r 24 ∧ l.entries = rf r 20 0 32 ∧ l.mask = BitVec.ofNat 64 (rf r 19 0 8) ∧ l.count = 0) ∧
    (MbxBegins s fn n 0x2B r → Answers (exec (.ledgerUnbind fn n) s) s (s.modSaggar k fun g => { g with ledger := none }) fn n stOk) ∧
    (MbxBegins s fn n 0x2C r → fn = 0 → rf r 18 0 16 < 192 → s.present (rf r 18 0 16) = true → rf r 20 0 8 < 32 →
      Answers (exec (.tallyRead fn n) s) s s fn n stOk (leBytes 8 (tallyOf s (rf r 18 0 16) (rf r 20 0 8)).value.toNat ++
        leBytes 4 (tallyOf s (rf r 18 0 16) (rf r 20 0 8)).cfg.toNat)) ∧
    (MbxBegins s fn n 0x2D r → fn = 0 → rf r 18 0 8 < 64 → Goes (exec (.watchSet fn n) s) fun t => SameMemory s t ∧ Over t fn n ∧
      (watchpoint t (rf r 18 0 8)).base = BitVec.ofNat 57 (rf r 24 0 57) ∧ (watchpoint t (rf r 18 0 8)).limit = BitVec.ofNat 57 (rf r 32 0 57) ∧
      bits (watchpoint t (rf r 18 0 8)).ctl.toNat 0 12 = bits (watchpoint s (rf r 18 0 8)).ctl.toNat 0 12)

/-- O58. Mailbox commands of guilds, routes, flows, securing and the module’s configuration have their effects. Rests on R432, R466, R469, R480, R517, R536, R537, R541, R581, R583, R591, R637. -/
def Obligations.MailboxModuleCommands : Prop :=
  ∀ (s : State) (fn n : Nat) (r : Req),
    let k := reqSag r
    let flow := rf r 18 0 8
    (MbxBegins s fn n 0x01 r →
      let ws := (List.range 6).flatMap fun i => leBytes 4 (wheelPresent s i)
      let ids := leBytes 4 (hubIdent0 s) ++ leBytes 4 (hubIdent1 s)
      (reqData r = 0 → Answers (exec (.identityQuery fn n) s) s s fn n stOk ids) ∧
      (reqData r ≠ 0 → fnOpen s fn = true → Answers (exec (.identityQuery fn n) s) s (hostWrite s fn (reqData r) ws) fn n stOk ids) ∧
      (reqData r ≠ 0 → fnOpen s fn = false → Answers (exec (.identityQuery fn n) s) s s fn n stHostAccess)) ∧
    (MbxBegins s fn n 0x30 r → s.guild? (rf r 18 0 16) = none →
      Answers (exec (.guildBind fn n) s) s (bindGuild s r.body).2 fn n (bindGuild s r.body).1 ∧
      ((bindGuild s r.body).1 = stOk → Goes (exec (.guildBind fn n) s) fun t => ∃ g, t.guild? (bf r.body 18 0 16) = some g ∧ g.st = 1 ∧
        g.saggar = bf r.body 16 0 12 ∧ g.rank = bf r.body 20 0 32 ∧ g.seq = 0)) ∧
    (∀ g, MbxBegins s fn n 0x31 r → s.guild? (rf r 18 0 16) = some g → g.saggar = k → g.latched = none →
      Begun (exec (.guildUnbind fn n) s) s (s.setGuild (rf r 18 0 16) { g with st := 2, waiters := g.waiters ++ [(fn, n)], latched := none }) fn n) ∧
    (MbxBegins s fn n 0x34 r → (∀ p, p < 32 → (s.port p).st = .off) →
      Answers (exec (.linkSetId fn n) s) s { s with link := { s.link with fabricId := rf r 16 0 16 } } fn n stOk) ∧
    (∀ d e, MbxBegins s fn n 0x35 r → rf r 16 0 32 = 1 → reqData r ≠ 0 → r.noHost = false → r.data = some d → routeEntries 1 d = [e] →
      e.2.2 = true → Goes (exec (.routeLoad fn n) s) fun t => SameMemory s t ∧ Over t fn n ∧ t.link.act = s.link.act ∧
        Tab.find (if s.link.act = 0 then t.link.t1 else t.link.t0) e.1 = some e.2.1 ∧
        (if s.link.act = 0 then t.link.t0 = s.link.t0 else t.link.t1 = s.link.t1)) ∧
    (MbxBegins s fn n 0x36 r → s.gts + 256 ≤ rf r 24 0 64 → Answers (exec (.routeSwap fn n) s) s
      { s with link := { s.link with swap := some (rf r 24 0 64), swapGts := BitVec.ofNat 64 (rf r 24 0 64) } } fn n stOk) ∧
    (MbxBegins s fn n 0x38 r → flow < 8 →
      let b : FlowBind := { saggar := k, base := rAddr r 24, nbuf := rf r 19 0 8, bufStride := rAddr r 32, lineStride := rf r 20 0 32
                            ready := rAddr r 40, free := rAddr r 48 }
      (bindRefusal s k flow b = none → Answers (exec (.frmFlowBind fn n) s) s (s.modFlow flow fun x => { x with bind := some b }) fn n stOk) ∧
      (∀ st, bindRefusal s k flow b = some st → Answers (exec (.frmFlowBind fn n) s) s s fn n st)) ∧
    (MbxBegins s fn n 0x39 r → flow < 8 → (s.flow flow).st = 0 →
      Answers (exec (.frmFlowUnbind fn n) s) s (s.modFlow flow fun x => { x with bind := none }) fn n stOk) ∧
    (∀ p, MbxBegins s fn n 0x40 r → (s.saggar k).cfg.secMode = 1 → rf r 26 0 8 = 0 → (∀ i, i < 4 → rf r (32 + 8 * i) 0 64 = 0) →
      rf r 18 0 16 = 0xFFFF → rf r 20 0 32 = 0xFFFFFFFF → (s.saggar k).sec.points.head? = some p → restoreRefusal s k (some p) [] = none →
      Goes (exec (.secureRestore fn n) s) fun t => (t.saggar k).sec.state = 4 ∧ ∃ j, (t.saggar k).sec.restore = some j ∧ j.point = p ∧ j.req = n) ∧
    (∀ gid g, MbxBegins s fn n 0x41 r → secGuildOf s k = some (gid, g) → (s.saggar k).cfg.secMode = 1 → rf r 18 0 16 < g.n →
      rf r 18 0 16 ≠ g.rank → Answers (exec (.secureMemberDown fn n) s) s (memberLost s k gid (rf r 18 0 16) (moduleOf g (rf r 18 0 16))) fn n stOk) ∧
    (∀ m l, MbxBegins s fn n 0x42 r → (s.saggar k).cfg.secMode = 2 → rf r 18 0 8 ≤ 1 → (∀ e ∈ streamsOf s k, allDone e.2 = true) →
      dunobHeader s k (rf r 18 0 8) = some (m, l) → Goes (exec (.snapshotLoad fn n) s) fun t => (t.saggar k).step = BitVec.ofNat 32 m ∧ Over t fn n) ∧
    (MbxBegins s fn n 0x48 r → s.hub.flashJobs = [] → s.hub.resetHeld = false →
      Goes (exec (.moduleReset fn n) s) fun t => t.hub.state = .loading ∧ t.hub.startKind = 2 ∧ t.front.saggars = [] ∧ Over t fn n) ∧
    (MbxBegins s fn n 0x49 r → revokeStatus s (rf r 16 0 8) = stOk → exec (.keyRevoke fn n) s =
      .next { complete s fn n stOk with pending := s.pending, fuse := { s.fuse with revoked := s.fuse.revoked ||| (1#4 <<< rf r 16 0 8) } }) ∧
    (MbxBegins s fn n 0x49 r → revokeStatus s (rf r 16 0 8) ≠ stOk →
      Answers (exec (.keyRevoke fn n) s) s s fn n (revokeStatus s (rf r 16 0 8))) ∧
    (MbxBegins s fn n 0x4A r → exec (.configCommitSvn fn n) s = .next { complete s fn n stOk (leBytes 4 (max s.fuse.svnMin (min 64 s.hub.svn))) with
      pending := s.pending, fuse := { s.fuse with svnMin := max s.fuse.svnMin (min 64 s.hub.svn) } }) ∧
    (s.hub.flashJobs = [] →
      (∀ d, MbxBegins s fn n 0x4B r → reqData r ≠ 0 → r.noHost = false → r.data = some d →
        let op := FlashOp.write (rf r 16 0 8) (rf r 20 0 32) (d.take (rf r 24 0 32)) false
        (flashRefusal s op = none → Goes (exec (.configWrite fn n) s) fun t => SameMemory s t ∧ t.hub.flashJobs =
          [{ who := some (fn, n), op := .write (rf r 16 0 8) (rf r 20 0 32) (d.take (rf r 24 0 32)) true }]) ∧
        (flashRefusal s op ≠ none → Goes (exec (.configWrite fn n) s) fun t => t.hub.flashJobs = [] ∧ t.flash = s.flash ∧ Over t fn n)) ∧
      (MbxBegins s fn n 0x4C r → rf r 17 0 8 ≤ 1 → Goes (exec (.configSelect fn n) s) fun t => Over t fn n ∧
        t.flash = (if rf r 16 0 1 = 1 then writeDir s (dirNow s).preferred true (rf r 17 0 8)
          else writeDir s (rf r 17 0 8) (dirNow s).tryValid (dirNow s).trySlot).flash) ∧
      (MbxBegins s fn n 0x4D r → Goes (exec (.configStatus fn n) s) fun t => Over t fn n ∧ t.flash = s.flash ∧ SameMemory s t) ∧
      (MbxBegins s fn n 0x4E r → Goes (exec (.configLog fn n) s) fun t => Over t fn n ∧ t.flash = s.flash ∧ SameMemory s t))

/-- O59. Rings, host reads, MSI-X, resets and management messages have their effects. Rests on R538, R539, R541, R624, R625, R627, R628, R632, R635, R640, R641, R642. -/
def Obligations.RingsHostAndManagement : Prop :=
  ∀ s : State,
    (hostUp s = true → ∀ fn, fn < 256 → fnExists s fn = true →
      let m := s.mbx fn
      (∀ v, reached v m.reqTail = true → (v - m.reqHead).toNat ≤ 16 → exec (.mbxReqTailWrite fn v) s = .next (s.setMbx fn { m with reqTail := v })) ∧
      (∀ v, reached v m.reqTail = false → exec (.mbxReqTailWrite fn v) s = .next (s.setMbx fn { m with rejected := true })) ∧
      (∀ v, m.cplWait = [] → m.evWait = [] → exec (.mbxCplHeadWrite fn v) s = .next (s.setMbx fn { m with cplHead := v })) ∧
      (m.reqHead ≠ m.reqTail → m.inflight = [] → Goes (exec (.mbxTake fn) s) fun t => SameMemory s t ∧ (t.mbx fn).reqHead = m.reqHead + 1 ∧
        (let r : Req := { n := s.nextId, body := getBytes m.slots (0x80 * (m.reqHead.toNat % 16)) 0x80 }
         (listed (reqCode r) = true → readsHost r = 0 → (t.mbx fn).inflight = [r]) ∧
         (listed (reqCode r) = false → (t.mbx fn).inflight = []) ∧
         (listed (reqCode r) = true → readsHost r ≠ 0 → reqData r ≠ 0 → readsHost r ≤ 2 ^ 20 → fnOpen s fn = true →
          t.outbox = .hostRead (s.nextId + 1) fn (reqData r) (readsHost r) :: s.outbox))) ∧
      (∀ fns, fns = Tab.put {} s.host.fns fn { bme := true, d3 := false } → exec (.busMasterEnable fn) s =
        .next (kept s (releaseHost { s with host := { s.host with fns := fns } } fn)))) ∧
    (∀ id r n pos bs, s.host.reads.find? (fun r => r.id == id && r.sent) = some r → r.why = .ring n pos → (s.stream n).st ≠ 0 → bs.length = 64 →
      Goes (exec (.hostReadCompletion id true bs) s) fun t => SameMemory s t ∧ (∀ q ∈ t.host.reads, q.id ≠ id) ∧
        (pos ∉ (t.stream n).fetching) ∧ ∀ i, i < 64 → Tab.find (t.stream n).fetched (64 * pos + i) = bs[i]?) ∧
    (∀ v, v < 2041 → hostUp s = true →
      let m := Tab.get {} s.host.msix v
      Goes (exec (.msixUnmask v) s) fun t => Tab.get {} t.host.msix v = { m with masked := false, pending := m.pending && !fnOpen s (vectorFn v) } ∧
        t.outbox = if m.pending && fnOpen s (vectorFn v) then .msix v :: s.outbox else s.outbox) ∧
    (hostUp s = true →
      (∀ n, 0 < n → n < 256 → s.hub.numVfs = 0 → exec (.vfEnableSet n) s = .next { s with hub := { s.hub with numVfs := n } }) ∧
      (Goes (exec .vfEnableClear s) fun t => t.hub.numVfs = 0) ∧
      (∀ fn, 0 < fn → fn < 256 → fnExists s fn = true → exec (.vfFlr fn) s = .next (kept s (flr s fn))) ∧
      (Goes (exec .pcieReset s) fun t => t.hub.numVfs = 0 ∧ t.hub.pcieResets = min 15 (s.hub.pcieResets + 1) ∧ (t.mbx 0).reqTail = 0 ∧
        (t.mbx 0).cplTail = 0 ∧ Tab.find t.host.fns 0 = none)) ∧
    (∀ slot off data who rest, s.hub.flashJobs = ⟨who, .write slot off data true⟩ :: rest → s.hub.resetReq = none → 65536 < data.length →
      Goes (exec .flashUnitDone s) fun t => t.hub.flashJobs = ⟨who, .write slot (off + 65536) (data.drop 65536) true⟩ :: rest ∧
        flashBytes t (slotBase slot + off) 65536 = data.take 65536) ∧
    (rotUp s = true →
      let answers := fun (code : Nat) (bs : List Byte) => (.next (s.emit (.oob 2 code bs)) : Out)
      (∀ a, a < 128 → exec (.entdaa a) s = .next { s with oob := { s.oob with i3c := some a } }) ∧
      (∀ e, e < 256 → exec (.mctpSetEndpointId e) s = .next ({ s with oob := { s.oob with eid := e } }.emit (.oob 1 1 [0, BitVec.ofNat 8 e]))) ∧
      (exec .pldmBaseDiscovery s = answers 4 [0, 2, 4, 5]) ∧
      (exec .pldmFruData s = answers 2 (leBytes 1 s.fuse.variant ++ leBytes 1 0xB0 ++ leBytes 16 s.fuse.serial.toNat)) ∧
      (exec (.pldmGetSensorReading 8) s = answers 0x21 [BitVec.ofNat 8 s.hub.state.code, BitVec.ofNat 8 s.hub.cause]) ∧
      (sensorsUp s = true → exec (.pldmGetSensorReading 2) s = answers 0x11 (leBytes 8 s.rve.vin)) ∧
      (sensorsUp s = false → exec (.pldmGetSensorReading 2) s = answers 0x11 []) ∧
      (∀ h, h < 16 → exec (.pldmGetPdr h) s = answers 0x51 (leBytes 32 (s.fen.fails.getD h 0).toNat)) ∧
      (exec (.pldmSetStateEffecter 9 1) s = .next (kept s (requestReset (s.emit (.oob 2 0x39 [0])) 3))) ∧
      (∀ c off len, 1 ≤ c → c ≤ 2 → off % 65536 = 0 → len % 65536 = 0 → 0 < len → len ≤ 2 ^ 20 → off + len ≤ slotBytes →
        s.hub.state ≠ .loading → slotInForce s ≠ some (c - 1) → exec (.pldmRequestUpdate c off len) s =
          .next ({ s with oob := { s.oob with update := some (c - 1, off, len) } }.emit (.oob 2 0x10 [0]))) ∧
      (∀ slot off bs, s.oob.update = some (slot, off, bs.length) → s.hub.flashJobs = [] → flashRefusal s (.write slot off bs false) = none →
        Goes (exec (.pldmTransferComplete true bs) s) fun t => t.hub.flashJobs = [{ op := .write slot off bs true }] ∧ t.oob.update = none ∧
          t.oob.updated = some slot) ∧
      (∀ slot, s.oob.updated = some slot → slot ≤ 1 → s.hub.state ≠ .loading → s.hub.flashJobs = [] → Goes (exec .pldmActivateFirmware s) fun t =>
        t.flash = (writeDir s (dirNow s).preferred true slot).flash ∧ t.outbox = .oob 2 0x16 [0] :: s.outbox) ∧
      (exec .getVersion s = .next (s.emit (.oob 3 0x84 [0x12, 0x13]))) ∧
      (exec .negotiateAlgorithms s = .next (s.emit (.oob 3 0xE3 [0x80, 0x02]))) ∧
      (∃ l, exec .getCapabilities s = .next (s.emit (.oob 3 0xE1 l))) ∧
      (Goes (exec .getDigests s) fun t => ∃ l, l.length = 48 ∧ t.outbox = .oob 3 0x81 l :: s.outbox) ∧
      (Goes (exec .getCertificate s) fun t => ∃ l, t.outbox = .oob 3 0x82 l :: s.outbox) ∧
      (Goes (exec .challenge s) fun t => ∃ l, l.length = 96 ∧ t.outbox = .oob 3 0x83 l :: s.outbox) ∧
      (∀ i, 1 ≤ i → i ≤ 5 → s.hub.measured = true → Goes (exec (.getMeasurements i) s) fun t => ∃ m sig, measurement s i = some m ∧ sig.length = 96 ∧
        t.outbox = .oob 3 0xE0 (m ++ sig) :: s.outbox))

/-- O60. A register write has the effect of the field it reaches, and of no other. Rests on R6, R16, R17, R118, R490, R561, R603, R622, R629, R630, R632, R639. -/
def Obligations.RegisterWrites : Prop :=
  ∀ (s : State) (v : DWord), hostUp s = true →
    let w := fun (a : Nat) => exec (.registerWrite 0 0 a false v) s
    (∀ k, k < 4 → w (0x210 + 4 * k) = .next { s with hub := { s.hub with scratch := Tab.put 0 s.hub.scratch k (v.setWidth 32) } }) ∧
    (∀ k, k < 0x40000 → w (0x100000 + 4 * k) = .next s) ∧
    (w 0x300004 = .next { s with fen := { s.fen with intStatus := s.fen.intStatus &&& ~~~(v.setWidth 4) } }) ∧
    (w 0x300008 = .next { s with fen := { s.fen with intEnable := v.setWidth 4 } }) ∧
    (w 0x300100 = exec (.fenRecover (v.setWidth 32)) s) ∧
    (∀ n, n < 32 → w (0x501000 + 0x100 * n) = exec (if v.getLsbD 0 then .lnkPortEnable n else .lnkPortDisable n) s) ∧
    (∀ f, f < 8 → w (0x700000 + 0x100 * f) = exec (if v.getLsbD 0 then .frmFlowEnable f else .frmFlowDisable f) s) ∧
    (∀ n, hasGrn s n = true → w (0x3001000 + 0x100 * n) = exec (if v.getLsbD 0 then .grnPortEnable n else .grnPortDisable n) s) ∧
    (∀ i, i < 192 → s.present i = true → v.getLsbD 1 = false → w (0x1000000 + 0x10000 * i) =
      exec (if v.getLsbD 0 then .whlCtlEnable i else .whlCtlDisable i) s) ∧
    (∀ i, i < 192 → s.present i = false → ∀ o, o < 0x10000 → o % 4 = 0 → w (0x1000000 + 0x10000 * i + o) = .next s) ∧
    (∀ i, i < 64 → exec (.registerWrite 0 0 (0x802010 + 0x20 * i) true v) s = exec (.tallyWrite 192 i v) s) ∧
    (exec (.registerWrite 0 0 0x800008 true v) s = .next { s with dbg := { s.dbg with t := v } }) ∧
    (∀ fn a, 0 < fn → fn < 256 → a % 4 = 0 → exec (.registerWrite 0 fn a false v) s = .next s) ∧
    (∀ fn, fn < 256 → fnExists s fn = true →
      exec (.registerWrite 2 fn 0xFFF000 false v) s = exec (.mbxReqTailWrite fn (v.setWidth 32)) s ∧
      exec (.registerWrite 2 fn 0xFFF00C false v) s = exec (.mbxCplHeadWrite fn (v.setWidth 32)) s ∧
      (∀ k, k < 262080 → exec (.registerWrite 2 fn (64 * k) false v) s = exec (.doorbellWrite fn k v false) s) ∧
      (∀ k, k < 512 → exec (.registerWrite 2 fn (0xFFF400 + 4 * k) false v) s = .next (s.setMbx fn { s.mbx fn with
        slots := putBytes (s.mbx fn).slots (4 * k) (leBytes 4 v.toNat) }))) ∧
    (∀ i, i < 256 → v.getLsbD 0 = false → exec (.registerWrite 4 0 (16 * i + 12) false v) s = exec (.msixUnmask i) s)
end

