-- ==== Sys2Proof/Laws/Commands.lean ====
section
/-!
SUPPORT. What a command does, said once: an operation that names existing units answers a next state with its queue and fuses kept; a
mailbox command that begins (19 R633, R676) completes with its own answer or waits for an event of its own.
-/
namespace Sys2Proof.Machine

theorem act_next {ok : Bool} {f : State → State} {s : State} (h : ok = true) : act ok f s = .next (kept s (f s)) := by
  subst h; rfl

theorem act_absent {ok : Bool} {f : State → State} {s : State} (h : ok = false) : act ok f s = .next s := by
  subst h; rfl

/-- An operation answers a next state; the waiting commands and the fuses stay. -/
theorem act_total (ok : Bool) (f : State → State) (s : State) : ∃ t, act ok f s = .next t ∧ t.pending = s.pending ∧ t.fuse = s.fuse :=
  ⟨_, rfl, rfl, rfl⟩

theorem act_kept {ok : Bool} {f : State → State} {s t : State} (h : act ok f s = .next t) : t.pending = s.pending ∧ t.fuse = s.fuse := by
  cases h; exact ⟨rfl, rfl⟩

@[simp] theorem whenD_true (f : State → State) (s : State) : whenD true f s = f s := rfl
@[simp] theorem whenD_false (f : State → State) (s : State) : whenD false f s = s := rfl

@[simp] theorem kept_pending (s t : State) : (kept s t).pending = s.pending := rfl
@[simp] theorem kept_fuse (s t : State) : (kept s t).fuse = s.fuse := rfl
@[simp] theorem kept_self (s : State) : kept s s = s := rfl

theorem step_cases (s : State) : (s.pending = [] ∧ step s = .next (timeTick s)) ∨
    ∃ c rest, s.pending = c :: rest ∧ step s = exec c { s with pending := rest } := by
  unfold step
  cases h : s.pending with
  | nil => exact .inl ⟨rfl, rfl⟩
  | cons c rest => exact .inr ⟨c, rest, rfl, rfl⟩

theorem step_idle {s : State} (h : s.pending = []) : step s = .next (timeTick s) := by
  unfold step
  rw [h]

/-- What `begins` says of the state and the request. -/
theorem begins_spec {m : MbxSpec} {s : State} {fn n : Nat} {r : Req} (h : begins m s fn n = some r) :
    hostUp s = true ∧ ((s.mbx fn).inflight.find? fun q => !q.begun) = some r ∧ r.n = n ∧ reqCode r = m.code ∧
      (s.frozen && !m.query) = false ∧ mbxRefusal s fn r m = none := by
  unfold begins at h
  split at h
  · cases h
  · rename_i q hq
    split at h
    · cases h
    · rename_i hc
      cases h
      simp only [Bool.or_eq_true, Bool.not_eq_true', bne_iff_ne, not_or, ne_eq, Decidable.not_not, Bool.not_eq_true, Option.isSome_eq_false_iff,
        Option.isNone_iff_eq_none] at hc
      obtain ⟨⟨⟨⟨a, b⟩, c⟩, d⟩, e⟩ := hc
      exact ⟨by simpa using a, hq, b, c, d, e⟩

/-- A command that begins, and has the host data it needs, does what its own rules say. -/
theorem mbxRun_begins {m : MbxSpec} {data : Req → Nat} {go : State → Nat → Req → Reply × State} {s : State} {fn n : Nat} {r : Req}
    (hf : fn < 256) (h : begins m s fn n = some r) (hd : data r = 0 ∨ (r.noHost = false ∧ r.data.isSome = true)) :
    mbxRun m data go fn n s = .next (kept s (match go s fn r with
      | (some (st, res), u) => complete u fn n st res
      | (none, u) => modReq u fn n fun q => { q with begun := true })) := by
  obtain ⟨h1, h2, h3, h4, h5, h6⟩ := begins_spec h
  unfold mbxRun
  rw [act_next (decide_eq_true hf)]
  unfold mbxBody
  have e1 : (r.n != n || reqCode r != m.code || (s.frozen && !m.query)) = false := by simp [h3, h4, h5]
  have e2 : (data r != 0 && r.noHost) = false := by rcases hd with hd | hd <;> simp [hd]
  have e3 : (data r != 0 && r.data.isNone && reqData r != 0) = false := by
    rcases hd with hd | ⟨-, hd⟩
    · simp [hd]
    · rw [Option.isSome_iff_exists] at hd
      obtain ⟨d, hd⟩ := hd
      simp [hd]
  rw [h1, whenD_true, h2]
  simp only [e1, h6, e2, e3, Bool.false_eq_true, if_false] <;>
    rcases go s fn r with ⟨_ | ⟨st, res⟩, u⟩ <;> rfl

/-- A command of a function that begins, as the statements say it. -/
theorem mbxRun_of {s : State} {fn n code : Nat} {r : Req} {data : Req → Nat} {go : State → Nat → Req → Reply × State}
    (h : MbxBegins s fn n code r) (hd : data r = 0 ∨ (r.noHost = false ∧ r.data.isSome = true)) :
    mbxRun (mbxRow code) data go fn n s = .next (kept s (match go s fn r with
      | (some (st, res), u) => complete u fn n st res
      | (none, u) => modReq u fn n fun q => { q with begun := true })) := mbxRun_begins h.1 h.2 hd

end Sys2Proof.Machine
end

