-- ==== Sys2Proof/Laws/Tab.lean ====
section
/-!
SUPPORT. What sparse tables do: a read after a write, other keys kept, the canonical form kept.
-/
namespace Sys2Proof.Tab

variable {α : Type}

@[simp] theorem find_nil (k : Nat) : find ([] : Tab α) k = none := rfl

theorem find_cons (j k : Nat) (a : α) (t : Tab α) : find ((j, a) :: t) k = if j = k then some a else find t k := rfl

@[simp] theorem find_ins_same (t : Tab α) (k : Nat) (a : α) : find (ins t k a) k = some a := by
  induction t with
  | nil => simp [ins, find]
  | cons e t ih =>
    obtain ⟨j, b⟩ := e
    simp only [ins]
    split
    · simp [find]
    · split
      · simp [find]
      · rw [find_cons, if_neg (by omega), ih]

theorem find_ins_other (t : Tab α) (k l : Nat) (a : α) (h : l ≠ k) : find (ins t k a) l = find t l := by
  induction t with
  | nil => simp [ins, find, Ne.symm h]
  | cons e t ih =>
    obtain ⟨j, b⟩ := e
    simp only [ins]
    split
    · simp [find, Ne.symm h]
    · split
      · subst k; simp [find, Ne.symm h]
      · simp [find, ih]

@[simp] theorem find_del_same (t : Tab α) (k : Nat) : find (del t k) k = none := by
  induction t with
  | nil => rfl
  | cons e t ih =>
    obtain ⟨j, b⟩ := e
    simp only [del]
    split
    · exact ih
    · rw [find_cons, if_neg ‹_›, ih]

theorem find_del_other (t : Tab α) (k l : Nat) (h : l ≠ k) : find (del t k) l = find t l := by
  induction t with
  | nil => rfl
  | cons e t ih =>
    obtain ⟨j, b⟩ := e
    simp only [del]
    split
    · rw [ih, find_cons, if_neg (by omega)]
    · simp [find, ih]

@[simp] theorem find_modify_same (t : Tab α) (k : Nat) (f : α → α) : find (modify t k f) k = (find t k).map f := by
  induction t with
  | nil => rfl
  | cons e t ih =>
    obtain ⟨j, b⟩ := e
    simp only [modify]
    split
    · simp [find, *]
    · rw [find_cons, if_neg ‹_›, ih, find_cons, if_neg ‹_›]

theorem find_modify_other (t : Tab α) (k l : Nat) (f : α → α) (h : l ≠ k) : find (modify t k f) l = find t l := by
  induction t with
  | nil => rfl
  | cons e t ih =>
    obtain ⟨j, b⟩ := e
    simp only [modify]
    split
    · simp only [find]; rw [if_neg (by omega), if_neg (by omega)]
    · simp only [find, ih]

variable [DecidableEq α]

/-- Reading back what was written. -/
@[simp] theorem get_put_same (d : α) (t : Tab α) (k : Nat) (a : α) : get d (put d t k a) k = a := by
  unfold get put
  split
  · simp [*]
  · simp

/-- A write leaves every other key alone. -/
theorem get_put_other (d : α) (t : Tab α) (k l : Nat) (a : α) (h : l ≠ k) : get d (put d t k a) l = get d t l := by
  unfold get put
  split
  · rw [find_del_other _ _ _ h]
  · rw [find_ins_other _ _ _ _ h]

theorem canon_weaken (d : α) (t : Tab α) (lo : Nat) : ∀ {hi : Nat}, lo ≤ hi → canon d (some hi) t = true → canon d (some lo) t = true := by
  intro hi hle h
  cases t with
  | nil => rfl
  | cons e t =>
    obtain ⟨j, b⟩ := e
    simp only [canon, Option.all_some, Bool.and_eq_true, decide_eq_true_eq] at h ⊢
    exact ⟨⟨by omega, h.1.2⟩, h.2⟩

theorem canon_none (d : α) (t : Tab α) {lo : Nat} (h : canon d (some lo) t = true) : canon d none t = true := by
  cases t with
  | nil => rfl
  | cons e t =>
    obtain ⟨j, b⟩ := e
    simp only [canon, Option.all_some, Option.all_none, Bool.and_eq_true, decide_eq_true_eq] at h ⊢
    exact ⟨⟨trivial, h.1.2⟩, h.2⟩

theorem canon_ins (d : α) (t : Tab α) (k : Nat) (a : α) (ha : a ≠ d) :
    ∀ lo : Option Nat, (lo.all fun l => decide (l < k)) = true → canon d lo t = true → canon d lo (ins t k a) = true := by
  induction t with
  | nil => intro lo hl _; simp [ins, canon, hl, ha]
  | cons e t ih =>
    obtain ⟨j, b⟩ := e
    intro lo hl h
    simp only [canon, Bool.and_eq_true, decide_eq_true_eq] at h
    simp only [ins]
    split
    · simp only [canon, Bool.and_eq_true, decide_eq_true_eq, Option.all_some]; exact ⟨⟨hl, ha⟩, ⟨‹_›, h.1.2⟩, h.2⟩
    · split
      · subst k; simp only [canon, Bool.and_eq_true, decide_eq_true_eq]; exact ⟨⟨hl, ha⟩, h.2⟩
      · simp only [canon, Bool.and_eq_true, decide_eq_true_eq]
        exact ⟨h.1, ih (some j) (by simp only [Option.all_some, decide_eq_true_eq]; omega) h.2⟩

theorem canon_del (d : α) (t : Tab α) (k : Nat) : ∀ lo : Option Nat, canon d lo t = true → canon d lo (del t k) = true := by
  induction t with
  | nil => intro lo _; rfl
  | cons e t ih =>
    obtain ⟨j, b⟩ := e
    intro lo h
    simp only [canon, Bool.and_eq_true, decide_eq_true_eq] at h
    simp only [del]
    split
    · refine ih lo ?_
      cases lo with
      | none => exact canon_none d t h.2
      | some l => exact canon_weaken d t l (by have := h.1.1; simp at this; omega) h.2
    · simp only [canon, Bool.and_eq_true, decide_eq_true_eq]; exact ⟨h.1, ih (some j) h.2⟩

/-- A write keeps the canonical form. -/
theorem canon_put (d : α) (t : Tab α) (k : Nat) (a : α) (h : canon d none t = true) : canon d none (put d t k a) = true := by
  unfold put
  split
  · exact canon_del d t k none h
  · exact canon_ins d t k a ‹_› none rfl h

theorem canon_filter (d : α) (p : Nat × α → Bool) (t : Tab α) :
    ∀ lo : Option Nat, canon d lo t = true → canon d lo (t.filter p) = true := by
  induction t with
  | nil => intro lo _; rfl
  | cons e t ih =>
    obtain ⟨j, b⟩ := e
    intro lo h
    simp only [canon, Bool.and_eq_true, decide_eq_true_eq] at h
    rw [List.filter_cons]
    split
    · simp only [canon, Bool.and_eq_true, decide_eq_true_eq]; exact ⟨h.1, ih (some j) h.2⟩
    · refine ih lo ?_
      cases lo with
      | none => exact canon_none d t h.2
      | some l => exact canon_weaken d t l (by have := h.1.1; simp at this; omega) h.2

end Sys2Proof.Tab
end

