-- ==== Sys2Proof/Laws/State.lean ====
section
/-!
SUPPORT. What each named update of the state leaves alone, field by field, and what it writes.
-/
namespace Sys2Proof.Machine.State

variable (s : State)

@[simp] theorem emit_pending (m : Msg) : (s.emit m).pending = s.pending := rfl
@[simp] theorem emit_freeCtr (m : Msg) : (s.emit m).freeCtr = s.freeCtr := rfl
@[simp] theorem emit_nextId (m : Msg) : (s.emit m).nextId = s.nextId := rfl
@[simp] theorem emit_fuse (m : Msg) : (s.emit m).fuse = s.fuse := rfl
@[simp] theorem emit_hub (m : Msg) : (s.emit m).hub = s.hub := rfl
@[simp] theorem emit_oob (m : Msg) : (s.emit m).oob = s.oob := rfl
@[simp] theorem emit_img (m : Msg) : (s.emit m).img = s.img := rfl
@[simp] theorem emit_flash (m : Msg) : (s.emit m).flash = s.flash := rfl
@[simp] theorem emit_time (m : Msg) : (s.emit m).time = s.time := rfl
@[simp] theorem emit_wheels (m : Msg) : (s.emit m).wheels = s.wheels := rfl
@[simp] theorem emit_ms (m : Msg) : (s.emit m).ms = s.ms := rfl
@[simp] theorem emit_crier (m : Msg) : (s.emit m).crier = s.crier := rfl
@[simp] theorem emit_front (m : Msg) : (s.emit m).front = s.front := rfl
@[simp] theorem emit_rve (m : Msg) : (s.emit m).rve = s.rve := rfl
@[simp] theorem emit_dbg (m : Msg) : (s.emit m).dbg = s.dbg := rfl
@[simp] theorem emit_host (m : Msg) : (s.emit m).host = s.host := rfl
@[simp] theorem emit_link (m : Msg) : (s.emit m).link = s.link := rfl
@[simp] theorem emit_frm (m : Msg) : (s.emit m).frm = s.frm := rfl
@[simp] theorem emit_fen (m : Msg) : (s.emit m).fen = s.fen := rfl
@[simp] theorem setWheel_pending (w : Nat) (x : Wheel) : (s.setWheel w x).pending = s.pending := rfl
@[simp] theorem setWheel_freeCtr (w : Nat) (x : Wheel) : (s.setWheel w x).freeCtr = s.freeCtr := rfl
@[simp] theorem setWheel_nextId (w : Nat) (x : Wheel) : (s.setWheel w x).nextId = s.nextId := rfl
@[simp] theorem setWheel_outbox (w : Nat) (x : Wheel) : (s.setWheel w x).outbox = s.outbox := rfl
@[simp] theorem setWheel_fuse (w : Nat) (x : Wheel) : (s.setWheel w x).fuse = s.fuse := rfl
@[simp] theorem setWheel_hub (w : Nat) (x : Wheel) : (s.setWheel w x).hub = s.hub := rfl
@[simp] theorem setWheel_oob (w : Nat) (x : Wheel) : (s.setWheel w x).oob = s.oob := rfl
@[simp] theorem setWheel_img (w : Nat) (x : Wheel) : (s.setWheel w x).img = s.img := rfl
@[simp] theorem setWheel_flash (w : Nat) (x : Wheel) : (s.setWheel w x).flash = s.flash := rfl
@[simp] theorem setWheel_time (w : Nat) (x : Wheel) : (s.setWheel w x).time = s.time := rfl
@[simp] theorem setWheel_ms (w : Nat) (x : Wheel) : (s.setWheel w x).ms = s.ms := rfl
@[simp] theorem setWheel_crier (w : Nat) (x : Wheel) : (s.setWheel w x).crier = s.crier := rfl
@[simp] theorem setWheel_front (w : Nat) (x : Wheel) : (s.setWheel w x).front = s.front := rfl
@[simp] theorem setWheel_rve (w : Nat) (x : Wheel) : (s.setWheel w x).rve = s.rve := rfl
@[simp] theorem setWheel_dbg (w : Nat) (x : Wheel) : (s.setWheel w x).dbg = s.dbg := rfl
@[simp] theorem setWheel_host (w : Nat) (x : Wheel) : (s.setWheel w x).host = s.host := rfl
@[simp] theorem setWheel_link (w : Nat) (x : Wheel) : (s.setWheel w x).link = s.link := rfl
@[simp] theorem setWheel_frm (w : Nat) (x : Wheel) : (s.setWheel w x).frm = s.frm := rfl
@[simp] theorem setWheel_fen (w : Nat) (x : Wheel) : (s.setWheel w x).fen = s.fen := rfl
@[simp] theorem modWheel_pending (w : Nat) (f : Wheel → Wheel) : (s.modWheel w f).pending = s.pending := rfl
@[simp] theorem modWheel_freeCtr (w : Nat) (f : Wheel → Wheel) : (s.modWheel w f).freeCtr = s.freeCtr := rfl
@[simp] theorem modWheel_nextId (w : Nat) (f : Wheel → Wheel) : (s.modWheel w f).nextId = s.nextId := rfl
@[simp] theorem modWheel_outbox (w : Nat) (f : Wheel → Wheel) : (s.modWheel w f).outbox = s.outbox := rfl
@[simp] theorem modWheel_fuse (w : Nat) (f : Wheel → Wheel) : (s.modWheel w f).fuse = s.fuse := rfl
@[simp] theorem modWheel_hub (w : Nat) (f : Wheel → Wheel) : (s.modWheel w f).hub = s.hub := rfl
@[simp] theorem modWheel_oob (w : Nat) (f : Wheel → Wheel) : (s.modWheel w f).oob = s.oob := rfl
@[simp] theorem modWheel_img (w : Nat) (f : Wheel → Wheel) : (s.modWheel w f).img = s.img := rfl
@[simp] theorem modWheel_flash (w : Nat) (f : Wheel → Wheel) : (s.modWheel w f).flash = s.flash := rfl
@[simp] theorem modWheel_time (w : Nat) (f : Wheel → Wheel) : (s.modWheel w f).time = s.time := rfl
@[simp] theorem modWheel_ms (w : Nat) (f : Wheel → Wheel) : (s.modWheel w f).ms = s.ms := rfl
@[simp] theorem modWheel_crier (w : Nat) (f : Wheel → Wheel) : (s.modWheel w f).crier = s.crier := rfl
@[simp] theorem modWheel_front (w : Nat) (f : Wheel → Wheel) : (s.modWheel w f).front = s.front := rfl
@[simp] theorem modWheel_rve (w : Nat) (f : Wheel → Wheel) : (s.modWheel w f).rve = s.rve := rfl
@[simp] theorem modWheel_dbg (w : Nat) (f : Wheel → Wheel) : (s.modWheel w f).dbg = s.dbg := rfl
@[simp] theorem modWheel_host (w : Nat) (f : Wheel → Wheel) : (s.modWheel w f).host = s.host := rfl
@[simp] theorem modWheel_link (w : Nat) (f : Wheel → Wheel) : (s.modWheel w f).link = s.link := rfl
@[simp] theorem modWheel_frm (w : Nat) (f : Wheel → Wheel) : (s.modWheel w f).frm = s.frm := rfl
@[simp] theorem modWheel_fen (w : Nat) (f : Wheel → Wheel) : (s.modWheel w f).fen = s.fen := rfl
@[simp] theorem setSaggar_pending (k : Nat) (x : Saggar) : (s.setSaggar k x).pending = s.pending := rfl
@[simp] theorem setSaggar_freeCtr (k : Nat) (x : Saggar) : (s.setSaggar k x).freeCtr = s.freeCtr := rfl
@[simp] theorem setSaggar_nextId (k : Nat) (x : Saggar) : (s.setSaggar k x).nextId = s.nextId := rfl
@[simp] theorem setSaggar_outbox (k : Nat) (x : Saggar) : (s.setSaggar k x).outbox = s.outbox := rfl
@[simp] theorem setSaggar_fuse (k : Nat) (x : Saggar) : (s.setSaggar k x).fuse = s.fuse := rfl
@[simp] theorem setSaggar_hub (k : Nat) (x : Saggar) : (s.setSaggar k x).hub = s.hub := rfl
@[simp] theorem setSaggar_oob (k : Nat) (x : Saggar) : (s.setSaggar k x).oob = s.oob := rfl
@[simp] theorem setSaggar_img (k : Nat) (x : Saggar) : (s.setSaggar k x).img = s.img := rfl
@[simp] theorem setSaggar_flash (k : Nat) (x : Saggar) : (s.setSaggar k x).flash = s.flash := rfl
@[simp] theorem setSaggar_time (k : Nat) (x : Saggar) : (s.setSaggar k x).time = s.time := rfl
@[simp] theorem setSaggar_wheels (k : Nat) (x : Saggar) : (s.setSaggar k x).wheels = s.wheels := rfl
@[simp] theorem setSaggar_ms (k : Nat) (x : Saggar) : (s.setSaggar k x).ms = s.ms := rfl
@[simp] theorem setSaggar_crier (k : Nat) (x : Saggar) : (s.setSaggar k x).crier = s.crier := rfl
@[simp] theorem setSaggar_rve (k : Nat) (x : Saggar) : (s.setSaggar k x).rve = s.rve := rfl
@[simp] theorem setSaggar_dbg (k : Nat) (x : Saggar) : (s.setSaggar k x).dbg = s.dbg := rfl
@[simp] theorem setSaggar_host (k : Nat) (x : Saggar) : (s.setSaggar k x).host = s.host := rfl
@[simp] theorem setSaggar_link (k : Nat) (x : Saggar) : (s.setSaggar k x).link = s.link := rfl
@[simp] theorem setSaggar_frm (k : Nat) (x : Saggar) : (s.setSaggar k x).frm = s.frm := rfl
@[simp] theorem setSaggar_fen (k : Nat) (x : Saggar) : (s.setSaggar k x).fen = s.fen := rfl
@[simp] theorem modSaggar_pending (k : Nat) (f : Saggar → Saggar) : (s.modSaggar k f).pending = s.pending := rfl
@[simp] theorem modSaggar_freeCtr (k : Nat) (f : Saggar → Saggar) : (s.modSaggar k f).freeCtr = s.freeCtr := rfl
@[simp] theorem modSaggar_nextId (k : Nat) (f : Saggar → Saggar) : (s.modSaggar k f).nextId = s.nextId := rfl
@[simp] theorem modSaggar_outbox (k : Nat) (f : Saggar → Saggar) : (s.modSaggar k f).outbox = s.outbox := rfl
@[simp] theorem modSaggar_fuse (k : Nat) (f : Saggar → Saggar) : (s.modSaggar k f).fuse = s.fuse := rfl
@[simp] theorem modSaggar_hub (k : Nat) (f : Saggar → Saggar) : (s.modSaggar k f).hub = s.hub := rfl
@[simp] theorem modSaggar_oob (k : Nat) (f : Saggar → Saggar) : (s.modSaggar k f).oob = s.oob := rfl
@[simp] theorem modSaggar_img (k : Nat) (f : Saggar → Saggar) : (s.modSaggar k f).img = s.img := rfl
@[simp] theorem modSaggar_flash (k : Nat) (f : Saggar → Saggar) : (s.modSaggar k f).flash = s.flash := rfl
@[simp] theorem modSaggar_time (k : Nat) (f : Saggar → Saggar) : (s.modSaggar k f).time = s.time := rfl
@[simp] theorem modSaggar_wheels (k : Nat) (f : Saggar → Saggar) : (s.modSaggar k f).wheels = s.wheels := rfl
@[simp] theorem modSaggar_ms (k : Nat) (f : Saggar → Saggar) : (s.modSaggar k f).ms = s.ms := rfl
@[simp] theorem modSaggar_crier (k : Nat) (f : Saggar → Saggar) : (s.modSaggar k f).crier = s.crier := rfl
@[simp] theorem modSaggar_rve (k : Nat) (f : Saggar → Saggar) : (s.modSaggar k f).rve = s.rve := rfl
@[simp] theorem modSaggar_dbg (k : Nat) (f : Saggar → Saggar) : (s.modSaggar k f).dbg = s.dbg := rfl
@[simp] theorem modSaggar_host (k : Nat) (f : Saggar → Saggar) : (s.modSaggar k f).host = s.host := rfl
@[simp] theorem modSaggar_link (k : Nat) (f : Saggar → Saggar) : (s.modSaggar k f).link = s.link := rfl
@[simp] theorem modSaggar_frm (k : Nat) (f : Saggar → Saggar) : (s.modSaggar k f).frm = s.frm := rfl
@[simp] theorem modSaggar_fen (k : Nat) (f : Saggar → Saggar) : (s.modSaggar k f).fen = s.fen := rfl
@[simp] theorem setStream_pending (n : Nat) (x : Stream) : (s.setStream n x).pending = s.pending := rfl
@[simp] theorem setStream_freeCtr (n : Nat) (x : Stream) : (s.setStream n x).freeCtr = s.freeCtr := rfl
@[simp] theorem setStream_nextId (n : Nat) (x : Stream) : (s.setStream n x).nextId = s.nextId := rfl
@[simp] theorem setStream_outbox (n : Nat) (x : Stream) : (s.setStream n x).outbox = s.outbox := rfl
@[simp] theorem setStream_fuse (n : Nat) (x : Stream) : (s.setStream n x).fuse = s.fuse := rfl
@[simp] theorem setStream_hub (n : Nat) (x : Stream) : (s.setStream n x).hub = s.hub := rfl
@[simp] theorem setStream_oob (n : Nat) (x : Stream) : (s.setStream n x).oob = s.oob := rfl
@[simp] theorem setStream_img (n : Nat) (x : Stream) : (s.setStream n x).img = s.img := rfl
@[simp] theorem setStream_flash (n : Nat) (x : Stream) : (s.setStream n x).flash = s.flash := rfl
@[simp] theorem setStream_time (n : Nat) (x : Stream) : (s.setStream n x).time = s.time := rfl
@[simp] theorem setStream_wheels (n : Nat) (x : Stream) : (s.setStream n x).wheels = s.wheels := rfl
@[simp] theorem setStream_ms (n : Nat) (x : Stream) : (s.setStream n x).ms = s.ms := rfl
@[simp] theorem setStream_crier (n : Nat) (x : Stream) : (s.setStream n x).crier = s.crier := rfl
@[simp] theorem setStream_rve (n : Nat) (x : Stream) : (s.setStream n x).rve = s.rve := rfl
@[simp] theorem setStream_dbg (n : Nat) (x : Stream) : (s.setStream n x).dbg = s.dbg := rfl
@[simp] theorem setStream_host (n : Nat) (x : Stream) : (s.setStream n x).host = s.host := rfl
@[simp] theorem setStream_link (n : Nat) (x : Stream) : (s.setStream n x).link = s.link := rfl
@[simp] theorem setStream_frm (n : Nat) (x : Stream) : (s.setStream n x).frm = s.frm := rfl
@[simp] theorem setStream_fen (n : Nat) (x : Stream) : (s.setStream n x).fen = s.fen := rfl
@[simp] theorem modStream_pending (n : Nat) (f : Stream → Stream) : (s.modStream n f).pending = s.pending := rfl
@[simp] theorem modStream_freeCtr (n : Nat) (f : Stream → Stream) : (s.modStream n f).freeCtr = s.freeCtr := rfl
@[simp] theorem modStream_nextId (n : Nat) (f : Stream → Stream) : (s.modStream n f).nextId = s.nextId := rfl
@[simp] theorem modStream_outbox (n : Nat) (f : Stream → Stream) : (s.modStream n f).outbox = s.outbox := rfl
@[simp] theorem modStream_fuse (n : Nat) (f : Stream → Stream) : (s.modStream n f).fuse = s.fuse := rfl
@[simp] theorem modStream_hub (n : Nat) (f : Stream → Stream) : (s.modStream n f).hub = s.hub := rfl
@[simp] theorem modStream_oob (n : Nat) (f : Stream → Stream) : (s.modStream n f).oob = s.oob := rfl
@[simp] theorem modStream_img (n : Nat) (f : Stream → Stream) : (s.modStream n f).img = s.img := rfl
@[simp] theorem modStream_flash (n : Nat) (f : Stream → Stream) : (s.modStream n f).flash = s.flash := rfl
@[simp] theorem modStream_time (n : Nat) (f : Stream → Stream) : (s.modStream n f).time = s.time := rfl
@[simp] theorem modStream_wheels (n : Nat) (f : Stream → Stream) : (s.modStream n f).wheels = s.wheels := rfl
@[simp] theorem modStream_ms (n : Nat) (f : Stream → Stream) : (s.modStream n f).ms = s.ms := rfl
@[simp] theorem modStream_crier (n : Nat) (f : Stream → Stream) : (s.modStream n f).crier = s.crier := rfl
@[simp] theorem modStream_rve (n : Nat) (f : Stream → Stream) : (s.modStream n f).rve = s.rve := rfl
@[simp] theorem modStream_dbg (n : Nat) (f : Stream → Stream) : (s.modStream n f).dbg = s.dbg := rfl
@[simp] theorem modStream_host (n : Nat) (f : Stream → Stream) : (s.modStream n f).host = s.host := rfl
@[simp] theorem modStream_link (n : Nat) (f : Stream → Stream) : (s.modStream n f).link = s.link := rfl
@[simp] theorem modStream_frm (n : Nat) (f : Stream → Stream) : (s.modStream n f).frm = s.frm := rfl
@[simp] theorem modStream_fen (n : Nat) (f : Stream → Stream) : (s.modStream n f).fen = s.fen := rfl
@[simp] theorem modLaunch_pending (n : Nat) (f : Launch → Launch) : (s.modLaunch n f).pending = s.pending := rfl
@[simp] theorem modLaunch_freeCtr (n : Nat) (f : Launch → Launch) : (s.modLaunch n f).freeCtr = s.freeCtr := rfl
@[simp] theorem modLaunch_nextId (n : Nat) (f : Launch → Launch) : (s.modLaunch n f).nextId = s.nextId := rfl
@[simp] theorem modLaunch_outbox (n : Nat) (f : Launch → Launch) : (s.modLaunch n f).outbox = s.outbox := rfl
@[simp] theorem modLaunch_fuse (n : Nat) (f : Launch → Launch) : (s.modLaunch n f).fuse = s.fuse := rfl
@[simp] theorem modLaunch_hub (n : Nat) (f : Launch → Launch) : (s.modLaunch n f).hub = s.hub := rfl
@[simp] theorem modLaunch_oob (n : Nat) (f : Launch → Launch) : (s.modLaunch n f).oob = s.oob := rfl
@[simp] theorem modLaunch_img (n : Nat) (f : Launch → Launch) : (s.modLaunch n f).img = s.img := rfl
@[simp] theorem modLaunch_flash (n : Nat) (f : Launch → Launch) : (s.modLaunch n f).flash = s.flash := rfl
@[simp] theorem modLaunch_time (n : Nat) (f : Launch → Launch) : (s.modLaunch n f).time = s.time := rfl
@[simp] theorem modLaunch_wheels (n : Nat) (f : Launch → Launch) : (s.modLaunch n f).wheels = s.wheels := rfl
@[simp] theorem modLaunch_ms (n : Nat) (f : Launch → Launch) : (s.modLaunch n f).ms = s.ms := rfl
@[simp] theorem modLaunch_crier (n : Nat) (f : Launch → Launch) : (s.modLaunch n f).crier = s.crier := rfl
@[simp] theorem modLaunch_rve (n : Nat) (f : Launch → Launch) : (s.modLaunch n f).rve = s.rve := rfl
@[simp] theorem modLaunch_dbg (n : Nat) (f : Launch → Launch) : (s.modLaunch n f).dbg = s.dbg := rfl
@[simp] theorem modLaunch_host (n : Nat) (f : Launch → Launch) : (s.modLaunch n f).host = s.host := rfl
@[simp] theorem modLaunch_link (n : Nat) (f : Launch → Launch) : (s.modLaunch n f).link = s.link := rfl
@[simp] theorem modLaunch_frm (n : Nat) (f : Launch → Launch) : (s.modLaunch n f).frm = s.frm := rfl
@[simp] theorem modLaunch_fen (n : Nat) (f : Launch → Launch) : (s.modLaunch n f).fen = s.fen := rfl
@[simp] theorem dropLaunch_pending (n : Nat) : (s.dropLaunch n).pending = s.pending := rfl
@[simp] theorem dropLaunch_freeCtr (n : Nat) : (s.dropLaunch n).freeCtr = s.freeCtr := rfl
@[simp] theorem dropLaunch_nextId (n : Nat) : (s.dropLaunch n).nextId = s.nextId := rfl
@[simp] theorem dropLaunch_outbox (n : Nat) : (s.dropLaunch n).outbox = s.outbox := rfl
@[simp] theorem dropLaunch_fuse (n : Nat) : (s.dropLaunch n).fuse = s.fuse := rfl
@[simp] theorem dropLaunch_hub (n : Nat) : (s.dropLaunch n).hub = s.hub := rfl
@[simp] theorem dropLaunch_oob (n : Nat) : (s.dropLaunch n).oob = s.oob := rfl
@[simp] theorem dropLaunch_img (n : Nat) : (s.dropLaunch n).img = s.img := rfl
@[simp] theorem dropLaunch_flash (n : Nat) : (s.dropLaunch n).flash = s.flash := rfl
@[simp] theorem dropLaunch_time (n : Nat) : (s.dropLaunch n).time = s.time := rfl
@[simp] theorem dropLaunch_wheels (n : Nat) : (s.dropLaunch n).wheels = s.wheels := rfl
@[simp] theorem dropLaunch_ms (n : Nat) : (s.dropLaunch n).ms = s.ms := rfl
@[simp] theorem dropLaunch_crier (n : Nat) : (s.dropLaunch n).crier = s.crier := rfl
@[simp] theorem dropLaunch_rve (n : Nat) : (s.dropLaunch n).rve = s.rve := rfl
@[simp] theorem dropLaunch_dbg (n : Nat) : (s.dropLaunch n).dbg = s.dbg := rfl
@[simp] theorem dropLaunch_host (n : Nat) : (s.dropLaunch n).host = s.host := rfl
@[simp] theorem dropLaunch_link (n : Nat) : (s.dropLaunch n).link = s.link := rfl
@[simp] theorem dropLaunch_frm (n : Nat) : (s.dropLaunch n).frm = s.frm := rfl
@[simp] theorem dropLaunch_fen (n : Nat) : (s.dropLaunch n).fen = s.fen := rfl
@[simp] theorem setCrew_pending (w k : Nat) (c : Crew) : (s.setCrew w k c).pending = s.pending := rfl
@[simp] theorem setCrew_freeCtr (w k : Nat) (c : Crew) : (s.setCrew w k c).freeCtr = s.freeCtr := rfl
@[simp] theorem setCrew_nextId (w k : Nat) (c : Crew) : (s.setCrew w k c).nextId = s.nextId := rfl
@[simp] theorem setCrew_outbox (w k : Nat) (c : Crew) : (s.setCrew w k c).outbox = s.outbox := rfl
@[simp] theorem setCrew_fuse (w k : Nat) (c : Crew) : (s.setCrew w k c).fuse = s.fuse := rfl
@[simp] theorem setCrew_hub (w k : Nat) (c : Crew) : (s.setCrew w k c).hub = s.hub := rfl
@[simp] theorem setCrew_oob (w k : Nat) (c : Crew) : (s.setCrew w k c).oob = s.oob := rfl
@[simp] theorem setCrew_img (w k : Nat) (c : Crew) : (s.setCrew w k c).img = s.img := rfl
@[simp] theorem setCrew_flash (w k : Nat) (c : Crew) : (s.setCrew w k c).flash = s.flash := rfl
@[simp] theorem setCrew_time (w k : Nat) (c : Crew) : (s.setCrew w k c).time = s.time := rfl
@[simp] theorem setCrew_ms (w k : Nat) (c : Crew) : (s.setCrew w k c).ms = s.ms := rfl
@[simp] theorem setCrew_crier (w k : Nat) (c : Crew) : (s.setCrew w k c).crier = s.crier := rfl
@[simp] theorem setCrew_front (w k : Nat) (c : Crew) : (s.setCrew w k c).front = s.front := rfl
@[simp] theorem setCrew_rve (w k : Nat) (c : Crew) : (s.setCrew w k c).rve = s.rve := rfl
@[simp] theorem setCrew_dbg (w k : Nat) (c : Crew) : (s.setCrew w k c).dbg = s.dbg := rfl
@[simp] theorem setCrew_host (w k : Nat) (c : Crew) : (s.setCrew w k c).host = s.host := rfl
@[simp] theorem setCrew_link (w k : Nat) (c : Crew) : (s.setCrew w k c).link = s.link := rfl
@[simp] theorem setCrew_frm (w k : Nat) (c : Crew) : (s.setCrew w k c).frm = s.frm := rfl
@[simp] theorem setCrew_fen (w k : Nat) (c : Crew) : (s.setCrew w k c).fen = s.fen := rfl
@[simp] theorem modCrew_pending (w k : Nat) (f : Crew → Crew) : (s.modCrew w k f).pending = s.pending := rfl
@[simp] theorem modCrew_freeCtr (w k : Nat) (f : Crew → Crew) : (s.modCrew w k f).freeCtr = s.freeCtr := rfl
@[simp] theorem modCrew_nextId (w k : Nat) (f : Crew → Crew) : (s.modCrew w k f).nextId = s.nextId := rfl
@[simp] theorem modCrew_outbox (w k : Nat) (f : Crew → Crew) : (s.modCrew w k f).outbox = s.outbox := rfl
@[simp] theorem modCrew_fuse (w k : Nat) (f : Crew → Crew) : (s.modCrew w k f).fuse = s.fuse := rfl
@[simp] theorem modCrew_hub (w k : Nat) (f : Crew → Crew) : (s.modCrew w k f).hub = s.hub := rfl
@[simp] theorem modCrew_oob (w k : Nat) (f : Crew → Crew) : (s.modCrew w k f).oob = s.oob := rfl
@[simp] theorem modCrew_img (w k : Nat) (f : Crew → Crew) : (s.modCrew w k f).img = s.img := rfl
@[simp] theorem modCrew_flash (w k : Nat) (f : Crew → Crew) : (s.modCrew w k f).flash = s.flash := rfl
@[simp] theorem modCrew_time (w k : Nat) (f : Crew → Crew) : (s.modCrew w k f).time = s.time := rfl
@[simp] theorem modCrew_ms (w k : Nat) (f : Crew → Crew) : (s.modCrew w k f).ms = s.ms := rfl
@[simp] theorem modCrew_crier (w k : Nat) (f : Crew → Crew) : (s.modCrew w k f).crier = s.crier := rfl
@[simp] theorem modCrew_front (w k : Nat) (f : Crew → Crew) : (s.modCrew w k f).front = s.front := rfl
@[simp] theorem modCrew_rve (w k : Nat) (f : Crew → Crew) : (s.modCrew w k f).rve = s.rve := rfl
@[simp] theorem modCrew_dbg (w k : Nat) (f : Crew → Crew) : (s.modCrew w k f).dbg = s.dbg := rfl
@[simp] theorem modCrew_host (w k : Nat) (f : Crew → Crew) : (s.modCrew w k f).host = s.host := rfl
@[simp] theorem modCrew_link (w k : Nat) (f : Crew → Crew) : (s.modCrew w k f).link = s.link := rfl
@[simp] theorem modCrew_frm (w k : Nat) (f : Crew → Crew) : (s.modCrew w k f).frm = s.frm := rfl
@[simp] theorem modCrew_fen (w k : Nat) (f : Crew → Crew) : (s.modCrew w k f).fen = s.fen := rfl
@[simp] theorem setSlice_pending (n : Nat) (x : Sys2Proof.Slice) : (s.setSlice n x).pending = s.pending := rfl
@[simp] theorem setSlice_freeCtr (n : Nat) (x : Sys2Proof.Slice) : (s.setSlice n x).freeCtr = s.freeCtr := rfl
@[simp] theorem setSlice_nextId (n : Nat) (x : Sys2Proof.Slice) : (s.setSlice n x).nextId = s.nextId := rfl
@[simp] theorem setSlice_outbox (n : Nat) (x : Sys2Proof.Slice) : (s.setSlice n x).outbox = s.outbox := rfl
@[simp] theorem setSlice_fuse (n : Nat) (x : Sys2Proof.Slice) : (s.setSlice n x).fuse = s.fuse := rfl
@[simp] theorem setSlice_hub (n : Nat) (x : Sys2Proof.Slice) : (s.setSlice n x).hub = s.hub := rfl
@[simp] theorem setSlice_oob (n : Nat) (x : Sys2Proof.Slice) : (s.setSlice n x).oob = s.oob := rfl
@[simp] theorem setSlice_img (n : Nat) (x : Sys2Proof.Slice) : (s.setSlice n x).img = s.img := rfl
@[simp] theorem setSlice_flash (n : Nat) (x : Sys2Proof.Slice) : (s.setSlice n x).flash = s.flash := rfl
@[simp] theorem setSlice_time (n : Nat) (x : Sys2Proof.Slice) : (s.setSlice n x).time = s.time := rfl
@[simp] theorem setSlice_wheels (n : Nat) (x : Sys2Proof.Slice) : (s.setSlice n x).wheels = s.wheels := rfl
@[simp] theorem setSlice_crier (n : Nat) (x : Sys2Proof.Slice) : (s.setSlice n x).crier = s.crier := rfl
@[simp] theorem setSlice_front (n : Nat) (x : Sys2Proof.Slice) : (s.setSlice n x).front = s.front := rfl
@[simp] theorem setSlice_rve (n : Nat) (x : Sys2Proof.Slice) : (s.setSlice n x).rve = s.rve := rfl
@[simp] theorem setSlice_dbg (n : Nat) (x : Sys2Proof.Slice) : (s.setSlice n x).dbg = s.dbg := rfl
@[simp] theorem setSlice_host (n : Nat) (x : Sys2Proof.Slice) : (s.setSlice n x).host = s.host := rfl
@[simp] theorem setSlice_link (n : Nat) (x : Sys2Proof.Slice) : (s.setSlice n x).link = s.link := rfl
@[simp] theorem setSlice_frm (n : Nat) (x : Sys2Proof.Slice) : (s.setSlice n x).frm = s.frm := rfl
@[simp] theorem setSlice_fen (n : Nat) (x : Sys2Proof.Slice) : (s.setSlice n x).fen = s.fen := rfl
@[simp] theorem setPc_pending (n : Nat) (x : PChan) : (s.setPc n x).pending = s.pending := rfl
@[simp] theorem setPc_freeCtr (n : Nat) (x : PChan) : (s.setPc n x).freeCtr = s.freeCtr := rfl
@[simp] theorem setPc_nextId (n : Nat) (x : PChan) : (s.setPc n x).nextId = s.nextId := rfl
@[simp] theorem setPc_outbox (n : Nat) (x : PChan) : (s.setPc n x).outbox = s.outbox := rfl
@[simp] theorem setPc_fuse (n : Nat) (x : PChan) : (s.setPc n x).fuse = s.fuse := rfl
@[simp] theorem setPc_hub (n : Nat) (x : PChan) : (s.setPc n x).hub = s.hub := rfl
@[simp] theorem setPc_oob (n : Nat) (x : PChan) : (s.setPc n x).oob = s.oob := rfl
@[simp] theorem setPc_img (n : Nat) (x : PChan) : (s.setPc n x).img = s.img := rfl
@[simp] theorem setPc_flash (n : Nat) (x : PChan) : (s.setPc n x).flash = s.flash := rfl
@[simp] theorem setPc_time (n : Nat) (x : PChan) : (s.setPc n x).time = s.time := rfl
@[simp] theorem setPc_wheels (n : Nat) (x : PChan) : (s.setPc n x).wheels = s.wheels := rfl
@[simp] theorem setPc_crier (n : Nat) (x : PChan) : (s.setPc n x).crier = s.crier := rfl
@[simp] theorem setPc_front (n : Nat) (x : PChan) : (s.setPc n x).front = s.front := rfl
@[simp] theorem setPc_rve (n : Nat) (x : PChan) : (s.setPc n x).rve = s.rve := rfl
@[simp] theorem setPc_dbg (n : Nat) (x : PChan) : (s.setPc n x).dbg = s.dbg := rfl
@[simp] theorem setPc_host (n : Nat) (x : PChan) : (s.setPc n x).host = s.host := rfl
@[simp] theorem setPc_link (n : Nat) (x : PChan) : (s.setPc n x).link = s.link := rfl
@[simp] theorem setPc_frm (n : Nat) (x : PChan) : (s.setPc n x).frm = s.frm := rfl
@[simp] theorem setPc_fen (n : Nat) (x : PChan) : (s.setPc n x).fen = s.fen := rfl
@[simp] theorem setStack_pending (n : Nat) (x : Stack) : (s.setStack n x).pending = s.pending := rfl
@[simp] theorem setStack_freeCtr (n : Nat) (x : Stack) : (s.setStack n x).freeCtr = s.freeCtr := rfl
@[simp] theorem setStack_nextId (n : Nat) (x : Stack) : (s.setStack n x).nextId = s.nextId := rfl
@[simp] theorem setStack_outbox (n : Nat) (x : Stack) : (s.setStack n x).outbox = s.outbox := rfl
@[simp] theorem setStack_fuse (n : Nat) (x : Stack) : (s.setStack n x).fuse = s.fuse := rfl
@[simp] theorem setStack_hub (n : Nat) (x : Stack) : (s.setStack n x).hub = s.hub := rfl
@[simp] theorem setStack_oob (n : Nat) (x : Stack) : (s.setStack n x).oob = s.oob := rfl
@[simp] theorem setStack_img (n : Nat) (x : Stack) : (s.setStack n x).img = s.img := rfl
@[simp] theorem setStack_flash (n : Nat) (x : Stack) : (s.setStack n x).flash = s.flash := rfl
@[simp] theorem setStack_time (n : Nat) (x : Stack) : (s.setStack n x).time = s.time := rfl
@[simp] theorem setStack_wheels (n : Nat) (x : Stack) : (s.setStack n x).wheels = s.wheels := rfl
@[simp] theorem setStack_crier (n : Nat) (x : Stack) : (s.setStack n x).crier = s.crier := rfl
@[simp] theorem setStack_front (n : Nat) (x : Stack) : (s.setStack n x).front = s.front := rfl
@[simp] theorem setStack_rve (n : Nat) (x : Stack) : (s.setStack n x).rve = s.rve := rfl
@[simp] theorem setStack_dbg (n : Nat) (x : Stack) : (s.setStack n x).dbg = s.dbg := rfl
@[simp] theorem setStack_host (n : Nat) (x : Stack) : (s.setStack n x).host = s.host := rfl
@[simp] theorem setStack_link (n : Nat) (x : Stack) : (s.setStack n x).link = s.link := rfl
@[simp] theorem setStack_frm (n : Nat) (x : Stack) : (s.setStack n x).frm = s.frm := rfl
@[simp] theorem setStack_fen (n : Nat) (x : Stack) : (s.setStack n x).fen = s.fen := rfl
@[simp] theorem setGrn_pending (n : Nat) (x : GrnPort) : (s.setGrn n x).pending = s.pending := rfl
@[simp] theorem setGrn_freeCtr (n : Nat) (x : GrnPort) : (s.setGrn n x).freeCtr = s.freeCtr := rfl
@[simp] theorem setGrn_nextId (n : Nat) (x : GrnPort) : (s.setGrn n x).nextId = s.nextId := rfl
@[simp] theorem setGrn_outbox (n : Nat) (x : GrnPort) : (s.setGrn n x).outbox = s.outbox := rfl
@[simp] theorem setGrn_fuse (n : Nat) (x : GrnPort) : (s.setGrn n x).fuse = s.fuse := rfl
@[simp] theorem setGrn_hub (n : Nat) (x : GrnPort) : (s.setGrn n x).hub = s.hub := rfl
@[simp] theorem setGrn_oob (n : Nat) (x : GrnPort) : (s.setGrn n x).oob = s.oob := rfl
@[simp] theorem setGrn_img (n : Nat) (x : GrnPort) : (s.setGrn n x).img = s.img := rfl
@[simp] theorem setGrn_flash (n : Nat) (x : GrnPort) : (s.setGrn n x).flash = s.flash := rfl
@[simp] theorem setGrn_time (n : Nat) (x : GrnPort) : (s.setGrn n x).time = s.time := rfl
@[simp] theorem setGrn_wheels (n : Nat) (x : GrnPort) : (s.setGrn n x).wheels = s.wheels := rfl
@[simp] theorem setGrn_crier (n : Nat) (x : GrnPort) : (s.setGrn n x).crier = s.crier := rfl
@[simp] theorem setGrn_front (n : Nat) (x : GrnPort) : (s.setGrn n x).front = s.front := rfl
@[simp] theorem setGrn_rve (n : Nat) (x : GrnPort) : (s.setGrn n x).rve = s.rve := rfl
@[simp] theorem setGrn_dbg (n : Nat) (x : GrnPort) : (s.setGrn n x).dbg = s.dbg := rfl
@[simp] theorem setGrn_host (n : Nat) (x : GrnPort) : (s.setGrn n x).host = s.host := rfl
@[simp] theorem setGrn_link (n : Nat) (x : GrnPort) : (s.setGrn n x).link = s.link := rfl
@[simp] theorem setGrn_frm (n : Nat) (x : GrnPort) : (s.setGrn n x).frm = s.frm := rfl
@[simp] theorem setGrn_fen (n : Nat) (x : GrnPort) : (s.setGrn n x).fen = s.fen := rfl
@[simp] theorem setFrame_pending (n : Nat) (x : Frame) : (s.setFrame n x).pending = s.pending := rfl
@[simp] theorem setFrame_freeCtr (n : Nat) (x : Frame) : (s.setFrame n x).freeCtr = s.freeCtr := rfl
@[simp] theorem setFrame_nextId (n : Nat) (x : Frame) : (s.setFrame n x).nextId = s.nextId := rfl
@[simp] theorem setFrame_outbox (n : Nat) (x : Frame) : (s.setFrame n x).outbox = s.outbox := rfl
@[simp] theorem setFrame_fuse (n : Nat) (x : Frame) : (s.setFrame n x).fuse = s.fuse := rfl
@[simp] theorem setFrame_hub (n : Nat) (x : Frame) : (s.setFrame n x).hub = s.hub := rfl
@[simp] theorem setFrame_oob (n : Nat) (x : Frame) : (s.setFrame n x).oob = s.oob := rfl
@[simp] theorem setFrame_img (n : Nat) (x : Frame) : (s.setFrame n x).img = s.img := rfl
@[simp] theorem setFrame_flash (n : Nat) (x : Frame) : (s.setFrame n x).flash = s.flash := rfl
@[simp] theorem setFrame_time (n : Nat) (x : Frame) : (s.setFrame n x).time = s.time := rfl
@[simp] theorem setFrame_wheels (n : Nat) (x : Frame) : (s.setFrame n x).wheels = s.wheels := rfl
@[simp] theorem setFrame_crier (n : Nat) (x : Frame) : (s.setFrame n x).crier = s.crier := rfl
@[simp] theorem setFrame_front (n : Nat) (x : Frame) : (s.setFrame n x).front = s.front := rfl
@[simp] theorem setFrame_rve (n : Nat) (x : Frame) : (s.setFrame n x).rve = s.rve := rfl
@[simp] theorem setFrame_dbg (n : Nat) (x : Frame) : (s.setFrame n x).dbg = s.dbg := rfl
@[simp] theorem setFrame_host (n : Nat) (x : Frame) : (s.setFrame n x).host = s.host := rfl
@[simp] theorem setFrame_link (n : Nat) (x : Frame) : (s.setFrame n x).link = s.link := rfl
@[simp] theorem setFrame_frm (n : Nat) (x : Frame) : (s.setFrame n x).frm = s.frm := rfl
@[simp] theorem setFrame_fen (n : Nat) (x : Frame) : (s.setFrame n x).fen = s.fen := rfl
@[simp] theorem setKey_pending (n : Nat) (x : KeySlot) : (s.setKey n x).pending = s.pending := rfl
@[simp] theorem setKey_freeCtr (n : Nat) (x : KeySlot) : (s.setKey n x).freeCtr = s.freeCtr := rfl
@[simp] theorem setKey_nextId (n : Nat) (x : KeySlot) : (s.setKey n x).nextId = s.nextId := rfl
@[simp] theorem setKey_outbox (n : Nat) (x : KeySlot) : (s.setKey n x).outbox = s.outbox := rfl
@[simp] theorem setKey_fuse (n : Nat) (x : KeySlot) : (s.setKey n x).fuse = s.fuse := rfl
@[simp] theorem setKey_hub (n : Nat) (x : KeySlot) : (s.setKey n x).hub = s.hub := rfl
@[simp] theorem setKey_oob (n : Nat) (x : KeySlot) : (s.setKey n x).oob = s.oob := rfl
@[simp] theorem setKey_img (n : Nat) (x : KeySlot) : (s.setKey n x).img = s.img := rfl
@[simp] theorem setKey_flash (n : Nat) (x : KeySlot) : (s.setKey n x).flash = s.flash := rfl
@[simp] theorem setKey_time (n : Nat) (x : KeySlot) : (s.setKey n x).time = s.time := rfl
@[simp] theorem setKey_wheels (n : Nat) (x : KeySlot) : (s.setKey n x).wheels = s.wheels := rfl
@[simp] theorem setKey_crier (n : Nat) (x : KeySlot) : (s.setKey n x).crier = s.crier := rfl
@[simp] theorem setKey_front (n : Nat) (x : KeySlot) : (s.setKey n x).front = s.front := rfl
@[simp] theorem setKey_rve (n : Nat) (x : KeySlot) : (s.setKey n x).rve = s.rve := rfl
@[simp] theorem setKey_dbg (n : Nat) (x : KeySlot) : (s.setKey n x).dbg = s.dbg := rfl
@[simp] theorem setKey_host (n : Nat) (x : KeySlot) : (s.setKey n x).host = s.host := rfl
@[simp] theorem setKey_link (n : Nat) (x : KeySlot) : (s.setKey n x).link = s.link := rfl
@[simp] theorem setKey_frm (n : Nat) (x : KeySlot) : (s.setKey n x).frm = s.frm := rfl
@[simp] theorem setKey_fen (n : Nat) (x : KeySlot) : (s.setKey n x).fen = s.fen := rfl
@[simp] theorem setColl_pending (n : Nat) (x : Collector) : (s.setColl n x).pending = s.pending := rfl
@[simp] theorem setColl_freeCtr (n : Nat) (x : Collector) : (s.setColl n x).freeCtr = s.freeCtr := rfl
@[simp] theorem setColl_nextId (n : Nat) (x : Collector) : (s.setColl n x).nextId = s.nextId := rfl
@[simp] theorem setColl_outbox (n : Nat) (x : Collector) : (s.setColl n x).outbox = s.outbox := rfl
@[simp] theorem setColl_fuse (n : Nat) (x : Collector) : (s.setColl n x).fuse = s.fuse := rfl
@[simp] theorem setColl_hub (n : Nat) (x : Collector) : (s.setColl n x).hub = s.hub := rfl
@[simp] theorem setColl_oob (n : Nat) (x : Collector) : (s.setColl n x).oob = s.oob := rfl
@[simp] theorem setColl_img (n : Nat) (x : Collector) : (s.setColl n x).img = s.img := rfl
@[simp] theorem setColl_flash (n : Nat) (x : Collector) : (s.setColl n x).flash = s.flash := rfl
@[simp] theorem setColl_time (n : Nat) (x : Collector) : (s.setColl n x).time = s.time := rfl
@[simp] theorem setColl_wheels (n : Nat) (x : Collector) : (s.setColl n x).wheels = s.wheels := rfl
@[simp] theorem setColl_ms (n : Nat) (x : Collector) : (s.setColl n x).ms = s.ms := rfl
@[simp] theorem setColl_front (n : Nat) (x : Collector) : (s.setColl n x).front = s.front := rfl
@[simp] theorem setColl_rve (n : Nat) (x : Collector) : (s.setColl n x).rve = s.rve := rfl
@[simp] theorem setColl_dbg (n : Nat) (x : Collector) : (s.setColl n x).dbg = s.dbg := rfl
@[simp] theorem setColl_host (n : Nat) (x : Collector) : (s.setColl n x).host = s.host := rfl
@[simp] theorem setColl_link (n : Nat) (x : Collector) : (s.setColl n x).link = s.link := rfl
@[simp] theorem setColl_frm (n : Nat) (x : Collector) : (s.setColl n x).frm = s.frm := rfl
@[simp] theorem setColl_fen (n : Nat) (x : Collector) : (s.setColl n x).fen = s.fen := rfl
@[simp] theorem setMbx_pending (n : Nat) (x : Mailbox) : (s.setMbx n x).pending = s.pending := rfl
@[simp] theorem setMbx_freeCtr (n : Nat) (x : Mailbox) : (s.setMbx n x).freeCtr = s.freeCtr := rfl
@[simp] theorem setMbx_nextId (n : Nat) (x : Mailbox) : (s.setMbx n x).nextId = s.nextId := rfl
@[simp] theorem setMbx_outbox (n : Nat) (x : Mailbox) : (s.setMbx n x).outbox = s.outbox := rfl
@[simp] theorem setMbx_fuse (n : Nat) (x : Mailbox) : (s.setMbx n x).fuse = s.fuse := rfl
@[simp] theorem setMbx_hub (n : Nat) (x : Mailbox) : (s.setMbx n x).hub = s.hub := rfl
@[simp] theorem setMbx_oob (n : Nat) (x : Mailbox) : (s.setMbx n x).oob = s.oob := rfl
@[simp] theorem setMbx_img (n : Nat) (x : Mailbox) : (s.setMbx n x).img = s.img := rfl
@[simp] theorem setMbx_flash (n : Nat) (x : Mailbox) : (s.setMbx n x).flash = s.flash := rfl
@[simp] theorem setMbx_time (n : Nat) (x : Mailbox) : (s.setMbx n x).time = s.time := rfl
@[simp] theorem setMbx_wheels (n : Nat) (x : Mailbox) : (s.setMbx n x).wheels = s.wheels := rfl
@[simp] theorem setMbx_ms (n : Nat) (x : Mailbox) : (s.setMbx n x).ms = s.ms := rfl
@[simp] theorem setMbx_crier (n : Nat) (x : Mailbox) : (s.setMbx n x).crier = s.crier := rfl
@[simp] theorem setMbx_front (n : Nat) (x : Mailbox) : (s.setMbx n x).front = s.front := rfl
@[simp] theorem setMbx_rve (n : Nat) (x : Mailbox) : (s.setMbx n x).rve = s.rve := rfl
@[simp] theorem setMbx_dbg (n : Nat) (x : Mailbox) : (s.setMbx n x).dbg = s.dbg := rfl
@[simp] theorem setMbx_link (n : Nat) (x : Mailbox) : (s.setMbx n x).link = s.link := rfl
@[simp] theorem setMbx_frm (n : Nat) (x : Mailbox) : (s.setMbx n x).frm = s.frm := rfl
@[simp] theorem setMbx_fen (n : Nat) (x : Mailbox) : (s.setMbx n x).fen = s.fen := rfl
@[simp] theorem wheel_setWheel_same (w : Nat) (x : Wheel) : (s.setWheel w x).wheel w = x := Tab.get_put_same _ _ _ _
theorem wheel_setWheel_other (w j : Nat) (x : Wheel) (h : j ≠ w) : (s.setWheel w x).wheel j = s.wheel j := Tab.get_put_other _ _ _ _ _ h
@[simp] theorem saggar_setSaggar_same (k : Nat) (x : Saggar) : (s.setSaggar k x).saggar k = x := Tab.get_put_same _ _ _ _
theorem saggar_setSaggar_other (k j : Nat) (x : Saggar) (h : j ≠ k) : (s.setSaggar k x).saggar j = s.saggar j := Tab.get_put_other _ _ _ _ _ h
@[simp] theorem stream_setStream_same (n : Nat) (x : Stream) : (s.setStream n x).stream n = x := Tab.get_put_same _ _ _ _
theorem stream_setStream_other (n j : Nat) (x : Stream) (h : j ≠ n) : (s.setStream n x).stream j = s.stream j := Tab.get_put_other _ _ _ _ _ h
@[simp] theorem slice_setSlice_same (n : Nat) (x : Sys2Proof.Slice) : (s.setSlice n x).slice n = x := Tab.get_put_same _ _ _ _
theorem slice_setSlice_other (n j : Nat) (x : Sys2Proof.Slice) (h : j ≠ n) : (s.setSlice n x).slice j = s.slice j := Tab.get_put_other _ _ _ _ _ h
@[simp] theorem pc_setPc_same (n : Nat) (x : PChan) : (s.setPc n x).pc n = x := Tab.get_put_same _ _ _ _
theorem pc_setPc_other (n j : Nat) (x : PChan) (h : j ≠ n) : (s.setPc n x).pc j = s.pc j := Tab.get_put_other _ _ _ _ _ h
@[simp] theorem stack_setStack_same (n : Nat) (x : Stack) : (s.setStack n x).stack n = x := Tab.get_put_same _ _ _ _
theorem stack_setStack_other (n j : Nat) (x : Stack) (h : j ≠ n) : (s.setStack n x).stack j = s.stack j := Tab.get_put_other _ _ _ _ _ h
@[simp] theorem grn_setGrn_same (n : Nat) (x : GrnPort) : (s.setGrn n x).grn n = x := Tab.get_put_same _ _ _ _
theorem grn_setGrn_other (n j : Nat) (x : GrnPort) (h : j ≠ n) : (s.setGrn n x).grn j = s.grn j := Tab.get_put_other _ _ _ _ _ h
theorem frame_setFrame_same (n : Nat) (x : Frame) (h : reserveFrame n = false) : (s.setFrame n x).frame n = x := by
  simp only [frame, setFrame, h]; exact Tab.get_put_same _ _ _ _
theorem frame_setFrame_other (n j : Nat) (x : Frame) (h : j ≠ n) : (s.setFrame n x).frame j = s.frame j := by
  unfold frame
  split
  · rfl
  · exact Tab.get_put_other _ _ _ _ _ h
@[simp] theorem key_setKey_same (n : Nat) (x : KeySlot) : (s.setKey n x).key n = x := Tab.get_put_same _ _ _ _
theorem key_setKey_other (n j : Nat) (x : KeySlot) (h : j ≠ n) : (s.setKey n x).key j = s.key j := Tab.get_put_other _ _ _ _ _ h
@[simp] theorem coll_setColl_same (n : Nat) (x : Collector) : (s.setColl n x).coll n = x := Tab.get_put_same _ _ _ _
theorem coll_setColl_other (n j : Nat) (x : Collector) (h : j ≠ n) : (s.setColl n x).coll j = s.coll j := Tab.get_put_other _ _ _ _ _ h
@[simp] theorem mbx_setMbx_same (n : Nat) (x : Mailbox) : (s.setMbx n x).mbx n = x := Tab.get_put_same _ _ _ _
theorem mbx_setMbx_other (n j : Nat) (x : Mailbox) (h : j ≠ n) : (s.setMbx n x).mbx j = s.mbx j := Tab.get_put_other _ _ _ _ _ h
@[simp] theorem wheel_modWheel_same (k : Nat) (f : Wheel → Wheel) : (s.modWheel k f).wheel k = f (s.wheel k) := Tab.get_put_same _ _ _ _
theorem wheel_modWheel_other (k j : Nat) (f : Wheel → Wheel) (h : j ≠ k) : (s.modWheel k f).wheel j = s.wheel j := Tab.get_put_other _ _ _ _ _ h
@[simp] theorem saggar_modSaggar_same (k : Nat) (f : Saggar → Saggar) : (s.modSaggar k f).saggar k = f (s.saggar k) := Tab.get_put_same _ _ _ _
theorem saggar_modSaggar_other (k j : Nat) (f : Saggar → Saggar) (h : j ≠ k) : (s.modSaggar k f).saggar j = s.saggar j := Tab.get_put_other _ _ _ _ _ h
@[simp] theorem stream_modStream_same (k : Nat) (f : Stream → Stream) : (s.modStream k f).stream k = f (s.stream k) := Tab.get_put_same _ _ _ _
theorem stream_modStream_other (k j : Nat) (f : Stream → Stream) (h : j ≠ k) : (s.modStream k f).stream j = s.stream j := Tab.get_put_other _ _ _ _ _ h

@[simp] theorem crew_setCrew_same (w k : Nat) (c : Crew) : (s.setCrew w k c).crew? w k = some c := by
  simp [setCrew, crew?]

theorem crew_setCrew_other (w k v j : Nat) (c : Crew) (h : v ≠ w ∨ j ≠ k) : (s.setCrew w k c).crew? v j = s.crew? v j := by
  unfold setCrew crew?
  by_cases hv : v = w
  · subst hv
    rw [wheel_modWheel_same, Tab.find_ins_other _ _ _ _ (by omega)]
  · rw [wheel_modWheel_other _ _ _ _ hv]

@[simp] theorem crew_modCrew_same (w k : Nat) (f : Crew → Crew) : (s.modCrew w k f).crew? w k = (s.crew? w k).map f := by
  simp [modCrew, crew?]

theorem crew_modCrew_other (w k v j : Nat) (f : Crew → Crew) (h : v ≠ w ∨ j ≠ k) : (s.modCrew w k f).crew? v j = s.crew? v j := by
  unfold modCrew crew?
  by_cases hv : v = w
  · subst hv
    rw [wheel_modWheel_same, Tab.find_modify_other _ _ _ _ (by omega)]
  · rw [wheel_modWheel_other _ _ _ _ hv]

end Sys2Proof.Machine.State
end

