-- ==== Sys2Proof/Laws/Counts.lean ====
section
/-!
SUPPORT. Tallies and records change nothing but counters (18 R600 to R606).
-/
namespace Sys2Proof.Machine

theorem WheelCounted.refl (x : Wheel) : WheelCounted x x := ⟨x.tallies, x.ctl.lastStamp, Nat.le_refl _, rfl⟩

theorem WheelCounted.trans {x y z : Wheel} (h : WheelCounted x y) (g : WheelCounted y z) : WheelCounted x z := by
  obtain ⟨a, m, hm, rfl⟩ := h
  obtain ⟨b, n, hn, rfl⟩ := g
  exact ⟨b, n, Nat.le_trans hm hn, rfl⟩

/-- Counting in one wheel, everything else as it was. -/
theorem CountsOnly.ofWheel (s : State) (w : Nat) (y : Wheel) (h : WheelCounted (s.wheel w) y) (n : Nat) (hn : s.freeCtr ≤ n) :
    CountsOnly s { s.setWheel w y with freeCtr := n } := by
  refine ⟨⟨_, s.front.saggars, s.dbg.queue, s.dbg.lost, s.dbg.gtallies, n, hn, rfl⟩, fun v => ?_, fun k => ⟨(s.saggar k).ledger, rfl⟩⟩
  show WheelCounted (s.wheel v) ((s.setWheel w y).wheel v)
  by_cases hv : v = w
  · subst hv
    rw [State.wheel_setWheel_same]
    exact h
  · rw [State.wheel_setWheel_other _ _ _ _ hv]
    exact WheelCounted.refl _

/-- Counting that no wheel sees. -/
theorem CountsOnly.ofDebug (s : State) (q : List Rec) (l : BitVec 64) (g : Tab Tally) :
    CountsOnly s { s with dbg := { s.dbg with queue := q, lost := l, gtallies := g } } :=
  ⟨⟨s.wheels, s.front.saggars, q, l, g, s.freeCtr, Nat.le_refl _, rfl⟩, fun w => WheelCounted.refl (s.wheel w),
    fun k => ⟨(s.saggar k).ledger, rfl⟩⟩

theorem CountsOnly.refl (s : State) : CountsOnly s s := CountsOnly.ofDebug s s.dbg.queue s.dbg.lost s.dbg.gtallies

theorem CountsOnly.trans {s t u : State} (h : CountsOnly s t) (g : CountsOnly t u) : CountsOnly s u := by
  obtain ⟨⟨ws, gs, q, l, gt, n, hn, rfl⟩, hw, hk⟩ := h
  obtain ⟨⟨ws', gs', q', l', gt', m, hm, rfl⟩, gw, gk⟩ := g
  refine ⟨⟨ws', gs', q', l', gt', m, Nat.le_trans hn hm, rfl⟩, fun w => (hw w).trans (gw w), fun k => ?_⟩
  obtain ⟨a, ha⟩ := hk k
  obtain ⟨b, hb⟩ := gk k
  exact ⟨b, by rw [hb, ha]⟩

theorem lostTally_counts (gts : DWord) (d : Debug) (i : Nat) (t : Tally) :
    ∃ q l g, lostTally gts d i t = { d with queue := q, lost := l, gtallies := g } := by
  unfold lostTally
  dsimp only
  split
  · exact ⟨_, _, _, rfl⟩
  · split <;> exact ⟨_, _, _, rfl⟩

theorem countLost_counts (s : State) (k : Option Nat) : CountsOnly s (countLost s k) := by
  have key : ∀ (l : Tab Tally) (d : Debug), ∃ q n g,
      l.foldl (fun d p => if globalHits p.2 0x010 k then lostTally s.time.gts d p.1 p.2 else d) d =
        { d with queue := q, lost := n, gtallies := g } := by
    intro l
    induction l with
    | nil => exact fun d => ⟨_, _, _, rfl⟩
    | cons e l ih =>
      intro d
      rw [List.foldl_cons]
      split
      · obtain ⟨q, n, g, h⟩ := lostTally_counts s.time.gts d e.1 e.2
        obtain ⟨q', n', g', h'⟩ := ih (lostTally s.time.gts d e.1 e.2)
        rw [h', h]
        exact ⟨_, _, _, rfl⟩
      · exact ih d
  unfold countLost
  dsimp only
  split
  · exact CountsOnly.ofDebug s _ _ _
  · obtain ⟨q, n, g, h⟩ := key s.dbg.gtallies { s.dbg with lost := s.dbg.lost + 1 }
    rw [h]
    exact CountsOnly.ofDebug s _ _ _

theorem loseTo_counts (s : State) (k : Nat) (r : Rec) : CountsOnly s (loseTo s k r) := by
  unfold loseTo
  refine (countLost_counts s (some k)).trans ?_
  generalize countLost s (some k) = u
  dsimp only
  split
  · exact CountsOnly.refl u
  · split
    · refine ⟨⟨_, _, _, _, _, _, Nat.le_refl _, rfl⟩, fun w => WheelCounted.refl (u.wheel w), fun j => ?_⟩
      by_cases h : j = k
      · subst h
        exact ⟨_, by rw [State.saggar_modSaggar_same]⟩
      · exact ⟨(u.saggar j).ledger, by rw [State.saggar_modSaggar_other _ _ _ _ h]⟩
    · exact CountsOnly.refl u

theorem foldl_counts {α : Type} (f : State → α → State) (h : ∀ s a, CountsOnly s (f s a)) :
    ∀ (l : List α) (s : State), CountsOnly s (l.foldl f s)
  | [], s => CountsOnly.refl s
  | a :: l, s => (h s a).trans (foldl_counts f h l (f s a))

theorem offer_counts (s : State) (r : Rec) : CountsOnly s (offer s r) := by
  unfold offer
  split
  · exact CountsOnly.ofDebug s _ _ _
  · have h := foldl_counts (fun s k => loseTo s k r) (fun s k => loseTo_counts s k r) r.dests s
    dsimp only
    split
    · exact h.trans (countLost_counts _ _)
    · exact h

/-- The stamp of an event counts, and lies between the wheel's clock and one tick more, never below an earlier stamp (02 R46, R47). -/
theorem wheelStamp_spec (s : State) (w : Nat) :
    CountsOnly s (wheelStamp s w).2 ∧ max s.gts (s.wheel w).ctl.lastStamp ≤ (wheelStamp s w).1 ∧
      (wheelStamp s w).1 ≤ max (s.gts + 1) (s.wheel w).ctl.lastStamp ∧
      ((s.wheel w).ctl.period ≤ 4 → (wheelStamp s w).1 = max s.gts (s.wheel w).ctl.lastStamp) := by
  have go : ∀ g n, (s.wheel w).ctl.lastStamp ≤ g → s.freeCtr ≤ n →
      CountsOnly s { s.setWheel w { s.wheel w with ctl := { (s.wheel w).ctl with lastStamp := g } } with freeCtr := n } :=
    fun g n h hn => CountsOnly.ofWheel s w _ ⟨_, g, h, rfl⟩ n hn
  unfold wheelStamp
  dsimp only
  split
  · exact ⟨go _ s.freeCtr (Nat.le_max_right _ _) (Nat.le_refl _), Nat.le_refl _, by omega, fun _ => rfl⟩
  · refine ⟨go _ (s.freeCtr + 1) (Nat.le_max_right _ _) (Nat.le_succ _), ?_, ?_, fun h => absurd h ‹_›⟩
    · have : s.free.2.gts = s.gts := rfl
      dsimp only; split <;> omega
    · have : s.free.2.gts = s.gts := rfl
      dsimp only; split <;> omega

theorem wheelStamp_counts (s : State) (w : Nat) : CountsOnly s (wheelStamp s w).2 := (wheelStamp_spec s w).1

theorem record_counts (s : State) (type source saggar : Nat) (p : BitVec 128) (ds : List Nat) (m : Bool) (ly op : Nat) :
    CountsOnly s (record s type source saggar p ds m ly op) := by
  unfold record
  split
  · exact (wheelStamp_counts s source).trans (offer_counts _ _)
  · exact offer_counts _ _

theorem tallyAdd_counts (s : State) (g : Bool) (w i : Nat) (t : Tally) (n : Nat) : CountsOnly s (tallyAdd s g w i t n) := by
  have key : ∀ t' : Tally, CountsOnly s (if g = true then { s with dbg := { s.dbg with gtallies := Tab.put {} s.dbg.gtallies i t' } }
      else s.modWheel w fun x => { x with tallies := Tab.put {} x.tallies i t' }) := by
    intro t'
    split
    · exact CountsOnly.ofDebug s _ _ _
    · exact CountsOnly.ofWheel s w _ ⟨_, _, Nat.le_refl _, rfl⟩ s.freeCtr (Nat.le_refl _)
  unfold tallyAdd
  dsimp only
  split
  · exact (key _).trans (record_counts _ _ _ _ _ _ _ _ _)
  · exact key _

theorem tally_counts (s : State) (w e k ly op n : Nat) : CountsOnly s (tally s w e k ly op n) := by
  unfold tally
  split
  · exact CountsOnly.refl s
  · refine foldl_counts _ (fun s p => ?_) _ _
    split
    · exact tallyAdd_counts _ _ _ _ _ _
    · exact CountsOnly.refl s

theorem tallyCrew_counts (s : State) (w : Nat) (c : Crew) (e n : Nat) : CountsOnly s (tallyCrew s w c e n) := tally_counts _ _ _ _ _ _ _

theorem gtally_counts (s : State) (e : Nat) (k : Option Nat) (n : Nat) : CountsOnly s (gtally s e k n) := by
  unfold gtally
  split
  · exact CountsOnly.refl s
  · refine foldl_counts _ (fun s p => ?_) _ _
    split
    · exact tallyAdd_counts _ _ _ _ _ _
    · exact CountsOnly.refl s

/-- Counting leaves every crew as it was. -/
theorem CountsOnly.crew {s t : State} (h : CountsOnly s t) (w k : Nat) : t.crew? w k = s.crew? w k := by
  obtain ⟨ts, n, -, ht⟩ := h.2.1 w
  simp [State.crew?, ht]

end Sys2Proof.Machine
end

