-- ==== Sys2Proof/Laws/Issue.lean ====
section
/-!
SUPPORT. What issuing an instruction does (03 R74 to R87), said once: its crew and path, its registers, and nothing else.
-/
namespace Sys2Proof.Machine

theorem mem_lanesOf (m : Word) (l : Nat) : l ∈ lanesOf m ↔ l < 32 ∧ m.getLsbD l = true := by simp [lanesOf]

theorem reg_setReg (c : Crew) (l r k q : Nat) (v : Word) (hr : r < 256) (hq : q < 256) :
    reg (setReg c l r v) k q = if k = l ∧ q = r then v else reg c k q := by
  unfold reg setReg
  split
  · rename_i h
    obtain ⟨rfl, rfl⟩ := h
    simp
  · exact Tab.get_put_other _ _ _ _ _ (by omega)

theorem reg_foldl (r : Nat) (v : Nat → Word) (hr : r < 256) : ∀ (ls : List Nat) (c : Crew) (k q : Nat), q < 256 →
    reg (ls.foldl (fun d l => setReg d l r (v l)) c) k q = if k ∈ ls ∧ q = r then v k else reg c k q := by
  intro ls
  induction ls with
  | nil => intro c k q _; simp
  | cons a ls ih =>
    intro c k q hq
    rw [List.foldl_cons, ih _ _ _ hq, reg_setReg _ _ _ _ _ _ hr hq]
    by_cases h1 : k ∈ ls <;> by_cases h2 : q = r <;> by_cases h3 : k = a <;> simp_all

/-- Registers are all that a fold of register writes changes. -/
theorem foldl_setReg_only (r : Nat) (v : Nat → Word) : ∀ (ls : List Nat) (c : Crew),
    ls.foldl (fun d l => setReg d l r (v l)) c = { c with regs := (ls.foldl (fun d l => setReg d l r (v l)) c).regs } := by
  intro ls
  induction ls with
  | nil => intro c; rfl
  | cons a ls ih => intro c; rw [List.foldl_cons, ih]; rfl

theorem noteIssue_counts (s : State) (i : Issue) (c : Crew) (x : CPath) :
    CountsOnly ((turn s i c x).setCrew i.wheel i.slot (noted i c x)) (noteIssue s i c x) := by
  unfold noteIssue
  have h : CountsOnly _ _ := tallyCrew_counts ((turn s i c x).setCrew i.wheel i.slot (noted i c x)) i.wheel c (0x001 + 16 * c.part) 1
  dsimp only
  split
  · exact h.trans (tallyCrew_counts _ _ _ _ _)
  · exact h

theorem noteIssue_crew (s : State) (i : Issue) (c : Crew) (x : CPath) : (noteIssue s i c x).crew? i.wheel i.slot = some (noted i c x) := by
  rw [(noteIssue_counts s i c x).crew]
  simp

/-- An instruction that issues runs its body on the crew as noted. -/
theorem issueIf_next {ok : PathWait → Bool} {go : State → Crew → CPath → Word → Bool} {i : Issue} {f : Form}
    {body : State → Crew → CPath → Word → State} {s : State} {c : Crew} {x : CPath} (h : Issues s i ok f c x)
    (hg : go s c x (guardMask c x i) = true) :
    issueIf ok go i f body s = commit s (body (noteIssue s i c x) (noted i c x) x (guardMask c x i)) := by
  obtain ⟨h1, h2, h3, h4, h5⟩ := h
  have h1' : (decide (i.wheel < 192) && decide (i.slot < 64) && decide (i.path < 32)) = true := h1
  have hm : guardMask (noted i c x) x i = guardMask c x i := rfl
  simp [issueIf, act, h1', h2, h3, h4, h5, hg, noteIssue_crew, hm]

theorem issue_next {i : Issue} {f : Form} {body : State → Crew → CPath → Word → State} {s : State} {c : Crew} {x : CPath}
    (h : Issues s i isReady f c x) :
    issue i f body s = commit s (body (noteIssue s i c x) (noted i c x) x (guardMask c x i)) := issueIf_next h rfl

theorem issuer_path {s : State} {i : Issue} {ok : PathWait → Bool} {c : Crew} {x : CPath} (h : issuer s i ok = some (c, x)) :
    path? c i.path = some x ∧ s.crew? i.wheel i.slot = some c := by
  unfold issuer at h
  split at h
  · split at h
    · cases h
    · split at h
      · cases h
      · dsimp only at h
        split at h
        · cases h; exact ⟨‹_›, ‹_›⟩
        · cases h
  · cases h

theorem setCrew_setCrew (s : State) (w k : Nat) (c d : Crew) (v j : Nat) :
    ((s.setCrew w k c).setCrew w k d).crew? v j = (s.setCrew w k d).crew? v j := by
  by_cases h : v ≠ w ∨ j ≠ k
  · rw [State.crew_setCrew_other _ _ _ _ _ _ h, State.crew_setCrew_other _ _ _ _ _ _ h, State.crew_setCrew_other _ _ _ _ _ _ h]
  · have : v = w ∧ j = k := by omega
    obtain ⟨rfl, rfl⟩ := this
    simp

theorem Tab.ins_ins {α : Type} (t : Tab α) (k : Nat) (a b : α) : Tab.ins (Tab.ins t k a) k b = Tab.ins t k b := by
  induction t with
  | nil => simp [Tab.ins]
  | cons e t ih =>
    obtain ⟨j, c⟩ := e
    by_cases h1 : k < j
    · simp [Tab.ins, h1]
    · by_cases h2 : k = j
      · subst h2; simp [Tab.ins]
      · simp [Tab.ins, h1, h2, ih]

/-- Setting a crew after counting, where it had been set before. -/
theorem CountsOnly.setCrew {s t : State} {w k : Nat} {c : Crew} (h : CountsOnly (s.setCrew w k c) t) (d : Crew) :
    CountsOnly (s.setCrew w k d) (t.setCrew w k d) := by
  obtain ⟨⟨ws, gs, q, l, g, n, hn, rfl⟩, hw, hk⟩ := h
  refine ⟨⟨_, gs, q, l, g, n, hn, rfl⟩, fun v => ?_, fun j => hk j⟩
  obtain ⟨ts, m, hm, ht⟩ := hw v
  by_cases hv : v = w
  · subst hv
    simp only [State.setCrew, State.wheel_modWheel_same] at ht hm ⊢
    refine ⟨ts, m, hm, ?_⟩
    rw [ht]
    simp [Tab.ins_ins]
  · simp only [State.setCrew, State.wheel_modWheel_other _ _ _ _ hv] at ht hm ⊢
    exact ⟨ts, m, hm, ht⟩

theorem commit_counts {s u t : State} (hp : u.pending = s.pending) (hf : u.fuse = s.fuse) (h : CountsOnly u t) :
    commit s t = .next t := by
  obtain ⟨⟨ws, gs, q, l, g, n, -, rfl⟩, -, -⟩ := h
  simp only [commit, ← hp, ← hf]

/-- An instruction whose body writes one register of each executing thread and goes on. -/
theorem writesReg_of_lanewise {i : Issue} {f : Form} {s : State} {c : Crew} {x : CPath} (v : Crew → Nat → Word)
    (hv : ∀ l, v (noted i c x) l = v c l) (h : Issues s i isReady f c x) :
    ∃ t, issue i f (lanewise i fun c d l => setReg d l (da i) (v c l)) s = .next t ∧ WritesReg i c x (v c) s t := by
  have hp := issuer_path h.2.1
  rw [issue_next h]
  let e := noted i c x
  let d0 := (lanesOf (guardMask c x i)).foldl (fun d l => setReg d l (da i) (v e l)) e
  let d := pathNext d0 i.path
  have hreg : d0 = { e with regs := d0.regs } := foldl_setReg_only (da i) (fun l => v e l) _ e
  have hco := (noteIssue_counts s i c x).setCrew d
  have hd : d = pathNext { e with regs := d0.regs } i.path := congrArg (fun y => pathNext y i.path) hreg
  refine ⟨(noteIssue s i c x).setCrew i.wheel i.slot d, ?_, d, ?_, ?_, ?_, (hco.crew _ _).trans (by simp), hco⟩
  · exact commit_counts (u := (turn s i c x).setCrew i.wheel i.slot d) rfl rfl hco
  · intro l q hl hq
    have := reg_foldl (da i) (fun l => v e l) (by unfold da; omega) (lanesOf (guardMask c x i)) e l q hq
    show reg d0 l q = _
    rw [this]
    simp only [mem_lanesOf, hl, true_and]
    congr 1
    exact hv l
  · have hpaths : d.paths = Tab.modify (Tab.modify c.paths i.path fun y => { y with run := if c.lastPath = some i.path then x.run + 1 else 1 })
        i.path fun x => { x with pc := x.pc + 8 } := by
      show Tab.modify d0.paths _ _ = _
      rw [hreg]; rfl
    refine ⟨?_, ?_, ?_⟩
    · have h0 : Tab.find c.paths i.path = some x := hp.1
      simp [path?, hpaths, h0]
    · intro q hq
      simp [path?, hpaths, Tab.find_modify_other _ _ _ _ hq]
    · show d0.lastPath = _
      rw [hreg]; rfl
  · rw [hd]; rfl

theorem reg_noted (i : Issue) (c : Crew) (x : CPath) (l r : Nat) : reg (noted i c x) l r = reg c l r := rfl
theorem predOf_noted (i : Issue) (c : Crew) (x : CPath) (l r : Nat) : predOf (noted i c x) l r = predOf c l r := rfl

end Sys2Proof.Machine
end

