-- ==== Sys2Proof/Laws/Memory.lean ====
section
/-!
SUPPORT. Device memory: a byte read after a write, every other byte kept, and the canonical form kept by every operation that writes memory.
-/
namespace Sys2Proof.Machine

@[simp] theorem memByte_memPut1_same (s : State) (pa : Nat) (b : Byte) : memByte (memPut1 s pa b) pa = b := by simp [memByte, memPut1]

theorem memByte_memPut1_other (s : State) (pa a : Nat) (b : Byte) (h : a ≠ pa) : memByte (memPut1 s pa b) a = memByte s a :=
  Tab.get_put_other _ _ _ _ _ h

/-- A byte after bytes are written from `pa` on. -/
theorem memByte_memPut (l : List Byte) : ∀ (s : State) (pa a : Nat),
    memByte (memPut s pa l) a = if pa ≤ a ∧ a < pa + l.length then l.getD (a - pa) 0 else memByte s a := by
  induction l with
  | nil => intro s pa a; simp [memPut] <;> omega
  | cons b l ih =>
    intro s pa a
    rw [memPut, ih]
    by_cases h : a = pa
    · subst h
      rw [if_neg (by omega), memByte_memPut1_same, if_pos (by simp), Nat.sub_self]
      rfl
    · rw [memByte_memPut1_other _ _ _ _ h]
      by_cases h1 : pa + 1 ≤ a ∧ a < pa + 1 + l.length
      · rw [if_pos h1, if_pos (by simp; omega), show a - pa = a - (pa + 1) + 1 by omega]; rfl
      · rw [if_neg h1, if_neg (by simp; omega)]

/-- Reset memory has the canonical form. -/
theorem reset_wf : Memory.wf State.reset.ms.mem = true := rfl

theorem memPut1_wf (s : State) (pa : Nat) (b : Byte) (h : Memory.wf s.ms.mem = true) : Memory.wf (memPut1 s pa b).ms.mem = true :=
  Tab.canon_put _ _ _ _ h

theorem memPut_wf (l : List Byte) : ∀ (s : State) (pa : Nat), Memory.wf s.ms.mem = true → Memory.wf (memPut s pa l).ms.mem = true := by
  induction l with
  | nil => intro s pa h; exact h
  | cons b l ih => intro s pa h; exact ih _ _ (memPut1_wf s pa b h)

theorem zeroFrames_wf (s : State) (p : Nat → Bool) (h : Memory.wf s.ms.mem = true) : Memory.wf (zeroFrames s p).ms.mem = true :=
  Tab.canon_filter _ _ _ none h

theorem cleared_wf (s : State) : Memory.wf (cleared s).ms.mem = true := rfl

/-! ### What does not write memory -/

theorem CountsOnly.ms {s t : State} (h : CountsOnly s t) : t.ms = s.ms := by
  obtain ⟨⟨_, _, _, _, _, _, -, rfl⟩, -, -⟩ := h
  rfl

theorem foldl_ms {α β : Type} (g : State → β) (f : State → α → State) (h : ∀ s a, g (f s a) = g s) :
    ∀ (l : List α) (s : State), g (l.foldl f s) = g s
  | [], _ => rfl
  | a :: l, s => (foldl_ms g f h l (f s a)).trans (h s a)

theorem record_ms (s : State) (type source saggar : Nat) (p : BitVec 128) (ds : List Nat) (m : Bool) (ly op : Nat) :
    (record s type source saggar p ds m ly op).ms = s.ms := (record_counts s type source saggar p ds m ly op).ms

theorem gtally_ms (s : State) (e : Nat) (k : Option Nat) (n : Nat) : (gtally s e k n).ms = s.ms := (gtally_counts s e k n).ms

theorem wheelStamp_ms (s : State) (w : Nat) : (wheelStamp s w).2.ms = s.ms := (wheelStamp_counts s w).ms

theorem recordWheel_ms (s : State) (w type k : Nat) (p : BitVec 128) (m : Bool) (ly op : Nat) : (recordWheel s w type k p m ly op).ms = s.ms :=
  record_ms ..

theorem staleWait_ms (s : State) (w : Wait) (c : Word) : (staleWait s w c).ms = s.ms := by
  unfold staleWait
  dsimp only
  split
  · split <;> exact recordWheel_ms ..
  · exact record_ms ..
  · rfl

theorem judgeWait_ms (s : State) (id : Nat) (w : Wait) (c : Word) (o : WaitSt) : (judgeWait s id w c o).ms = s.ms := by
  unfold judgeWait
  split
  · rfl
  · exact staleWait_ms ..
  · rfl

theorem judgeWord_ms (s : State) (pa : Nat) : (judgeWord s pa).ms = s.ms := by
  refine foldl_ms State.ms _ (fun s e => ?_) _ s
  split
  · exact judgeWait_ms ..
  · rfl

theorem offerTail_ms (s : State) (n : Nat) (t : Word) : (offerTail s n t).ms = s.ms := by
  unfold offerTail
  dsimp only
  split
  · split
    · exact gtally_ms ..
    · exact (gtally_ms ..).trans (record_ms ..)
  · rfl

theorem takeTail_ms (s : State) (id : Nat) (w : Wait) (v : Word) : (takeTail s id w v).ms = s.ms := by
  unfold takeTail
  split
  · exact offerTail_ms ..
  · rfl

theorem noteTail_ms (s : State) (pa : Nat) : (noteTail s pa).ms = s.ms := by
  refine foldl_ms State.ms _ (fun s e => ?_) _ s
  split
  · exact takeTail_ms ..
  · rfl

theorem frozenWritten_ms (s : State) (k pa : Nat) : (frozenWritten s k pa).ms = s.ms := by
  unfold frozenWritten
  dsimp only
  refine (foldl_ms State.ms _ (fun s e => ?_) _ _).trans rfl
  split
  · exact record_ms ..
  · rfl

theorem markDirty_mem (s : State) (pa : Nat) : (markDirty s pa).ms.mem = s.ms.mem := by
  unfold markDirty
  dsimp only
  split
  · rw [frozenWritten_ms]
  · rfl

theorem touchLine_mem (s : State) (pa : Nat) (w : Bool) (c : Nat) : (touchLine s pa w c).ms.mem = s.ms.mem := by
  unfold touchLine
  dsimp only
  have e : ∀ (n : Nat) (k : Option Nat) (j : Nat) (x : Sys2Proof.Slice), ((gtally s n k).setSlice j x).ms.mem = s.ms.mem := by
    intro n k j x
    show (gtally s n k).ms.mem = s.ms.mem
    rw [gtally_ms]
  split
  · exact e _ _ _ _
  · split
    · exact congrArg MemSys.mem (gtally_ms ..)
    · exact e _ _ _ _

theorem afterWrite_mem (s : State) (pa n : Nat) : (afterWrite s pa n).ms.mem = s.ms.mem := by
  unfold afterWrite
  rw [markDirty_mem]
  exact congrArg MemSys.mem (foldl_ms State.ms _ (fun s a => (noteTail_ms _ _).trans (judgeWord_ms _ _)) _ s)

/-- A performed write stores its bytes and no other. -/
theorem performWrite_mem (s : State) (pa : Nat) (bs : List Byte) (c : Nat) : (performWrite s pa bs c).ms.mem = (memPut s pa bs).ms.mem := by
  have e : ∀ (l : List Byte) (s t : State) (a : Nat), s.ms.mem = t.ms.mem → (memPut s a l).ms.mem = (memPut t a l).ms.mem := by
    intro l
    induction l with
    | nil => intro s t a h; exact h
    | cons b l ih => intro s t a h; exact ih _ _ _ (by simp only [memPut1, h])
  unfold performWrite
  dsimp only
  rw [afterWrite_mem, touchLine_mem]
  split
  · exact e _ _ _ _ rfl
  · rfl

theorem performWrite_wf (s : State) (pa : Nat) (bs : List Byte) (c : Nat) (h : Memory.wf s.ms.mem = true) :
    Memory.wf (performWrite s pa bs c).ms.mem = true := by
  rw [performWrite_mem]
  exact memPut_wf _ _ _ h

end Sys2Proof.Machine
end

