-- ==== Sys2Proof/Machine/Pins.lean ====
section
/-!
DEFINITION. Levels of the output pins, which follow from the state (20 R659, R660).
-/
namespace Sys2Proof.Machine

/-- MOD_ALERT_N is driven low (20 R659). -/
def alertLow (s : State) : Bool :=
  s.hub.state == .fencedHalf || s.hub.state == .failed ||
    (s.hub.state != .off && (s.rve.throttle || s.rve.clamp))

/-- CTG_RESET_N of cage `c` is driven low and CTG_LPMODE high: its port is OFF or FENCED and has not asked for bring-up
(20 R660). -/
def cageHeld (s : State) (c : Nat) : Bool :=
  let x := s.port (24 + c)
  s.hub.state != .off && (x.st == .off || x.st == .fenced) && !x.asked

end Sys2Proof.Machine
end

