-- ==== Sys2Proof/Tests/Slice0.lean ====
section
/-!
SUPPORT. A concrete state and operands that meet the hypotheses of every statement, clause by clause (witness_<statement>_<clause>); ill-formed
commands that each check refuses; instruction words of every class; results of single commands.
-/
namespace Sys2Proof.Tests
set_option maxRecDepth 100000
set_option Elab.async false
open Sys2Proof.Machine

/-- One 64 KiB page at address 0, and a thread's worth of resources. -/
def page : Mapping := { size := 65536, pa := 0, write := true, exec := true }
def crew (rs : Tab Word) : Crew :=
  { saggar := 1, stream := 7, uid := 1, res := { g := 32, t := 16, a := 16, l := 1, s := 4 }, regs := rs
    paths := [(31, { mask := 0xFFFFFFFF })] }
def path : CPath := { mask := 0xFFFFFFFF }
/-- A crew with one live thread. -/
def lone (rs : Tab Word) : Crew := { crew rs with live := 1, paths := [(31, { mask := 1 })] }
def lonePath : CPath := { mask := 1 }
/-- The last slot of the last wheel holds the crew; saggar 1 is ON, and so is its stream 7. -/
def module (c : Crew) : State :=
  { hub := { state := .ready }, time := { locked := true }, wheels := [(191, { crews := [(63, c)] })]
    front := { saggars := [(1, { st := .on, maps := [(0, page)], cfg := { groupBells := 4, layerCount := 2 } })]
               streams := [(7, { st := 1, saggar := 1 })] } }
/-- An instruction of that crew's path: DA, SA, SB, X. -/
def ins (da sa sb x : Nat) : Issue :=
  { wheel := 191, slot := 63, path := 31, da := .ofNat 8 da, sa := .ofNat 8 sa, sb := .ofNat 8 sb, x := .ofNat 24 x }

/-- The state that reading a command leaves. -/
def seen (s : State) (n : Nat) : State := (readUnits s n (s.stream n) (s.stream n).beginPos 1).2

/-- Reading one unit gives `c`. -/
def gives (s : State) (n : Nat) (c : List Byte) : Bool :=
  match (readUnits s n (s.stream n) (s.stream n).beginPos 1).1 with
  | .got l => decide (l = c)
  | _ => false

theorem gives_eq {s : State} {n : Nat} {c : List Byte} (h : gives s n c = true) :
    readUnits s n (s.stream n) (s.stream n).beginPos 1 = (.got c, seen s n) := by
  unfold gives at h
  split at h
  · rename_i e
    rw [decide_eq_true_eq] at h
    exact Prod.ext (e.trans (by rw [h])) rfl
  · cases h

/-- `CmdBegins` of a command of one unit, as one check. -/
def beginsNow (s : State) (n op : Nat) (c : List Byte) (wait : State → Stream → List Byte → Bool)
    (bad : State → Stream → List Byte → Option Nat) : Bool :=
  decide (n < 2 ^ 20) && s.serving && !s.frozen && mayBegin s n && decide (cmdOp c = op) && decide (op ≤ 11) &&
  decide (cmdSize c = 1) && decide (ownSize c = 1) && decide (1 ≤ availUnits (s.stream n)) &&
  decide (headerFault (seen s n) (s.stream n) c = none) &&
  (!(cmdBarrier c || op == 2 || op == 4 || op == 5 || op == 11) || allDone (s.stream n)) &&
  !wait s (s.stream n) c && decide (bad (seen s n) (s.stream n) c = none) && gives s n c

theorem begins_of {s : State} {n op : Nat} {c : List Byte} {wait : State → Stream → List Byte → Bool}
    {bad : State → Stream → List Byte → Option Nat} (h : beginsNow s n op c wait bad = true) : CmdBegins s (seen s n) n op c wait bad := by
  simp only [beginsNow, Bool.and_eq_true, decide_eq_true_eq, Bool.not_eq_true'] at h
  obtain ⟨⟨⟨⟨⟨⟨⟨⟨⟨⟨⟨⟨⟨a, b⟩, d⟩, e⟩, f⟩, g⟩, i⟩, j⟩, k⟩, l⟩, m⟩, o⟩, p⟩, q⟩ := h
  refine ⟨a, b, d, e, ⟨c, seen s n, gives_eq q, f, g, by rw [i, j], by rw [i]; exact k, by rw [i]; exact gives_eq q⟩, l, fun hb => ?_, o, p⟩
  rw [hb] at m
  simpa using m

/-- `accessOk` as one check. -/
theorem access_of {s : State} {k n : Nat} {w : Bool} {l : List DWord}
    (h : ((l.all fun a => decide (a.toNat % n = 0)) && (firstFault s k w n l).isNone) = true) : accessOk s k w n l := by
  rw [Bool.and_eq_true, List.all_eq_true, Option.isNone_iff_eq_none] at h
  exact ⟨fun a ha => of_decide_eq_true (h.1 a ha), h.2⟩

/-- `StoreIds` as one check. -/
theorem ids_of {s : State} {w : Nat} {c : Crew}
    (h : (decide ((s.wheel w).mem.store.map StoreEntry.id).Nodup && ((s.wheel w).mem.store.all fun e => decide (e.id < s.nextId)) &&
      c.paths.all fun p => match p.2.wait with
        | .fence k => k != s.nextId
        | .arrive k _ _ => k != s.nextId
        | _ => true) = true) : StoreIds s w c := by
  simp only [Bool.and_eq_true, decide_eq_true_eq, List.all_eq_true] at h
  refine ⟨h.1.1, h.1.2, fun p hp => ?_⟩
  have k := h.2 p hp
  constructor <;> intros <;> rintro e <;> simp [e] at k

def two : Crew := crew [(1, 5), (2, 3)]
theorem witness_IdleTick :
    (module (crew [])).pending = [] ∧ (module (crew [])).time.locked = true :=
  by and_intros <;> first | decide +kernel | rfl

theorem witness_IdleTick_unlocked :
    { : State }.pending = [] ∧ { : State }.time.locked = false :=
  by and_intros <;> first | decide +kernel | rfl

theorem witness_FusesOneWay :
    step State.reset = Host.Outcome.next State.reset :=
  by first | decide +kernel | rfl

theorem witness_QueueLeftAlone :
    exec Instr.rootPllLock State.reset = Host.Outcome.next State.reset :=
  by first | decide +kernel | rfl

theorem witness_NelolWords_code :
    nelolOp 38 0 ≠ none :=
  by decide +kernel

def addIs := (alu2Spec (.add (ins 31 1 2 0))).get rfl
theorem witness_IntegerResults :
    alu2Spec (Instr.add (ins 31 1 2 0)) = some (addIs.fst, addIs.snd) ∧
    Issues (module two) addIs.fst isReady { legal := addIs.fst.x == 0, regs := [da addIs.fst, sa addIs.fst, sb addIs.fst] : Form } two
      path :=
  ⟨rfl, by unfold Issues; and_intros <;> first | decide +kernel | rfl⟩

def addiIs := (aluImmSpec (.addi (ins 3 1 0 0xFFFFFF))).get rfl
theorem witness_IntegerResults_immediate :
    aluImmSpec (Instr.addi (ins 3 1 0 16777215)) = some (addiIs.fst, addiIs.snd.fst, addiIs.snd.snd) ∧
    Issues (module two) addiIs.fst isReady
      { legal := addiIs.snd.fst && addiIs.fst.sb == 0, regs := [da addiIs.fst, sa addiIs.fst] : Form } two path :=
  ⟨rfl, by unfold Issues; and_intros <;> first | decide +kernel | rfl⟩

def shliIs := (aluImmSpec (.shli (ins 3 1 0 31))).get rfl
theorem witness_IntegerResults_shift :
    aluImmSpec (Instr.shli (ins 3 1 0 31)) = some (shliIs.fst, shliIs.snd.fst, shliIs.snd.snd) ∧
    Issues (module two) shliIs.fst isReady
      { legal := shliIs.snd.fst && shliIs.fst.sb == 0, regs := [da shliIs.fst, sa shliIs.fst] : Form } two path :=
  ⟨rfl, by unfold Issues; and_intros <;> first | decide +kernel | rfl⟩

def popcIs := (aluOtherSpec (.popc (ins 3 1 0 0))).get rfl
theorem witness_AluOtherResults :
    aluOtherSpec (Instr.popc (ins 3 1 0 0)) = some (popcIs.fst, popcIs.snd.fst, popcIs.snd.snd) ∧
    Issues (module two) popcIs.fst isReady popcIs.snd.fst two path :=
  ⟨rfl, by unfold Issues; and_intros <;> first | decide +kernel | rfl⟩

def selIs := (aluOtherSpec (.sel (ins 3 1 2 7))).get rfl
theorem witness_AluOtherResults_sel :
    aluOtherSpec (Instr.sel (ins 3 1 2 7)) = some (selIs.fst, selIs.snd.fst, selIs.snd.snd) ∧
    Issues (module two) selIs.fst isReady selIs.snd.fst two path :=
  ⟨rfl, by unfold Issues; and_intros <;> first | decide +kernel | rfl⟩

def sregIs := (aluOtherSpec (.sreg (ins 3 0 0 9))).get rfl
theorem witness_AluOtherResults_sreg :
    aluOtherSpec (Instr.sreg (ins 3 0 0 9)) = some (sregIs.fst, sregIs.snd.fst, sregIs.snd.snd) ∧
    Issues (module two) sregIs.fst isReady sregIs.snd.fst two path :=
  ⟨rfl, by unfold Issues; and_intros <;> first | decide +kernel | rfl⟩

def floats : Crew := crew [(1, 0x3F800000), (2, 0x40000000), (4, 0), (5, 0x3FF00000), (6, 0), (7, 0x40000000)]
def faddIs := (fpSpec (.fadd (ins 3 1 2 0))).get rfl
theorem witness_FloatResults :
    fpSpec (Instr.fadd (ins 3 1 2 0)) = some (faddIs.fst, faddIs.snd.fst, faddIs.snd.snd) ∧
    Issues (module floats) faddIs.fst isReady faddIs.snd.fst floats path ∧
    (∀ (l : Nat), l < 32 → BitVec.getLsbD (guardMask floats path faddIs.fst) l = true → (f32 (faddIs.snd.snd floats l)).finite = true) :=
  ⟨rfl, by unfold Issues; and_intros <;> first | decide +kernel | rfl⟩

def ffmaIs := (fpSpec (.ffma (ins 3 1 2 0x010000))).get rfl
theorem witness_FloatResults_ffma :
    fpSpec (Instr.ffma (ins 3 1 2 65536)) = some (ffmaIs.fst, ffmaIs.snd.fst, ffmaIs.snd.snd) ∧
    Issues (module floats) ffmaIs.fst isReady ffmaIs.snd.fst floats path ∧
    (∀ (l : Nat), l < 32 → BitVec.getLsbD (guardMask floats path ffmaIs.fst) l = true → (f32 (ffmaIs.snd.snd floats l)).finite = true) :=
  ⟨rfl, by unfold Issues; and_intros <;> first | decide +kernel | rfl⟩

def oneFloat : Crew := lone [(1, 0x3F800000), (2, 0x40000000), (4, 0), (5, 0x3FF00000), (6, 0), (7, 0x40000000)]
def fsqrtIs := (fpSpec (.fsqrt (ins 3 1 0 0))).get rfl
theorem witness_FloatResults_fsqrt :
    fpSpec (Instr.fsqrt (ins 3 1 0 0)) = some (fsqrtIs.fst, fsqrtIs.snd.fst, fsqrtIs.snd.snd) ∧
    Issues (module oneFloat) fsqrtIs.fst isReady fsqrtIs.snd.fst oneFloat lonePath ∧
    (∀ (l : Nat),
       l < 32 → BitVec.getLsbD (guardMask oneFloat lonePath fsqrtIs.fst) l = true → (f32 (fsqrtIs.snd.snd oneFloat l)).finite = true) :=
  ⟨rfl, by unfold Issues; and_intros <;> first | decide +kernel | rfl⟩

def daddIs := (dpSpec (.dadd (ins 30 4 6 0))).get rfl
theorem witness_FloatResults_double :
    dpSpec (Instr.dadd (ins 30 4 6 0)) = some (daddIs.fst, daddIs.snd.fst, daddIs.snd.snd) ∧
    Issues (module floats) daddIs.fst isReady daddIs.snd.fst floats path ∧
    (∀ (l : Nat), l < 32 → BitVec.getLsbD (guardMask floats path daddIs.fst) l = true → (f64 (daddIs.snd.snd floats l)).finite = true) :=
  ⟨rfl, by unfold Issues; and_intros <;> first | decide +kernel | rfl⟩

def isetpIs := (predSpec (.isetp (ins 7 1 2 0x500000))).get rfl
theorem witness_PredicateResults :
    predSpec (Instr.isetp (ins 7 1 2 5242880)) = some (isetpIs.fst, isetpIs.snd.fst, isetpIs.snd.snd) ∧
    Issues (module two) isetpIs.fst isReady isetpIs.snd.fst two path :=
  ⟨rfl, by unfold Issues; and_intros <;> first | decide +kernel | rfl⟩

def fsetpIs := (predSpec (.fsetp (ins 0 1 2 0xD00000))).get rfl
theorem witness_PredicateResults_fsetp :
    predSpec (Instr.fsetp (ins 0 1 2 13631488)) = some (fsetpIs.fst, fsetpIs.snd.fst, fsetpIs.snd.snd) ∧
    Issues (module floats) fsetpIs.fst isReady fsetpIs.snd.fst floats path :=
  ⟨rfl, by unfold Issues; and_intros <;> first | decide +kernel | rfl⟩

def plopIs := (predSpec (.plop (ins 6 7 0 3))).get rfl
theorem witness_PredicateResults_plop :
    predSpec (Instr.plop (ins 6 7 0 3)) = some (plopIs.fst, plopIs.snd.fst, plopIs.snd.snd) ∧
    Issues (module two) plopIs.fst isReady plopIs.snd.fst two path :=
  ⟨rfl, by unfold Issues; and_intros <;> first | decide +kernel | rfl⟩

theorem witness_Conversions :
    (Issues (module floats) (ins 3 1 0 (4 * 2 ^ 18 + 6 * 2 ^ 12)) isReady
       {
         legal :=
           isFormat (xf (ins 3 1 0 (4 * 2 ^ 18 + 6 * 2 ^ 12)) 18 6) && isFormat (xf (ins 3 1 0 (4 * 2 ^ 18 + 6 * 2 ^ 12)) 12 6) &&
                 decide (xf (ins 3 1 0 (4 * 2 ^ 18 + 6 * 2 ^ 12)) 9 3 ≤ 4) &&
               xf (ins 3 1 0 (4 * 2 ^ 18 + 6 * 2 ^ 12)) 0 8 == 0 &&
             (ins 3 1 0 (4 * 2 ^ 18 + 6 * 2 ^ 12)).sb == 0,
         pairs :=
           (if xf (ins 3 1 0 (4 * 2 ^ 18 + 6 * 2 ^ 12)) 18 6 = 8 then [da (ins 3 1 0 (4 * 2 ^ 18 + 6 * 2 ^ 12))] else []) ++
             if xf (ins 3 1 0 (4 * 2 ^ 18 + 6 * 2 ^ 12)) 12 6 = 8 then [sa (ins 3 1 0 (4 * 2 ^ 18 + 6 * 2 ^ 12))] else [],
         regs := [da (ins 3 1 0 (4 * 2 ^ 18 + 6 * 2 ^ 12)), sa (ins 3 1 0 (4 * 2 ^ 18 + 6 * 2 ^ 12))] : Form }
       floats path) ∧
    (∀ (l : Nat),
       l < 32 →
         (cvtLane (noteIssue (module floats) (ins 3 1 0 (4 * 2 ^ 18 + 6 * 2 ^ 12)) floats path) (ins 3 1 0 (4 * 2 ^ 18 + 6 * 2 ^ 12))
                 floats l).saturated =
             false ∧
           (cvtLane (noteIssue (module floats) (ins 3 1 0 (4 * 2 ^ 18 + 6 * 2 ^ 12)) floats path) (ins 3 1 0 (4 * 2 ^ 18 + 6 * 2 ^ 12))
                 floats l).beyond =
             false) ∧
    (narrows (xf (ins 3 1 0 (4 * 2 ^ 18 + 6 * 2 ^ 12)) 18 6) (xf (ins 3 1 0 (4 * 2 ^ 18 + 6 * 2 ^ 12)) 12 6) &&
        inGradient (module floats) floats) =
      false :=
  by unfold Issues; and_intros <;> first | decide +kernel | rfl

theorem witness_Conversions_wide :
    (Issues (module floats) (ins 8 1 0 (8 * 2 ^ 18 + 6 * 2 ^ 12)) isReady
       {
         legal :=
           isFormat (xf (ins 8 1 0 (8 * 2 ^ 18 + 6 * 2 ^ 12)) 18 6) && isFormat (xf (ins 8 1 0 (8 * 2 ^ 18 + 6 * 2 ^ 12)) 12 6) &&
                 decide (xf (ins 8 1 0 (8 * 2 ^ 18 + 6 * 2 ^ 12)) 9 3 ≤ 4) &&
               xf (ins 8 1 0 (8 * 2 ^ 18 + 6 * 2 ^ 12)) 0 8 == 0 &&
             (ins 8 1 0 (8 * 2 ^ 18 + 6 * 2 ^ 12)).sb == 0,
         pairs :=
           (if xf (ins 8 1 0 (8 * 2 ^ 18 + 6 * 2 ^ 12)) 18 6 = 8 then [da (ins 8 1 0 (8 * 2 ^ 18 + 6 * 2 ^ 12))] else []) ++
             if xf (ins 8 1 0 (8 * 2 ^ 18 + 6 * 2 ^ 12)) 12 6 = 8 then [sa (ins 8 1 0 (8 * 2 ^ 18 + 6 * 2 ^ 12))] else [],
         regs := [da (ins 8 1 0 (8 * 2 ^ 18 + 6 * 2 ^ 12)), sa (ins 8 1 0 (8 * 2 ^ 18 + 6 * 2 ^ 12))] : Form }
       floats path) ∧
    (∀ (l : Nat),
       l < 32 →
         (cvtLane (noteIssue (module floats) (ins 8 1 0 (8 * 2 ^ 18 + 6 * 2 ^ 12)) floats path) (ins 8 1 0 (8 * 2 ^ 18 + 6 * 2 ^ 12))
                 floats l).saturated =
             false ∧
           (cvtLane (noteIssue (module floats) (ins 8 1 0 (8 * 2 ^ 18 + 6 * 2 ^ 12)) floats path) (ins 8 1 0 (8 * 2 ^ 18 + 6 * 2 ^ 12))
                 floats l).beyond =
             false) ∧
    (narrows (xf (ins 8 1 0 (8 * 2 ^ 18 + 6 * 2 ^ 12)) 18 6) (xf (ins 8 1 0 (8 * 2 ^ 18 + 6 * 2 ^ 12)) 12 6) &&
        inGradient (module floats) floats) =
      false :=
  by unfold Issues; and_intros <;> first | decide +kernel | rfl

theorem witness_TimeRead :
    Issues (module two) (ins 30 0 0 0) isReady
      { legal := (ins 30 0 0 0).sa == 0 && (ins 30 0 0 0).sb == 0 && (ins 30 0 0 0).x == 0, pairs := [da (ins 30 0 0 0)] : Form } two
      path :=
  by unfold Issues; and_intros <;> first | decide +kernel | rfl

theorem witness_PathControl :
    Issues (module two) (ins 0 0 0 0) isReady
      { legal := (ins 0 0 0 0).da == 0 && (ins 0 0 0 0).sa == 0 && (ins 0 0 0 0).sb == 0 && (ins 0 0 0 0).x == 0 : Form } two path :=
  by unfold Issues; and_intros <;> first | decide +kernel | rfl

def unguarded : Issue := { ins 0 0 0 0 with pn := true }
theorem witness_PathControl_yieldNone :
    Issues (module two) unguarded isReady
      { legal := unguarded.da == 0 && unguarded.sa == 0 && unguarded.sb == 0 && unguarded.x == 0 : Form } two path ∧
    guardMask two path unguarded = 0 :=
  by unfold Issues; and_intros <;> first | decide +kernel | rfl

theorem witness_PathControl_yield :
    Issues (module two) (ins 0 0 0 0) isReady
      { legal := (ins 0 0 0 0).da == 0 && (ins 0 0 0 0).sa == 0 && (ins 0 0 0 0).sb == 0 && (ins 0 0 0 0).x == 0 : Form } two path ∧
    guardMask two path (ins 0 0 0 0) ≠ 0 :=
  by unfold Issues; and_intros <;> first | decide +kernel | rfl

theorem witness_PathControl_join :
    Issues (module two) (ins 0 0 0 0) isReady
      { legal := (ins 0 0 0 0).da == 0 && (ins 0 0 0 0).sa == 0 && (ins 0 0 0 0).sb == 0 && (ins 0 0 0 0).x == 0 : Form } two path ∧
    (∀ (e : Nat × Split), e ∈ two.splits → e.snd.addr = path.pc → e.snd.members &&& guardMask two path (ins 0 0 0 0) = 0) :=
  by unfold Issues; and_intros <;> first | decide +kernel | rfl

def halves : Crew := { crew [] with paths := [(30, { mask := 0xFFFF0000, wait := .join 1 }), (31, { mask := 0xFFFF })], splits := [(1, { addr := 0, members := 0xFFFFFFFF })] }
def lowHalf : CPath := { mask := 0xFFFF }
theorem witness_PathControl_joined :
    Issues (module halves) (ins 0 0 0 0) isReady
      { legal := (ins 0 0 0 0).da == 0 && (ins 0 0 0 0).sa == 0 && (ins 0 0 0 0).sb == 0 && (ins 0 0 0 0).x == 0 : Form } halves
      lowHalf ∧
    halves.splits = [(1, { addr := 0, members := 4294967295 : Split })] ∧ { addr := 0, members := 4294967295 : Split }.addr = lowHalf.pc ∧
    { addr := 0, members := 4294967295 : Split }.members &&& guardMask halves lowHalf (ins 0 0 0 0) ≠ 0 ∧ RisingKeys halves.paths :=
  by unfold Issues RisingKeys; and_intros <;> first | decide +kernel | rfl

def apart : Crew := { halves with paths := [(30, { mask := 0xFFFF0000 }), (31, { mask := 0xFFFF })] }
theorem witness_PathControl_joinWaits :
    Issues (module apart) (ins 0 0 0 0) isReady
      { legal := (ins 0 0 0 0).da == 0 && (ins 0 0 0 0).sa == 0 && (ins 0 0 0 0).sb == 0 && (ins 0 0 0 0).x == 0 : Form } apart
      lowHalf ∧
    apart.splits = [(1, { addr := 0, members := 4294967295 : Split })] ∧ { addr := 0, members := 4294967295 : Split }.addr = lowHalf.pc ∧
    { addr := 0, members := 4294967295 : Split }.members &&& guardMask apart lowHalf (ins 0 0 0 0) ≠ 0 ∧ RisingKeys apart.paths :=
  by unfold Issues RisingKeys; and_intros <;> first | decide +kernel | rfl

def mixed : Crew := { halves with preds := [(1, 0xFF)] }
def guarded : Issue := { ins 0 0 0 0 with pg := 1 }
theorem witness_PathControl_joinGuard :
    Issues (module mixed) guarded isReady { legal := guarded.da == 0 && guarded.sa == 0 && guarded.sb == 0 && guarded.x == 0 : Form }
      mixed lowHalf ∧
    mixed.splits = [(1, { addr := 0, members := 4294967295 : Split })] ∧ { addr := 0, members := 4294967295 : Split }.addr = lowHalf.pc ∧
    { addr := 0, members := 4294967295 : Split }.members &&& guardMask mixed lowHalf guarded ≠ 0 ∧ RisingKeys mixed.paths :=
  by unfold Issues RisingKeys; and_intros <;> first | decide +kernel | rfl

theorem witness_PathControl_exit :
    Issues (module two) (ins 0 0 0 0) isReady
      { legal := (ins 0 0 0 0).da == 0 && (ins 0 0 0 0).sa == 0 && (ins 0 0 0 0).sb == 0 && (ins 0 0 0 0).x == 0 : Form } two path ∧
    two.live &&& ~~~guardMask two path (ins 0 0 0 0) = 0 :=
  by unfold Issues; and_intros <;> first | decide +kernel | rfl

theorem witness_PathControl_exitSome :
    Issues (module mixed) guarded isReady { legal := guarded.da == 0 && guarded.sa == 0 && guarded.sb == 0 && guarded.x == 0 : Form }
      mixed lowHalf ∧
    mixed.live &&& ~~~guardMask mixed lowHalf guarded ≠ 0 :=
  by unfold Issues; and_intros <;> first | decide +kernel | rfl

def linkedCrew : Crew := crew ((List.range 32).map fun l => (l * 256 + 4, 64))
def forked : Crew := { crew ((List.range 32).map fun l => (l * 256 + 4, if l < 8 then 64 else 128)) with paths := [(31, { mask := 0xFFFFFFFF, reconv := some 256 })] }
def forkedPath : CPath := { mask := 0xFFFFFFFF, reconv := some 256 }
theorem witness_Branches_bra :
    path.mask ≠ 0 ∧ RisingKeys two.paths ∧
    Issues (module two) (ins 0 0 0 16) isReady
      { legal := (ins 0 0 0 16).da == 0 && (ins 0 0 0 16).sa == 0 && (ins 0 0 0 16).sb == 0 : Form } two path ∧
    (guardMask two path (ins 0 0 0 16) = 0 ∨ BitVec.toNat (relative (ins 0 0 0 16) path) % 8 = 0) :=
  by unfold Issues RisingKeys; and_intros <;> first | decide +kernel | rfl

theorem witness_Branches_braNone :
    path.mask ≠ 0 ∧ RisingKeys two.paths ∧
    Issues (module two)
      { wheel := (ins 0 0 0 3).wheel, slot := (ins 0 0 0 3).slot, path := (ins 0 0 0 3).path, pg := (ins 0 0 0 3).pg, pn := true,
        da := (ins 0 0 0 3).da, sa := (ins 0 0 0 3).sa, sb := (ins 0 0 0 3).sb, x := (ins 0 0 0 3).x : Issue }
      isReady
      {
        legal :=
          { wheel := (ins 0 0 0 3).wheel, slot := (ins 0 0 0 3).slot, path := (ins 0 0 0 3).path, pg := (ins 0 0 0 3).pg, pn := true,
                    da := (ins 0 0 0 3).da, sa := (ins 0 0 0 3).sa, sb := (ins 0 0 0 3).sb, x := (ins 0 0 0 3).x : Issue }.da ==
                0 &&
              { wheel := (ins 0 0 0 3).wheel, slot := (ins 0 0 0 3).slot, path := (ins 0 0 0 3).path, pg := (ins 0 0 0 3).pg,
                    pn := true, da := (ins 0 0 0 3).da, sa := (ins 0 0 0 3).sa, sb := (ins 0 0 0 3).sb, x := (ins 0 0 0 3).x :
                    Issue }.sa ==
                0 &&
            { wheel := (ins 0 0 0 3).wheel, slot := (ins 0 0 0 3).slot, path := (ins 0 0 0 3).path, pg := (ins 0 0 0 3).pg,
                  pn := true, da := (ins 0 0 0 3).da, sa := (ins 0 0 0 3).sa, sb := (ins 0 0 0 3).sb, x := (ins 0 0 0 3).x :
                  Issue }.sb ==
              0 :
        Form }
      two path ∧
    (guardMask two path
           { wheel := (ins 0 0 0 3).wheel, slot := (ins 0 0 0 3).slot, path := (ins 0 0 0 3).path, pg := (ins 0 0 0 3).pg, pn := true,
             da := (ins 0 0 0 3).da, sa := (ins 0 0 0 3).sa, sb := (ins 0 0 0 3).sb, x := (ins 0 0 0 3).x : Issue } =
         0 ∨
       BitVec.toNat
             (relative
               { wheel := (ins 0 0 0 3).wheel, slot := (ins 0 0 0 3).slot, path := (ins 0 0 0 3).path, pg := (ins 0 0 0 3).pg,
                 pn := true, da := (ins 0 0 0 3).da, sa := (ins 0 0 0 3).sa, sb := (ins 0 0 0 3).sb, x := (ins 0 0 0 3).x : Issue }
               path) %
           8 =
         0) :=
  by unfold Issues RisingKeys; and_intros <;> first | decide +kernel | rfl

def predicated : Crew := { crew [] with preds := [(1, 0xFF)], paths := [(31, { mask := 0xFFFFFFFF, reconv := some 256 })] }
theorem witness_Branches_braGuard :
    forkedPath.mask ≠ 0 ∧ RisingKeys predicated.paths ∧
    Issues (module predicated)
      { wheel := (ins 0 0 0 1).wheel, slot := (ins 0 0 0 1).slot, path := (ins 0 0 0 1).path, pg := 1, pn := (ins 0 0 0 1).pn,
        da := (ins 0 0 0 1).da, sa := (ins 0 0 0 1).sa, sb := (ins 0 0 0 1).sb, x := (ins 0 0 0 1).x : Issue }
      isReady
      {
        legal :=
          { wheel := (ins 0 0 0 1).wheel, slot := (ins 0 0 0 1).slot, path := (ins 0 0 0 1).path, pg := 1, pn := (ins 0 0 0 1).pn,
                    da := (ins 0 0 0 1).da, sa := (ins 0 0 0 1).sa, sb := (ins 0 0 0 1).sb, x := (ins 0 0 0 1).x : Issue }.da ==
                0 &&
              { wheel := (ins 0 0 0 1).wheel, slot := (ins 0 0 0 1).slot, path := (ins 0 0 0 1).path, pg := 1, pn := (ins 0 0 0 1).pn,
                    da := (ins 0 0 0 1).da, sa := (ins 0 0 0 1).sa, sb := (ins 0 0 0 1).sb, x := (ins 0 0 0 1).x : Issue }.sa ==
                0 &&
            { wheel := (ins 0 0 0 1).wheel, slot := (ins 0 0 0 1).slot, path := (ins 0 0 0 1).path, pg := 1, pn := (ins 0 0 0 1).pn,
                  da := (ins 0 0 0 1).da, sa := (ins 0 0 0 1).sa, sb := (ins 0 0 0 1).sb, x := (ins 0 0 0 1).x : Issue }.sb ==
              0 :
        Form }
      predicated forkedPath ∧
    (guardMask predicated forkedPath
           { wheel := (ins 0 0 0 1).wheel, slot := (ins 0 0 0 1).slot, path := (ins 0 0 0 1).path, pg := 1, pn := (ins 0 0 0 1).pn,
             da := (ins 0 0 0 1).da, sa := (ins 0 0 0 1).sa, sb := (ins 0 0 0 1).sb, x := (ins 0 0 0 1).x : Issue } =
         0 ∨
       BitVec.toNat
             (relative
               { wheel := (ins 0 0 0 1).wheel, slot := (ins 0 0 0 1).slot, path := (ins 0 0 0 1).path, pg := 1, pn := (ins 0 0 0 1).pn,
                 da := (ins 0 0 0 1).da, sa := (ins 0 0 0 1).sa, sb := (ins 0 0 0 1).sb, x := (ins 0 0 0 1).x : Issue }
               forkedPath) %
           8 =
         0) :=
  by unfold Issues RisingKeys; and_intros <;> first | decide +kernel | rfl

theorem witness_Branches_jpush :
    path.mask ≠ 0 ∧ RisingKeys two.paths ∧
    Issues (module two) (ins 0 0 0 16) isReady
      { legal := (ins 0 0 0 16).da == 0 && (ins 0 0 0 16).sa == 0 && (ins 0 0 0 16).sb == 0 : Form } two path :=
  by unfold Issues RisingKeys; and_intros <;> first | decide +kernel | rfl

theorem witness_Branches_ret :
    path.mask ≠ 0 ∧ RisingKeys linkedCrew.paths ∧ Instr.ret (ins 0 4 0 0) ∈ [Instr.brx (ins 0 4 0 0), Instr.ret (ins 0 4 0 0)] ∧
    Issues (module linkedCrew) (ins 0 4 0 0) isReady
      { legal := (ins 0 4 0 0).da == 0 && (ins 0 4 0 0).sb == 0 && (ins 0 4 0 0).x == 0, pairs := [sa (ins 0 4 0 0)] : Form }
      linkedCrew path ∧
    (∀ (l : Nat), l ∈ lanesOf (guardMask linkedCrew path (ins 0 4 0 0)) → BitVec.toNat (pair linkedCrew l (sa (ins 0 4 0 0))) % 8 = 0) :=
  by unfold Issues RisingKeys; and_intros <;> first | decide +kernel | rfl

theorem witness_Branches_brx :
    forkedPath.mask ≠ 0 ∧ RisingKeys forked.paths ∧ Instr.brx (ins 0 4 0 0) ∈ [Instr.brx (ins 0 4 0 0), Instr.ret (ins 0 4 0 0)] ∧
    Issues (module forked) (ins 0 4 0 0) isReady
      { legal := (ins 0 4 0 0).da == 0 && (ins 0 4 0 0).sb == 0 && (ins 0 4 0 0).x == 0, pairs := [sa (ins 0 4 0 0)] : Form } forked
      forkedPath ∧
    (∀ (l : Nat), l ∈ lanesOf (guardMask forked forkedPath (ins 0 4 0 0)) → BitVec.toNat (pair forked l (sa (ins 0 4 0 0))) % 8 = 0) :=
  by unfold Issues RisingKeys; and_intros <;> first | decide +kernel | rfl

theorem witness_Branches_call :
    path.mask ≠ 0 ∧ RisingKeys two.paths ∧
    Issues (module two) (ins 30 0 0 16) isReady
      { legal := (ins 30 0 0 16).sa == 0 && (ins 30 0 0 16).sb == 0, pairs := [da (ins 30 0 0 16)] : Form } two path ∧
    (guardMask two path (ins 30 0 0 16) = 0 ∨ BitVec.toNat (relative (ins 30 0 0 16) path) % 8 = 0) :=
  by unfold Issues RisingKeys; and_intros <;> first | decide +kernel | rfl

theorem witness_IllegalFaults :
    nelolOp 63 63 = none ∧ (ins 0 0 0 0).ok = true ∧ issuer (module two) (ins 0 0 0 0) isReady = some (two, path) ∧
    fetchOk (module two) two path = true :=
  by and_intros <;> first | decide +kernel | rfl

theorem witness_IllegalFaults_assigned :
    nelolOp 0 1 ≠ none :=
  by decide +kernel

def loader : Crew := lone [(4, 64)]
theorem witness_LoadsIssue_local :
    Issues (module loader) (ins 31 4 0 (2 * 2 ^ 21 + 2 ^ 18 + 4028)) isReady
      (datumForm (ins 31 4 0 (2 * 2 ^ 21 + 2 ^ 18 + 4028)) true (da (ins 31 4 0 (2 * 2 ^ 21 + 2 ^ 18 + 4028)))
        (ins 31 4 0 (2 * 2 ^ 21 + 2 ^ 18 + 4028)).sb)
      loader lonePath ∧
    (ins 31 4 0 (2 * 2 ^ 21 + 2 ^ 18 + 4028)).x.getLsbD 18 = true ∧
    lsFault loader (width (ins 31 4 0 (2 * 2 ^ 21 + 2 ^ 18 + 4028)))
        (List.map (lsAddr (ins 31 4 0 (2 * 2 ^ 21 + 2 ^ 18 + 4028)) loader)
          (lanes (ins 31 4 0 (2 * 2 ^ 21 + 2 ^ 18 + 4028)) loader lonePath)) =
      none :=
  by unfold Issues; and_intros <;> first | decide +kernel | rfl

theorem witness_LoadsIssue_memory :
    Issues (module loader) (ins 31 4 0 (2 * 2 ^ 21)) isReady
      (datumForm (ins 31 4 0 (2 * 2 ^ 21)) true (da (ins 31 4 0 (2 * 2 ^ 21))) (ins 31 4 0 (2 * 2 ^ 21)).sb) loader lonePath ∧
    (ins 31 4 0 (2 * 2 ^ 21)).x.getLsbD 18 = false ∧
    accessOk (module loader) loader.saggar false (width (ins 31 4 0 (2 * 2 ^ 21)))
      (devAddrs (ins 31 4 0 (2 * 2 ^ 21)) loader lonePath) :=
  ⟨by unfold Issues; and_intros <;> decide +kernel, by first | decide +kernel | rfl, access_of (by decide +kernel)⟩

def holding : State := { module loader with wheels := [(191, { crews := [(63, loader)], mem := { l1 := [(2, { saggar := 1, bytes := List.replicate 32 7 })] } })] }
theorem witness_LoadsIssue_held :
    Issues holding (ins 31 4 0 (2 * 2 ^ 21)) isReady
      (datumForm (ins 31 4 0 (2 * 2 ^ 21)) true (da (ins 31 4 0 (2 * 2 ^ 21))) (ins 31 4 0 (2 * 2 ^ 21)).sb) loader lonePath ∧
    (ins 31 4 0 (2 * 2 ^ 21)).x.getLsbD 18 = false ∧
    accessOk holding loader.saggar false (width (ins 31 4 0 (2 * 2 ^ 21))) (devAddrs (ins 31 4 0 (2 * 2 ^ 21)) loader lonePath) :=
  ⟨by unfold Issues; and_intros <;> decide +kernel, by first | decide +kernel | rfl, access_of (by decide +kernel)⟩

theorem witness_StoresIssue_local :
    Issues (module loader) (ins 0 4 1 (2 * 2 ^ 21 + 2 ^ 18)) isReady
      (datumForm (ins 0 4 1 (2 * 2 ^ 21 + 2 ^ 18)) false (sb (ins 0 4 1 (2 * 2 ^ 21 + 2 ^ 18))) (ins 0 4 1 (2 * 2 ^ 21 + 2 ^ 18)).da)
      loader lonePath ∧
    (ins 0 4 1 (2 * 2 ^ 21 + 2 ^ 18)).x.getLsbD 18 = true ∧
    lsFault loader (width (ins 0 4 1 (2 * 2 ^ 21 + 2 ^ 18)))
        (List.map (lsAddr (ins 0 4 1 (2 * 2 ^ 21 + 2 ^ 18)) loader) (lanes (ins 0 4 1 (2 * 2 ^ 21 + 2 ^ 18)) loader lonePath)) =
      none :=
  by unfold Issues; and_intros <;> first | decide +kernel | rfl

theorem witness_StoresIssue_memory :
    Issues (module loader) (ins 0 4 1 (2 * 2 ^ 21 + 2 * 2 ^ 19)) isReady
      (datumForm (ins 0 4 1 (2 * 2 ^ 21 + 2 * 2 ^ 19)) false (sb (ins 0 4 1 (2 * 2 ^ 21 + 2 * 2 ^ 19)))
        (ins 0 4 1 (2 * 2 ^ 21 + 2 * 2 ^ 19)).da)
      loader lonePath ∧
    (ins 0 4 1 (2 * 2 ^ 21 + 2 * 2 ^ 19)).x.getLsbD 18 = false ∧
    accessOk (module loader) loader.saggar true (width (ins 0 4 1 (2 * 2 ^ 21 + 2 * 2 ^ 19)))
      (devAddrs (ins 0 4 1 (2 * 2 ^ 21 + 2 * 2 ^ 19)) loader lonePath) ∧
    StoreIds (module loader) (ins 0 4 1 (2 * 2 ^ 21 + 2 * 2 ^ 19)).wheel loader :=
  ⟨by unfold Issues; and_intros <;> decide +kernel, by first | decide +kernel | rfl, access_of (by decide +kernel), ids_of (by decide +kernel)⟩

def atomAddIs := (atomSpec (.atomAdd (ins 31 4 1 (2 * 2 ^ 21)))).get rfl
theorem witness_AtomicsIssue :
    atomSpec (Instr.atomAdd (ins 31 4 1 (2 * 2 ^ 21))) = some (atomAddIs.fst, atomAddIs.snd) ∧
    Issues (module loader) atomAddIs.fst isReady (atomForm atomAddIs.snd atomAddIs.fst) loader lonePath ∧
    (accessOk (module loader) loader.saggar true (if wideAtom atomAddIs.fst = true then 8 else 4)
       (saAddrs atomAddIs.fst loader lonePath)) ∧
    lanes atomAddIs.fst loader lonePath ≠ [] :=
  ⟨rfl, by unfold Issues; and_intros <;> decide +kernel, access_of (by decide +kernel), by first | decide +kernel | rfl⟩

def atomCasIs := (atomSpec (.atomCas (ins 30 4 8 (3 * 2 ^ 21)))).get rfl
theorem witness_AtomicsIssue_cas :
    atomSpec (Instr.atomCas (ins 30 4 8 (3 * 2 ^ 21))) = some (atomCasIs.fst, atomCasIs.snd) ∧
    Issues (module loader) atomCasIs.fst isReady (atomForm atomCasIs.snd atomCasIs.fst) loader lonePath ∧
    (accessOk (module loader) loader.saggar true (if wideAtom atomCasIs.fst = true then 8 else 4)
       (saAddrs atomCasIs.fst loader lonePath)) ∧
    lanes atomCasIs.fst loader lonePath ≠ [] :=
  ⟨rfl, by unfold Issues; and_intros <;> decide +kernel, access_of (by decide +kernel), by first | decide +kernel | rfl⟩

def written (c : Crew) : State := { module c with nextId := 7, wheels := [(191, { crews := [(63, c)], mem := { store := [{ id := 5, slot := 63, uid := 1, saggar := 1, va := 64, pa := 64, op := .bytes [(0, 1)] }] } })] }
theorem witness_FencesAndBells_acquire :
    StoreIds (module loader) (ins 0 0 0 1).wheel loader ∧
    Issues (module loader) (ins 0 0 0 1) isReady
      {
        legal :=
          (ins 0 0 0 1).da == 0 && (ins 0 0 0 1).sa == 0 && (ins 0 0 0 1).sb == 0 && decide (0 < (ins 0 0 0 1).x.toNat) &&
            decide ((ins 0 0 0 1).x.toNat < 4) :
        Form }
      loader lonePath ∧
    lanes (ins 0 0 0 1) loader lonePath ≠ [] :=
  ⟨ids_of (by decide +kernel), by unfold Issues; and_intros <;> first | decide +kernel | rfl⟩

theorem witness_FencesAndBells_release :
    StoreIds (written loader) (ins 0 0 0 2).wheel loader ∧
    Issues (written loader) (ins 0 0 0 2) isReady
      {
        legal :=
          (ins 0 0 0 2).da == 0 && (ins 0 0 0 2).sa == 0 && (ins 0 0 0 2).sb == 0 && decide (0 < (ins 0 0 0 2).x.toNat) &&
            decide ((ins 0 0 0 2).x.toNat < 4) :
        Form }
      loader lonePath ∧
    lanes (ins 0 0 0 2) loader lonePath ≠ [] :=
  ⟨ids_of (by decide +kernel), by unfold Issues; and_intros <;> first | decide +kernel | rfl⟩

theorem witness_FencesAndBells_both :
    StoreIds (written loader) (ins 0 0 0 3).wheel loader ∧
    Issues (written loader) (ins 0 0 0 3) isReady
      {
        legal :=
          (ins 0 0 0 3).da == 0 && (ins 0 0 0 3).sa == 0 && (ins 0 0 0 3).sb == 0 && decide (0 < (ins 0 0 0 3).x.toNat) &&
            decide ((ins 0 0 0 3).x.toNat < 4) :
        Form }
      loader lonePath ∧
    lanes (ins 0 0 0 3) loader lonePath ≠ [] :=
  ⟨ids_of (by decide +kernel), by unfold Issues; and_intros <;> first | decide +kernel | rfl⟩

theorem witness_FencesAndBells_bothAtOnce :
    StoreIds (module loader) (ins 0 0 0 3).wheel loader ∧
    Issues (module loader) (ins 0 0 0 3) isReady
      {
        legal :=
          (ins 0 0 0 3).da == 0 && (ins 0 0 0 3).sa == 0 && (ins 0 0 0 3).sb == 0 && decide (0 < (ins 0 0 0 3).x.toNat) &&
            decide ((ins 0 0 0 3).x.toNat < 4) :
        Form }
      loader lonePath ∧
    lanes (ins 0 0 0 3) loader lonePath ≠ [] :=
  ⟨ids_of (by decide +kernel), by unfold Issues; and_intros <;> first | decide +kernel | rfl⟩

def ringer : Crew := crew ((List.range 32).map fun l => (l * 256 + 4, 0xFFFFFFFF))
theorem witness_FencesAndBells_bell :
    StoreIds (module ringer) (ins 0 4 0 3).wheel ringer ∧
    Issues (module ringer) (ins 0 4 0 3) isReady
      { legal := (ins 0 4 0 3).da == 0 && (ins 0 4 0 3).sb == 0 && decide ((ins 0 4 0 3).x.toNat < 4), regs := [sa (ins 0 4 0 3)] :
        Form }
      ringer path ∧
    leadLane (guardMask ringer path (ins 0 4 0 3)) = some 0 ∧
    (∀ (l : Nat), l ∈ lanes (ins 0 4 0 3) ringer path → reg ringer l (sa (ins 0 4 0 3)) = reg ringer 0 (sa (ins 0 4 0 3))) ∧
    guardMask ringer path (ins 0 4 0 3) &&& ~~~reg ringer 0 (sa (ins 0 4 0 3)) = 0 ∧
    ((crewBell ringer (xf (ins 0 4 0 3) 0 2)).mask = 0 ∨
       (crewBell ringer (xf (ins 0 4 0 3) 0 2)).mask = reg ringer 0 (sa (ins 0 4 0 3))) :=
  ⟨ids_of (by decide +kernel), by unfold Issues; and_intros <;> first | decide +kernel | rfl⟩

theorem witness_FencesAndBells_bellReleases :
    StoreIds (written ringer) (ins 0 4 0 3).wheel ringer ∧
    Issues (written ringer) (ins 0 4 0 3) isReady
      { legal := (ins 0 4 0 3).da == 0 && (ins 0 4 0 3).sb == 0 && decide ((ins 0 4 0 3).x.toNat < 4), regs := [sa (ins 0 4 0 3)] :
        Form }
      ringer path ∧
    leadLane (guardMask ringer path (ins 0 4 0 3)) = some 0 ∧
    (∀ (l : Nat), l ∈ lanes (ins 0 4 0 3) ringer path → reg ringer l (sa (ins 0 4 0 3)) = reg ringer 0 (sa (ins 0 4 0 3))) ∧
    guardMask ringer path (ins 0 4 0 3) &&& ~~~reg ringer 0 (sa (ins 0 4 0 3)) = 0 ∧
    ((crewBell ringer (xf (ins 0 4 0 3) 0 2)).mask = 0 ∨
       (crewBell ringer (xf (ins 0 4 0 3) 0 2)).mask = reg ringer 0 (sa (ins 0 4 0 3))) :=
  ⟨ids_of (by decide +kernel), by unfold Issues; and_intros <;> first | decide +kernel | rfl⟩

def sixteenOf : Crew := { ringer with paths := [(31, { mask := 0xFFFF })] }
theorem witness_FencesAndBells_bellWaits :
    StoreIds (module sixteenOf) (ins 0 4 0 0).wheel sixteenOf ∧
    Issues (module sixteenOf) (ins 0 4 0 0) isReady
      { legal := (ins 0 4 0 0).da == 0 && (ins 0 4 0 0).sb == 0 && decide ((ins 0 4 0 0).x.toNat < 4), regs := [sa (ins 0 4 0 0)] :
        Form }
      sixteenOf { mask := 65535 : CPath } ∧
    leadLane (guardMask sixteenOf { mask := 65535 : CPath } (ins 0 4 0 0)) = some 0 ∧
    (∀ (l : Nat),
       l ∈ lanes (ins 0 4 0 0) sixteenOf { mask := 65535 : CPath } →
         reg sixteenOf l (sa (ins 0 4 0 0)) = reg sixteenOf 0 (sa (ins 0 4 0 0))) ∧
    guardMask sixteenOf { mask := 65535 : CPath } (ins 0 4 0 0) &&& ~~~reg sixteenOf 0 (sa (ins 0 4 0 0)) = 0 ∧
    ((crewBell sixteenOf (xf (ins 0 4 0 0) 0 2)).mask = 0 ∨
       (crewBell sixteenOf (xf (ins 0 4 0 0) 0 2)).mask = reg sixteenOf 0 (sa (ins 0 4 0 0))) :=
  ⟨ids_of (by decide +kernel), by unfold Issues; and_intros <;> first | decide +kernel | rfl⟩

/-- Addresses 64 and 128, a length, a handle, and what the other operands of copies need. -/
def copier : Crew := { lone [(4, 64), (6, 128), (8, 64), (9, 1), (10, 64), (12, 1), (13, 2), (14, 64), (15, 64), (16, 5 * 65536 + 1), (17, 64), (18, 64), (20, 2)]
  with wins := [(0, { base := 0, size := 4 }), (1, { base := 0, size := 4, isInt := true })] }
def copying : State :=
  let s := module copier
  { s with
    front := { s.front with streams := [(7, { st := 1, saggar := 1, gslots := [(0, { bytes := 64 })] })] }
    link := { guilds := [(5, { saggar := 1, rank := 0, n := 2, members := [0, 1] })] } }
def acopy1dIs := (copySpec copying copier 0 false (.acopy1d (ins 0 4 6 (2 * 2 ^ 22 + 8 * 256)))).get rfl
theorem witness_CopiesJoin_acopy1d :
    Issues copying acopy1dIs.fst isReady acopy1dIs.snd.fst copier lonePath ∧ leadLane (guardMask copier lonePath acopy1dIs.fst) = some 0 ∧
    copyRoom copying acopy1dIs.fst copier = true ∧
    copySpec copying copier 0 false (Instr.acopy1d (ins 0 4 6 (2 * 2 ^ 22 + 8 * 256))) =
      some (acopy1dIs.fst, acopy1dIs.snd.fst, acopy1dIs.snd.snd.fst, acopy1dIs.snd.snd.snd.fst, acopy1dIs.snd.snd.snd.snd) ∧
    acopy1dIs.snd.snd.fst = true :=
  by unfold Issues; and_intros <;> first | decide +kernel | rfl

def acopy2dIs := (copySpec copying copier 0 false (.acopy2d (ins 0 4 6 (1 * 2 ^ 22 + 12 * 256)))).get rfl
theorem witness_CopiesJoin_acopy2d :
    Issues copying acopy2dIs.fst isReady acopy2dIs.snd.fst copier lonePath ∧ leadLane (guardMask copier lonePath acopy2dIs.fst) = some 0 ∧
    copyRoom copying acopy2dIs.fst copier = true ∧
    copySpec copying copier 0 false (Instr.acopy2d (ins 0 4 6 (1 * 2 ^ 22 + 12 * 256))) =
      some (acopy2dIs.fst, acopy2dIs.snd.fst, acopy2dIs.snd.snd.fst, acopy2dIs.snd.snd.snd.fst, acopy2dIs.snd.snd.snd.snd) ∧
    acopy2dIs.snd.snd.fst = true :=
  by unfold Issues; and_intros <;> first | decide +kernel | rfl

def receiving : State := { copying with wheels := [(191, { crews := [(63, { copier with regs := [(6, 128), (18, 64)] })] })] }
def receiver : Crew := { copier with regs := [(6, 128), (18, 64)] }
def grecvIs := (copySpec receiving receiver 0 false (.grecv (ins 0 0 6 (17 * 256 + 0)))).get rfl
theorem witness_CopiesJoin_grecv :
    Issues receiving grecvIs.fst isReady grecvIs.snd.fst receiver lonePath ∧ leadLane (guardMask receiver lonePath grecvIs.fst) = some 0 ∧
    copyRoom receiving grecvIs.fst receiver = true ∧
    copySpec receiving receiver 0 false (Instr.grecv (ins 0 0 6 (17 * 256 + 0))) =
      some (grecvIs.fst, grecvIs.snd.fst, grecvIs.snd.snd.fst, grecvIs.snd.snd.snd.fst, grecvIs.snd.snd.snd.snd) ∧
    grecvIs.snd.snd.fst = true :=
  by unfold Issues; and_intros <;> first | decide +kernel | rfl

def ptabIs := (copySpec copying copier 0 false (.ptab (ins 0 4 6 (12 * 256)))).get rfl
theorem witness_CopiesJoin_ptab :
    Issues copying ptabIs.fst isReady ptabIs.snd.fst copier lonePath ∧ leadLane (guardMask copier lonePath ptabIs.fst) = some 0 ∧
    copyRoom copying ptabIs.fst copier = true ∧
    copySpec copying copier 0 false (Instr.ptab (ins 0 4 6 (12 * 256))) =
      some (ptabIs.fst, ptabIs.snd.fst, ptabIs.snd.snd.fst, ptabIs.snd.snd.snd.fst, ptabIs.snd.snd.snd.snd) ∧
    ptabIs.snd.snd.fst = true :=
  by unfold Issues; and_intros <;> first | decide +kernel | rfl

def accRdIs := (copySpec copying copier 0 false (.accRd (ins 12 4 8 (6 * 2 ^ 21)))).get rfl
theorem witness_CopiesJoin_accRd :
    Issues copying accRdIs.fst isReady accRdIs.snd.fst copier lonePath ∧ leadLane (guardMask copier lonePath accRdIs.fst) = some 0 ∧
    copyRoom copying accRdIs.fst copier = true ∧
    copySpec copying copier 0 false (Instr.accRd (ins 12 4 8 (6 * 2 ^ 21))) =
      some (accRdIs.fst, accRdIs.snd.fst, accRdIs.snd.snd.fst, accRdIs.snd.snd.snd.fst, accRdIs.snd.snd.snd.snd) ∧
    accRdIs.snd.snd.fst = true :=
  by unfold Issues; and_intros <;> first | decide +kernel | rfl

def accWrIs := (copySpec copying copier 0 false (.accWr (ins 13 4 8 (2 ^ 17)))).get rfl
theorem witness_CopiesJoin_accWr :
    Issues copying accWrIs.fst isReady accWrIs.snd.fst copier lonePath ∧ leadLane (guardMask copier lonePath accWrIs.fst) = some 0 ∧
    copyRoom copying accWrIs.fst copier = true ∧
    copySpec copying copier 0 false (Instr.accWr (ins 13 4 8 (2 ^ 17))) =
      some (accWrIs.fst, accWrIs.snd.fst, accWrIs.snd.snd.fst, accWrIs.snd.snd.snd.fst, accWrIs.snd.snd.snd.snd) ∧
    accWrIs.snd.snd.fst = true :=
  by unfold Issues; and_intros <;> first | decide +kernel | rfl

def gaccIs := (copySpec copying copier 0 false (.gacc (ins 0 4 8 (9 * 256)))).get rfl
theorem witness_CopiesJoin_gacc :
    Issues copying gaccIs.fst isReady gaccIs.snd.fst copier lonePath ∧ leadLane (guardMask copier lonePath gaccIs.fst) = some 0 ∧
    copyRoom copying gaccIs.fst copier = true ∧
    copySpec copying copier 0 false (Instr.gacc (ins 0 4 8 (9 * 256))) =
      some (gaccIs.fst, gaccIs.snd.fst, gaccIs.snd.snd.fst, gaccIs.snd.snd.snd.fst, gaccIs.snd.snd.snd.snd) ∧
    gaccIs.snd.snd.fst = true :=
  by unfold Issues; and_intros <;> first | decide +kernel | rfl

def rputIs := (copySpec copying copier 0 false (.rput (ins 0 4 6 (1 * 2 ^ 22 + 2 ^ 21 + 16 * 256)))).get rfl
theorem witness_CopiesJoin_rput :
    Issues copying rputIs.fst isReady rputIs.snd.fst copier lonePath ∧ leadLane (guardMask copier lonePath rputIs.fst) = some 0 ∧
    copyRoom copying rputIs.fst copier = true ∧
    copySpec copying copier 0 false (Instr.rput (ins 0 4 6 (1 * 2 ^ 22 + 2 ^ 21 + 16 * 256))) =
      some (rputIs.fst, rputIs.snd.fst, rputIs.snd.snd.fst, rputIs.snd.snd.snd.fst, rputIs.snd.snd.snd.snd) ∧
    rputIs.snd.snd.fst = true :=
  by unfold Issues; and_intros <;> first | decide +kernel | rfl

def passCopier : Crew := { copier with wins := [(0, { base := 0, size := 4, weight := some 0 })] }
/-- Window 0 is a pass-through window. -/
def passCopying : State := { module passCopier with front := { (module passCopier).front with saggars := [(1, { (module passCopier).saggar 1 with weights := [(0, List.replicate 34 0 ++ [1])] })] } }
def passWrIs := (copySpec passCopying passCopier 0 true (.accWr (ins 12 4 8 (2 ^ 17)))).get rfl
theorem witness_CopiesJoin_pass :
    Issues passCopying passWrIs.fst isReady passWrIs.snd.fst passCopier lonePath ∧
    leadLane (guardMask passCopier lonePath passWrIs.fst) = some 0 ∧ copyRoom passCopying passWrIs.fst passCopier = true ∧
    copySpec passCopying passCopier 0 true (Instr.accWr (ins 12 4 8 (2 ^ 17))) =
      some (passWrIs.fst, passWrIs.snd.fst, passWrIs.snd.snd.fst, passWrIs.snd.snd.snd.fst, passWrIs.snd.snd.snd.snd) ∧
    passWrIs.snd.snd.fst = true ∧
    Instr.accWr (ins 12 4 8 (2 ^ 17)) ∈ [Instr.accRd passWrIs.fst, Instr.accWr passWrIs.fst, Instr.gacc passWrIs.fst] :=
  by unfold Issues; and_intros <;> first | decide +kernel | rfl

def matrix : Crew := { crew [] with wins := [(3, { base := 0, size := 4 })] }
theorem witness_MatrixJoins_mx :
    Converges (ins 15 0 4 (1 * 2 ^ 21 + 1 * 2 ^ 18)) matrix path ∧
    (Instr.mx (ins 15 0 4 (1 * 2 ^ 21 + 1 * 2 ^ 18)) =
       if false = true then Instr.mxh (ins 15 0 4 (1 * 2 ^ 21 + 1 * 2 ^ 18)) else Instr.mx (ins 15 0 4 (1 * 2 ^ 21 + 1 * 2 ^ 18))) ∧
    Issues (module matrix) (ins 15 0 4 (1 * 2 ^ 21 + 1 * 2 ^ 18)) readyOrMx (mxForm false (ins 15 0 4 (1 * 2 ^ 21 + 1 * 2 ^ 18)))
      matrix path ∧
    ((List.filter (fun e => !e.started) ((module matrix).wheel (ins 15 0 4 (1 * 2 ^ 21 + 1 * 2 ^ 18)).wheel).eng.mxq).length < 8) ∧
    (∀ (t : Nat),
       t ∈
           [sa (ins 15 0 4 (1 * 2 ^ 21 + 1 * 2 ^ 18)), sa (ins 15 0 4 (1 * 2 ^ 21 + 1 * 2 ^ 18)) + 1,
             sa (ins 15 0 4 (1 * 2 ^ 21 + 1 * 2 ^ 18)) + 2, sa (ins 15 0 4 (1 * 2 ^ 21 + 1 * 2 ^ 18)) + 3,
             sb (ins 15 0 4 (1 * 2 ^ 21 + 1 * 2 ^ 18)), xf (ins 15 0 4 (1 * 2 ^ 21 + 1 * 2 ^ 18)) 11 4] →
         tileComing ((module matrix).wheel (ins 15 0 4 (1 * 2 ^ 21 + 1 * 2 ^ 18)).wheel) matrix.uid t = false) ∧
    crewLanes matrix path (ins 15 0 4 (1 * 2 ^ 21 + 1 * 2 ^ 18)) ≠ 0 ∧
    formFault matrix (mxForm false (ins 15 0 4 (1 * 2 ^ 21 + 1 * 2 ^ 18))) = none ∧
    blockAt matrix (da (ins 15 0 4 (1 * 2 ^ 21 + 1 * 2 ^ 18)) % 4) (da (ins 15 0 4 (1 * 2 ^ 21 + 1 * 2 ^ 18)) / 4) =
      Except.ok
        ({ base := 0, size := 4 : Window },
          ({ base := 0, size := 4 : Window }.base + da (ins 15 0 4 (1 * 2 ^ 21 + 1 * 2 ^ 18)) / 4) * 1024) ∧
    mxFormats (ins 15 0 4 (1 * 2 ^ 21 + 1 * 2 ^ 18)) { base := 0, size := 4 : Window } = true ∧
    (((module matrix).stream matrix.stream).dunob &&
        (false || xf (ins 15 0 4 (1 * 2 ^ 21 + 1 * 2 ^ 18)) 21 3 == 0 || xf (ins 15 0 4 (1 * 2 ^ 21 + 1 * 2 ^ 18)) 18 3 == 0)) =
      false :=
  by unfold Issues Converges; and_intros <;> first | decide +kernel | rfl

theorem witness_MatrixJoins_mxh :
    Converges (ins 15 12 11 (4 * 2 ^ 21 + 4 * 2 ^ 18)) matrix path ∧
    (Instr.mxh (ins 15 12 11 (4 * 2 ^ 21 + 4 * 2 ^ 18)) =
       if true = true then Instr.mxh (ins 15 12 11 (4 * 2 ^ 21 + 4 * 2 ^ 18)) else Instr.mx (ins 15 12 11 (4 * 2 ^ 21 + 4 * 2 ^ 18))) ∧
    Issues (module matrix) (ins 15 12 11 (4 * 2 ^ 21 + 4 * 2 ^ 18)) readyOrMx (mxForm true (ins 15 12 11 (4 * 2 ^ 21 + 4 * 2 ^ 18)))
      matrix path ∧
    ((List.filter (fun e => !e.started) ((module matrix).wheel (ins 15 12 11 (4 * 2 ^ 21 + 4 * 2 ^ 18)).wheel).eng.mxq).length < 8) ∧
    (∀ (t : Nat),
       t ∈
           [sa (ins 15 12 11 (4 * 2 ^ 21 + 4 * 2 ^ 18)), sa (ins 15 12 11 (4 * 2 ^ 21 + 4 * 2 ^ 18)) + 1,
             sa (ins 15 12 11 (4 * 2 ^ 21 + 4 * 2 ^ 18)) + 2, sa (ins 15 12 11 (4 * 2 ^ 21 + 4 * 2 ^ 18)) + 3,
             sb (ins 15 12 11 (4 * 2 ^ 21 + 4 * 2 ^ 18)), xf (ins 15 12 11 (4 * 2 ^ 21 + 4 * 2 ^ 18)) 11 4] →
         tileComing ((module matrix).wheel (ins 15 12 11 (4 * 2 ^ 21 + 4 * 2 ^ 18)).wheel) matrix.uid t = false) ∧
    crewLanes matrix path (ins 15 12 11 (4 * 2 ^ 21 + 4 * 2 ^ 18)) ≠ 0 ∧
    formFault matrix (mxForm true (ins 15 12 11 (4 * 2 ^ 21 + 4 * 2 ^ 18))) = none ∧
    blockAt matrix (da (ins 15 12 11 (4 * 2 ^ 21 + 4 * 2 ^ 18)) % 4) (da (ins 15 12 11 (4 * 2 ^ 21 + 4 * 2 ^ 18)) / 4) =
      Except.ok
        ({ base := 0, size := 4 : Window },
          ({ base := 0, size := 4 : Window }.base + da (ins 15 12 11 (4 * 2 ^ 21 + 4 * 2 ^ 18)) / 4) * 1024) ∧
    mxFormats (ins 15 12 11 (4 * 2 ^ 21 + 4 * 2 ^ 18)) { base := 0, size := 4 : Window } = true ∧
    (((module matrix).stream matrix.stream).dunob &&
        (true || xf (ins 15 12 11 (4 * 2 ^ 21 + 4 * 2 ^ 18)) 21 3 == 0 || xf (ins 15 12 11 (4 * 2 ^ 21 + 4 * 2 ^ 18)) 18 3 == 0)) =
      false :=
  by unfold Issues Converges; and_intros <;> first | decide +kernel | rfl

theorem witness_MatrixJoins_mxNone :
    Converges
      { wheel := (ins 15 0 4 (1 * 2 ^ 21 + 1 * 2 ^ 18)).wheel, slot := (ins 15 0 4 (1 * 2 ^ 21 + 1 * 2 ^ 18)).slot,
        path := (ins 15 0 4 (1 * 2 ^ 21 + 1 * 2 ^ 18)).path, pg := (ins 15 0 4 (1 * 2 ^ 21 + 1 * 2 ^ 18)).pg, pn := true,
        da := (ins 15 0 4 (1 * 2 ^ 21 + 1 * 2 ^ 18)).da, sa := (ins 15 0 4 (1 * 2 ^ 21 + 1 * 2 ^ 18)).sa,
        sb := (ins 15 0 4 (1 * 2 ^ 21 + 1 * 2 ^ 18)).sb, x := (ins 15 0 4 (1 * 2 ^ 21 + 1 * 2 ^ 18)).x : Issue }
      matrix path ∧
    (Instr.mx
         { wheel := (ins 15 0 4 (1 * 2 ^ 21 + 1 * 2 ^ 18)).wheel, slot := (ins 15 0 4 (1 * 2 ^ 21 + 1 * 2 ^ 18)).slot,
           path := (ins 15 0 4 (1 * 2 ^ 21 + 1 * 2 ^ 18)).path, pg := (ins 15 0 4 (1 * 2 ^ 21 + 1 * 2 ^ 18)).pg, pn := true,
           da := (ins 15 0 4 (1 * 2 ^ 21 + 1 * 2 ^ 18)).da, sa := (ins 15 0 4 (1 * 2 ^ 21 + 1 * 2 ^ 18)).sa,
           sb := (ins 15 0 4 (1 * 2 ^ 21 + 1 * 2 ^ 18)).sb, x := (ins 15 0 4 (1 * 2 ^ 21 + 1 * 2 ^ 18)).x : Issue } =
       if false = true then
         Instr.mxh
           { wheel := (ins 15 0 4 (1 * 2 ^ 21 + 1 * 2 ^ 18)).wheel, slot := (ins 15 0 4 (1 * 2 ^ 21 + 1 * 2 ^ 18)).slot,
             path := (ins 15 0 4 (1 * 2 ^ 21 + 1 * 2 ^ 18)).path, pg := (ins 15 0 4 (1 * 2 ^ 21 + 1 * 2 ^ 18)).pg, pn := true,
             da := (ins 15 0 4 (1 * 2 ^ 21 + 1 * 2 ^ 18)).da, sa := (ins 15 0 4 (1 * 2 ^ 21 + 1 * 2 ^ 18)).sa,
             sb := (ins 15 0 4 (1 * 2 ^ 21 + 1 * 2 ^ 18)).sb, x := (ins 15 0 4 (1 * 2 ^ 21 + 1 * 2 ^ 18)).x : Issue }
       else
         Instr.mx
           { wheel := (ins 15 0 4 (1 * 2 ^ 21 + 1 * 2 ^ 18)).wheel, slot := (ins 15 0 4 (1 * 2 ^ 21 + 1 * 2 ^ 18)).slot,
             path := (ins 15 0 4 (1 * 2 ^ 21 + 1 * 2 ^ 18)).path, pg := (ins 15 0 4 (1 * 2 ^ 21 + 1 * 2 ^ 18)).pg, pn := true,
             da := (ins 15 0 4 (1 * 2 ^ 21 + 1 * 2 ^ 18)).da, sa := (ins 15 0 4 (1 * 2 ^ 21 + 1 * 2 ^ 18)).sa,
             sb := (ins 15 0 4 (1 * 2 ^ 21 + 1 * 2 ^ 18)).sb, x := (ins 15 0 4 (1 * 2 ^ 21 + 1 * 2 ^ 18)).x : Issue }) ∧
    Issues (module matrix)
      { wheel := (ins 15 0 4 (1 * 2 ^ 21 + 1 * 2 ^ 18)).wheel, slot := (ins 15 0 4 (1 * 2 ^ 21 + 1 * 2 ^ 18)).slot,
        path := (ins 15 0 4 (1 * 2 ^ 21 + 1 * 2 ^ 18)).path, pg := (ins 15 0 4 (1 * 2 ^ 21 + 1 * 2 ^ 18)).pg, pn := true,
        da := (ins 15 0 4 (1 * 2 ^ 21 + 1 * 2 ^ 18)).da, sa := (ins 15 0 4 (1 * 2 ^ 21 + 1 * 2 ^ 18)).sa,
        sb := (ins 15 0 4 (1 * 2 ^ 21 + 1 * 2 ^ 18)).sb, x := (ins 15 0 4 (1 * 2 ^ 21 + 1 * 2 ^ 18)).x : Issue }
      readyOrMx
      (mxForm false
        { wheel := (ins 15 0 4 (1 * 2 ^ 21 + 1 * 2 ^ 18)).wheel, slot := (ins 15 0 4 (1 * 2 ^ 21 + 1 * 2 ^ 18)).slot,
          path := (ins 15 0 4 (1 * 2 ^ 21 + 1 * 2 ^ 18)).path, pg := (ins 15 0 4 (1 * 2 ^ 21 + 1 * 2 ^ 18)).pg, pn := true,
          da := (ins 15 0 4 (1 * 2 ^ 21 + 1 * 2 ^ 18)).da, sa := (ins 15 0 4 (1 * 2 ^ 21 + 1 * 2 ^ 18)).sa,
          sb := (ins 15 0 4 (1 * 2 ^ 21 + 1 * 2 ^ 18)).sb, x := (ins 15 0 4 (1 * 2 ^ 21 + 1 * 2 ^ 18)).x : Issue })
      matrix path ∧
    ((List.filter (fun e => !e.started)
           ((module matrix).wheel
                 { wheel := (ins 15 0 4 (1 * 2 ^ 21 + 1 * 2 ^ 18)).wheel, slot := (ins 15 0 4 (1 * 2 ^ 21 + 1 * 2 ^ 18)).slot,
                     path := (ins 15 0 4 (1 * 2 ^ 21 + 1 * 2 ^ 18)).path, pg := (ins 15 0 4 (1 * 2 ^ 21 + 1 * 2 ^ 18)).pg, pn := true,
                     da := (ins 15 0 4 (1 * 2 ^ 21 + 1 * 2 ^ 18)).da, sa := (ins 15 0 4 (1 * 2 ^ 21 + 1 * 2 ^ 18)).sa,
                     sb := (ins 15 0 4 (1 * 2 ^ 21 + 1 * 2 ^ 18)).sb, x := (ins 15 0 4 (1 * 2 ^ 21 + 1 * 2 ^ 18)).x :
                     Issue }.wheel).eng.mxq).length <
       8) ∧
    (∀ (t : Nat),
       t ∈
           [sa
               { wheel := (ins 15 0 4 (1 * 2 ^ 21 + 1 * 2 ^ 18)).wheel, slot := (ins 15 0 4 (1 * 2 ^ 21 + 1 * 2 ^ 18)).slot,
                 path := (ins 15 0 4 (1 * 2 ^ 21 + 1 * 2 ^ 18)).path, pg := (ins 15 0 4 (1 * 2 ^ 21 + 1 * 2 ^ 18)).pg, pn := true,
                 da := (ins 15 0 4 (1 * 2 ^ 21 + 1 * 2 ^ 18)).da, sa := (ins 15 0 4 (1 * 2 ^ 21 + 1 * 2 ^ 18)).sa,
                 sb := (ins 15 0 4 (1 * 2 ^ 21 + 1 * 2 ^ 18)).sb, x := (ins 15 0 4 (1 * 2 ^ 21 + 1 * 2 ^ 18)).x : Issue },
             sa
                 { wheel := (ins 15 0 4 (1 * 2 ^ 21 + 1 * 2 ^ 18)).wheel, slot := (ins 15 0 4 (1 * 2 ^ 21 + 1 * 2 ^ 18)).slot,
                   path := (ins 15 0 4 (1 * 2 ^ 21 + 1 * 2 ^ 18)).path, pg := (ins 15 0 4 (1 * 2 ^ 21 + 1 * 2 ^ 18)).pg, pn := true,
                   da := (ins 15 0 4 (1 * 2 ^ 21 + 1 * 2 ^ 18)).da, sa := (ins 15 0 4 (1 * 2 ^ 21 + 1 * 2 ^ 18)).sa,
                   sb := (ins 15 0 4 (1 * 2 ^ 21 + 1 * 2 ^ 18)).sb, x := (ins 15 0 4 (1 * 2 ^ 21 + 1 * 2 ^ 18)).x : Issue } +
               1,
             sa
                 { wheel := (ins 15 0 4 (1 * 2 ^ 21 + 1 * 2 ^ 18)).wheel, slot := (ins 15 0 4 (1 * 2 ^ 21 + 1 * 2 ^ 18)).slot,
                   path := (ins 15 0 4 (1 * 2 ^ 21 + 1 * 2 ^ 18)).path, pg := (ins 15 0 4 (1 * 2 ^ 21 + 1 * 2 ^ 18)).pg, pn := true,
                   da := (ins 15 0 4 (1 * 2 ^ 21 + 1 * 2 ^ 18)).da, sa := (ins 15 0 4 (1 * 2 ^ 21 + 1 * 2 ^ 18)).sa,
                   sb := (ins 15 0 4 (1 * 2 ^ 21 + 1 * 2 ^ 18)).sb, x := (ins 15 0 4 (1 * 2 ^ 21 + 1 * 2 ^ 18)).x : Issue } +
               2,
             sa
                 { wheel := (ins 15 0 4 (1 * 2 ^ 21 + 1 * 2 ^ 18)).wheel, slot := (ins 15 0 4 (1 * 2 ^ 21 + 1 * 2 ^ 18)).slot,
                   path := (ins 15 0 4 (1 * 2 ^ 21 + 1 * 2 ^ 18)).path, pg := (ins 15 0 4 (1 * 2 ^ 21 + 1 * 2 ^ 18)).pg, pn := true,
                   da := (ins 15 0 4 (1 * 2 ^ 21 + 1 * 2 ^ 18)).da, sa := (ins 15 0 4 (1 * 2 ^ 21 + 1 * 2 ^ 18)).sa,
                   sb := (ins 15 0 4 (1 * 2 ^ 21 + 1 * 2 ^ 18)).sb, x := (ins 15 0 4 (1 * 2 ^ 21 + 1 * 2 ^ 18)).x : Issue } +
               3,
             sb
               { wheel := (ins 15 0 4 (1 * 2 ^ 21 + 1 * 2 ^ 18)).wheel, slot := (ins 15 0 4 (1 * 2 ^ 21 + 1 * 2 ^ 18)).slot,
                 path := (ins 15 0 4 (1 * 2 ^ 21 + 1 * 2 ^ 18)).path, pg := (ins 15 0 4 (1 * 2 ^ 21 + 1 * 2 ^ 18)).pg, pn := true,
                 da := (ins 15 0 4 (1 * 2 ^ 21 + 1 * 2 ^ 18)).da, sa := (ins 15 0 4 (1 * 2 ^ 21 + 1 * 2 ^ 18)).sa,
                 sb := (ins 15 0 4 (1 * 2 ^ 21 + 1 * 2 ^ 18)).sb, x := (ins 15 0 4 (1 * 2 ^ 21 + 1 * 2 ^ 18)).x : Issue },
             xf
               { wheel := (ins 15 0 4 (1 * 2 ^ 21 + 1 * 2 ^ 18)).wheel, slot := (ins 15 0 4 (1 * 2 ^ 21 + 1 * 2 ^ 18)).slot,
                 path := (ins 15 0 4 (1 * 2 ^ 21 + 1 * 2 ^ 18)).path, pg := (ins 15 0 4 (1 * 2 ^ 21 + 1 * 2 ^ 18)).pg, pn := true,
                 da := (ins 15 0 4 (1 * 2 ^ 21 + 1 * 2 ^ 18)).da, sa := (ins 15 0 4 (1 * 2 ^ 21 + 1 * 2 ^ 18)).sa,
                 sb := (ins 15 0 4 (1 * 2 ^ 21 + 1 * 2 ^ 18)).sb, x := (ins 15 0 4 (1 * 2 ^ 21 + 1 * 2 ^ 18)).x : Issue }
               11 4] →
         tileComing
             ((module matrix).wheel
               { wheel := (ins 15 0 4 (1 * 2 ^ 21 + 1 * 2 ^ 18)).wheel, slot := (ins 15 0 4 (1 * 2 ^ 21 + 1 * 2 ^ 18)).slot,
                   path := (ins 15 0 4 (1 * 2 ^ 21 + 1 * 2 ^ 18)).path, pg := (ins 15 0 4 (1 * 2 ^ 21 + 1 * 2 ^ 18)).pg, pn := true,
                   da := (ins 15 0 4 (1 * 2 ^ 21 + 1 * 2 ^ 18)).da, sa := (ins 15 0 4 (1 * 2 ^ 21 + 1 * 2 ^ 18)).sa,
                   sb := (ins 15 0 4 (1 * 2 ^ 21 + 1 * 2 ^ 18)).sb, x := (ins 15 0 4 (1 * 2 ^ 21 + 1 * 2 ^ 18)).x : Issue }.wheel)
             matrix.uid t =
           false) ∧
    crewLanes matrix path
        { wheel := (ins 15 0 4 (1 * 2 ^ 21 + 1 * 2 ^ 18)).wheel, slot := (ins 15 0 4 (1 * 2 ^ 21 + 1 * 2 ^ 18)).slot,
          path := (ins 15 0 4 (1 * 2 ^ 21 + 1 * 2 ^ 18)).path, pg := (ins 15 0 4 (1 * 2 ^ 21 + 1 * 2 ^ 18)).pg, pn := true,
          da := (ins 15 0 4 (1 * 2 ^ 21 + 1 * 2 ^ 18)).da, sa := (ins 15 0 4 (1 * 2 ^ 21 + 1 * 2 ^ 18)).sa,
          sb := (ins 15 0 4 (1 * 2 ^ 21 + 1 * 2 ^ 18)).sb, x := (ins 15 0 4 (1 * 2 ^ 21 + 1 * 2 ^ 18)).x : Issue } =
      0 :=
  by unfold Issues Converges; and_intros <;> first | decide +kernel | rfl

theorem witness_MatrixJoins_mv :
    Converges (ins 3 0 4 (4 * 2 ^ 21 + 4 * 2 ^ 18 + 15 * 2 ^ 11)) matrix path ∧
    Issues (module matrix) (ins 3 0 4 (4 * 2 ^ 21 + 4 * 2 ^ 18 + 15 * 2 ^ 11)) readyOrMx
      (mvForm (ins 3 0 4 (4 * 2 ^ 21 + 4 * 2 ^ 18 + 15 * 2 ^ 11))) matrix path ∧
    ((module matrix).wheel (ins 3 0 4 (4 * 2 ^ 21 + 4 * 2 ^ 18 + 15 * 2 ^ 11)).wheel).eng.mvq.length < 4 ∧
    (∀ (t : Nat),
       t ∈ [sb (ins 3 0 4 (4 * 2 ^ 21 + 4 * 2 ^ 18 + 15 * 2 ^ 11)), xf (ins 3 0 4 (4 * 2 ^ 21 + 4 * 2 ^ 18 + 15 * 2 ^ 11)) 11 4] →
         tileComing ((module matrix).wheel (ins 3 0 4 (4 * 2 ^ 21 + 4 * 2 ^ 18 + 15 * 2 ^ 11)).wheel) matrix.uid t = false) ∧
    crewLanes matrix path (ins 3 0 4 (4 * 2 ^ 21 + 4 * 2 ^ 18 + 15 * 2 ^ 11)) ≠ 0 ∧
    formFault matrix (mvForm (ins 3 0 4 (4 * 2 ^ 21 + 4 * 2 ^ 18 + 15 * 2 ^ 11))) = none ∧
    matrix.wins.find (da (ins 3 0 4 (4 * 2 ^ 21 + 4 * 2 ^ 18 + 15 * 2 ^ 11))) = some { base := 0, size := 4 : Window } ∧
    BitVec.toNat
              (reg matrix ((leadLane (crewLanes matrix path (ins 3 0 4 (4 * 2 ^ 21 + 4 * 2 ^ 18 + 15 * 2 ^ 11)))).getD 0)
                (sa (ins 3 0 4 (4 * 2 ^ 21 + 4 * 2 ^ 18 + 15 * 2 ^ 11)))) %
            4096 *
          16 +
        16 ≤
      { base := 0, size := 4 : Window }.size * 1024 ∧
    { base := 0, size := 4 : Window }.isInt = false ∧
    (isFp8 (xf (ins 3 0 4 (4 * 2 ^ 21 + 4 * 2 ^ 18 + 15 * 2 ^ 11)) 21 3) &&
          isFp8 (xf (ins 3 0 4 (4 * 2 ^ 21 + 4 * 2 ^ 18 + 15 * 2 ^ 11)) 18 3) ||
        xf (ins 3 0 4 (4 * 2 ^ 21 + 4 * 2 ^ 18 + 15 * 2 ^ 11)) 21 3 == 4 &&
          xf (ins 3 0 4 (4 * 2 ^ 21 + 4 * 2 ^ 18 + 15 * 2 ^ 11)) 18 3 == 4) =
      true :=
  by unfold Issues Converges; and_intros <;> first | decide +kernel | rfl

theorem witness_MatrixJoins_mvNone :
    Converges
      { wheel := (ins 3 0 4 (4 * 2 ^ 21 + 4 * 2 ^ 18 + 15 * 2 ^ 11)).wheel,
        slot := (ins 3 0 4 (4 * 2 ^ 21 + 4 * 2 ^ 18 + 15 * 2 ^ 11)).slot,
        path := (ins 3 0 4 (4 * 2 ^ 21 + 4 * 2 ^ 18 + 15 * 2 ^ 11)).path,
        pg := (ins 3 0 4 (4 * 2 ^ 21 + 4 * 2 ^ 18 + 15 * 2 ^ 11)).pg, pn := true,
        da := (ins 3 0 4 (4 * 2 ^ 21 + 4 * 2 ^ 18 + 15 * 2 ^ 11)).da, sa := (ins 3 0 4 (4 * 2 ^ 21 + 4 * 2 ^ 18 + 15 * 2 ^ 11)).sa,
        sb := (ins 3 0 4 (4 * 2 ^ 21 + 4 * 2 ^ 18 + 15 * 2 ^ 11)).sb, x := (ins 3 0 4 (4 * 2 ^ 21 + 4 * 2 ^ 18 + 15 * 2 ^ 11)).x :
        Issue }
      matrix path ∧
    Issues (module matrix)
      { wheel := (ins 3 0 4 (4 * 2 ^ 21 + 4 * 2 ^ 18 + 15 * 2 ^ 11)).wheel,
        slot := (ins 3 0 4 (4 * 2 ^ 21 + 4 * 2 ^ 18 + 15 * 2 ^ 11)).slot,
        path := (ins 3 0 4 (4 * 2 ^ 21 + 4 * 2 ^ 18 + 15 * 2 ^ 11)).path,
        pg := (ins 3 0 4 (4 * 2 ^ 21 + 4 * 2 ^ 18 + 15 * 2 ^ 11)).pg, pn := true,
        da := (ins 3 0 4 (4 * 2 ^ 21 + 4 * 2 ^ 18 + 15 * 2 ^ 11)).da, sa := (ins 3 0 4 (4 * 2 ^ 21 + 4 * 2 ^ 18 + 15 * 2 ^ 11)).sa,
        sb := (ins 3 0 4 (4 * 2 ^ 21 + 4 * 2 ^ 18 + 15 * 2 ^ 11)).sb, x := (ins 3 0 4 (4 * 2 ^ 21 + 4 * 2 ^ 18 + 15 * 2 ^ 11)).x :
        Issue }
      readyOrMx
      (mvForm
        { wheel := (ins 3 0 4 (4 * 2 ^ 21 + 4 * 2 ^ 18 + 15 * 2 ^ 11)).wheel,
          slot := (ins 3 0 4 (4 * 2 ^ 21 + 4 * 2 ^ 18 + 15 * 2 ^ 11)).slot,
          path := (ins 3 0 4 (4 * 2 ^ 21 + 4 * 2 ^ 18 + 15 * 2 ^ 11)).path,
          pg := (ins 3 0 4 (4 * 2 ^ 21 + 4 * 2 ^ 18 + 15 * 2 ^ 11)).pg, pn := true,
          da := (ins 3 0 4 (4 * 2 ^ 21 + 4 * 2 ^ 18 + 15 * 2 ^ 11)).da, sa := (ins 3 0 4 (4 * 2 ^ 21 + 4 * 2 ^ 18 + 15 * 2 ^ 11)).sa,
          sb := (ins 3 0 4 (4 * 2 ^ 21 + 4 * 2 ^ 18 + 15 * 2 ^ 11)).sb, x := (ins 3 0 4 (4 * 2 ^ 21 + 4 * 2 ^ 18 + 15 * 2 ^ 11)).x :
          Issue })
      matrix path ∧
    ((module matrix).wheel
              { wheel := (ins 3 0 4 (4 * 2 ^ 21 + 4 * 2 ^ 18 + 15 * 2 ^ 11)).wheel,
                  slot := (ins 3 0 4 (4 * 2 ^ 21 + 4 * 2 ^ 18 + 15 * 2 ^ 11)).slot,
                  path := (ins 3 0 4 (4 * 2 ^ 21 + 4 * 2 ^ 18 + 15 * 2 ^ 11)).path,
                  pg := (ins 3 0 4 (4 * 2 ^ 21 + 4 * 2 ^ 18 + 15 * 2 ^ 11)).pg, pn := true,
                  da := (ins 3 0 4 (4 * 2 ^ 21 + 4 * 2 ^ 18 + 15 * 2 ^ 11)).da,
                  sa := (ins 3 0 4 (4 * 2 ^ 21 + 4 * 2 ^ 18 + 15 * 2 ^ 11)).sa,
                  sb := (ins 3 0 4 (4 * 2 ^ 21 + 4 * 2 ^ 18 + 15 * 2 ^ 11)).sb,
                  x := (ins 3 0 4 (4 * 2 ^ 21 + 4 * 2 ^ 18 + 15 * 2 ^ 11)).x : Issue }.wheel).eng.mvq.length <
      4 ∧
    (∀ (t : Nat),
       t ∈
           [sb
               { wheel := (ins 3 0 4 (4 * 2 ^ 21 + 4 * 2 ^ 18 + 15 * 2 ^ 11)).wheel,
                 slot := (ins 3 0 4 (4 * 2 ^ 21 + 4 * 2 ^ 18 + 15 * 2 ^ 11)).slot,
                 path := (ins 3 0 4 (4 * 2 ^ 21 + 4 * 2 ^ 18 + 15 * 2 ^ 11)).path,
                 pg := (ins 3 0 4 (4 * 2 ^ 21 + 4 * 2 ^ 18 + 15 * 2 ^ 11)).pg, pn := true,
                 da := (ins 3 0 4 (4 * 2 ^ 21 + 4 * 2 ^ 18 + 15 * 2 ^ 11)).da,
                 sa := (ins 3 0 4 (4 * 2 ^ 21 + 4 * 2 ^ 18 + 15 * 2 ^ 11)).sa,
                 sb := (ins 3 0 4 (4 * 2 ^ 21 + 4 * 2 ^ 18 + 15 * 2 ^ 11)).sb,
                 x := (ins 3 0 4 (4 * 2 ^ 21 + 4 * 2 ^ 18 + 15 * 2 ^ 11)).x : Issue },
             xf
               { wheel := (ins 3 0 4 (4 * 2 ^ 21 + 4 * 2 ^ 18 + 15 * 2 ^ 11)).wheel,
                 slot := (ins 3 0 4 (4 * 2 ^ 21 + 4 * 2 ^ 18 + 15 * 2 ^ 11)).slot,
                 path := (ins 3 0 4 (4 * 2 ^ 21 + 4 * 2 ^ 18 + 15 * 2 ^ 11)).path,
                 pg := (ins 3 0 4 (4 * 2 ^ 21 + 4 * 2 ^ 18 + 15 * 2 ^ 11)).pg, pn := true,
                 da := (ins 3 0 4 (4 * 2 ^ 21 + 4 * 2 ^ 18 + 15 * 2 ^ 11)).da,
                 sa := (ins 3 0 4 (4 * 2 ^ 21 + 4 * 2 ^ 18 + 15 * 2 ^ 11)).sa,
                 sb := (ins 3 0 4 (4 * 2 ^ 21 + 4 * 2 ^ 18 + 15 * 2 ^ 11)).sb,
                 x := (ins 3 0 4 (4 * 2 ^ 21 + 4 * 2 ^ 18 + 15 * 2 ^ 11)).x : Issue }
               11 4] →
         tileComing
             ((module matrix).wheel
               { wheel := (ins 3 0 4 (4 * 2 ^ 21 + 4 * 2 ^ 18 + 15 * 2 ^ 11)).wheel,
                   slot := (ins 3 0 4 (4 * 2 ^ 21 + 4 * 2 ^ 18 + 15 * 2 ^ 11)).slot,
                   path := (ins 3 0 4 (4 * 2 ^ 21 + 4 * 2 ^ 18 + 15 * 2 ^ 11)).path,
                   pg := (ins 3 0 4 (4 * 2 ^ 21 + 4 * 2 ^ 18 + 15 * 2 ^ 11)).pg, pn := true,
                   da := (ins 3 0 4 (4 * 2 ^ 21 + 4 * 2 ^ 18 + 15 * 2 ^ 11)).da,
                   sa := (ins 3 0 4 (4 * 2 ^ 21 + 4 * 2 ^ 18 + 15 * 2 ^ 11)).sa,
                   sb := (ins 3 0 4 (4 * 2 ^ 21 + 4 * 2 ^ 18 + 15 * 2 ^ 11)).sb,
                   x := (ins 3 0 4 (4 * 2 ^ 21 + 4 * 2 ^ 18 + 15 * 2 ^ 11)).x : Issue }.wheel)
             matrix.uid t =
           false) ∧
    crewLanes matrix path
        { wheel := (ins 3 0 4 (4 * 2 ^ 21 + 4 * 2 ^ 18 + 15 * 2 ^ 11)).wheel,
          slot := (ins 3 0 4 (4 * 2 ^ 21 + 4 * 2 ^ 18 + 15 * 2 ^ 11)).slot,
          path := (ins 3 0 4 (4 * 2 ^ 21 + 4 * 2 ^ 18 + 15 * 2 ^ 11)).path,
          pg := (ins 3 0 4 (4 * 2 ^ 21 + 4 * 2 ^ 18 + 15 * 2 ^ 11)).pg, pn := true,
          da := (ins 3 0 4 (4 * 2 ^ 21 + 4 * 2 ^ 18 + 15 * 2 ^ 11)).da, sa := (ins 3 0 4 (4 * 2 ^ 21 + 4 * 2 ^ 18 + 15 * 2 ^ 11)).sa,
          sb := (ins 3 0 4 (4 * 2 ^ 21 + 4 * 2 ^ 18 + 15 * 2 ^ 11)).sb, x := (ins 3 0 4 (4 * 2 ^ 21 + 4 * 2 ^ 18 + 15 * 2 ^ 11)).x :
          Issue } =
      0 :=
  by unfold Issues Converges; and_intros <;> first | decide +kernel | rfl

def halfMatrix : Crew := { matrix with paths := [(31, { mask := 0xFFFF })] }
theorem witness_MatrixWaits :
    ((Instr.mx (ins 15 0 4 (1 * 2 ^ 21 + 1 * 2 ^ 18)), mxForm false (ins 15 0 4 (1 * 2 ^ 21 + 1 * 2 ^ 18))) ∈
       [(if false = true then Instr.mxh (ins 15 0 4 (1 * 2 ^ 21 + 1 * 2 ^ 18)) else Instr.mx (ins 15 0 4 (1 * 2 ^ 21 + 1 * 2 ^ 18)),
           mxForm false (ins 15 0 4 (1 * 2 ^ 21 + 1 * 2 ^ 18))),
         (Instr.mv (ins 15 0 4 (1 * 2 ^ 21 + 1 * 2 ^ 18)), mvForm (ins 15 0 4 (1 * 2 ^ 21 + 1 * 2 ^ 18)))]) ∧
    Issues (module halfMatrix) (ins 15 0 4 (1 * 2 ^ 21 + 1 * 2 ^ 18)) readyOrMx (mxForm false (ins 15 0 4 (1 * 2 ^ 21 + 1 * 2 ^ 18)))
      halfMatrix { mask := 65535 : CPath } ∧
    { mask := 65535 : CPath }.wait = PathWait.ready ∧ converged halfMatrix (ins 15 0 4 (1 * 2 ^ 21 + 1 * 2 ^ 18)).path = false ∧
    (∀ (e : Nat × CPath), e ∈ halfMatrix.paths → e.snd.wait = PathWait.mx → e.snd.pc = { mask := 65535 : CPath }.pc) :=
  ⟨.head _, by unfold Issues; and_intros <;> first | decide +kernel | rfl⟩

def tiler : Crew := lone [(4, 64), (8, 64)]
theorem witness_TilesAndWindows_tldLocal :
    leadLane (guardMask tiler lonePath (ins 15 4 0 (2 ^ 23 + 3 * 2 ^ 21 + 2 ^ 20 + 8 * 256))) = some 0 ∧
    Issues (module tiler) (ins 15 4 0 (2 ^ 23 + 3 * 2 ^ 21 + 2 ^ 20 + 8 * 256)) isReady
      {
        legal :=
          (tileForm (ins 15 4 0 (2 ^ 23 + 3 * 2 ^ 21 + 2 ^ 20 + 8 * 256))
              ((ins 15 4 0 (2 ^ 23 + 3 * 2 ^ 21 + 2 ^ 20 + 8 * 256)).sb == 0)
              (da (ins 15 4 0 (2 ^ 23 + 3 * 2 ^ 21 + 2 ^ 20 + 8 * 256)))).legal,
        pairs :=
          (tileForm (ins 15 4 0 (2 ^ 23 + 3 * 2 ^ 21 + 2 ^ 20 + 8 * 256))
              ((ins 15 4 0 (2 ^ 23 + 3 * 2 ^ 21 + 2 ^ 20 + 8 * 256)).sb == 0)
              (da (ins 15 4 0 (2 ^ 23 + 3 * 2 ^ 21 + 2 ^ 20 + 8 * 256)))).pairs,
        quads :=
          (tileForm (ins 15 4 0 (2 ^ 23 + 3 * 2 ^ 21 + 2 ^ 20 + 8 * 256))
              ((ins 15 4 0 (2 ^ 23 + 3 * 2 ^ 21 + 2 ^ 20 + 8 * 256)).sb == 0)
              (da (ins 15 4 0 (2 ^ 23 + 3 * 2 ^ 21 + 2 ^ 20 + 8 * 256)))).quads,
        regs :=
          (tileForm (ins 15 4 0 (2 ^ 23 + 3 * 2 ^ 21 + 2 ^ 20 + 8 * 256))
              ((ins 15 4 0 (2 ^ 23 + 3 * 2 ^ 21 + 2 ^ 20 + 8 * 256)).sb == 0)
              (da (ins 15 4 0 (2 ^ 23 + 3 * 2 ^ 21 + 2 ^ 20 + 8 * 256)))).regs,
        tiles :=
          (tileForm (ins 15 4 0 (2 ^ 23 + 3 * 2 ^ 21 + 2 ^ 20 + 8 * 256))
              ((ins 15 4 0 (2 ^ 23 + 3 * 2 ^ 21 + 2 ^ 20 + 8 * 256)).sb == 0)
              (da (ins 15 4 0 (2 ^ 23 + 3 * 2 ^ 21 + 2 ^ 20 + 8 * 256)))).tiles,
        guarded :=
          (tileForm (ins 15 4 0 (2 ^ 23 + 3 * 2 ^ 21 + 2 ^ 20 + 8 * 256))
              ((ins 15 4 0 (2 ^ 23 + 3 * 2 ^ 21 + 2 ^ 20 + 8 * 256)).sb == 0)
              (da (ins 15 4 0 (2 ^ 23 + 3 * 2 ^ 21 + 2 ^ 20 + 8 * 256)))).guarded,
        reads := !(ins 15 4 0 (2 ^ 23 + 3 * 2 ^ 21 + 2 ^ 20 + 8 * 256)).x.getLsbD 23,
        late :=
          (tileForm (ins 15 4 0 (2 ^ 23 + 3 * 2 ^ 21 + 2 ^ 20 + 8 * 256))
              ((ins 15 4 0 (2 ^ 23 + 3 * 2 ^ 21 + 2 ^ 20 + 8 * 256)).sb == 0)
              (da (ins 15 4 0 (2 ^ 23 + 3 * 2 ^ 21 + 2 ^ 20 + 8 * 256)))).late :
        Form }
      tiler lonePath ∧
    tileHeld ((module tiler).wheel (ins 15 4 0 (2 ^ 23 + 3 * 2 ^ 21 + 2 ^ 20 + 8 * 256)).wheel) tiler.uid
        (da (ins 15 4 0 (2 ^ 23 + 3 * 2 ^ 21 + 2 ^ 20 + 8 * 256))) =
      false ∧
    (ins 15 4 0 (2 ^ 23 + 3 * 2 ^ 21 + 2 ^ 20 + 8 * 256)).x.getLsbD 23 = true ∧
    (tileLs (ins 15 4 0 (2 ^ 23 + 3 * 2 ^ 21 + 2 ^ 20 + 8 * 256)) tiler 0 =
       Except.ok
         (List.map
           (fun j =>
             BitVec.toNat (reg tiler 0 (sa (ins 15 4 0 (2 ^ 23 + 3 * 2 ^ 21 + 2 ^ 20 + 8 * 256)))) +
               j * BitVec.toNat (reg tiler 0 (xf (ins 15 4 0 (2 ^ 23 + 3 * 2 ^ 21 + 2 ^ 20 + 8 * 256)) 8 8)))
           (chunks (ins 15 4 0 (2 ^ 23 + 3 * 2 ^ 21 + 2 ^ 20 + 8 * 256))))) :=
  by unfold Issues; and_intros <;> first | decide +kernel | rfl

theorem witness_TilesAndWindows_tldMemory :
    leadLane (guardMask tiler lonePath (ins 15 4 0 (3 * 2 ^ 21 + 8 * 256))) = some 0 ∧
    Issues (module tiler) (ins 15 4 0 (3 * 2 ^ 21 + 8 * 256)) isReady
      {
        legal :=
          (tileForm (ins 15 4 0 (3 * 2 ^ 21 + 8 * 256)) ((ins 15 4 0 (3 * 2 ^ 21 + 8 * 256)).sb == 0)
              (da (ins 15 4 0 (3 * 2 ^ 21 + 8 * 256)))).legal,
        pairs :=
          (tileForm (ins 15 4 0 (3 * 2 ^ 21 + 8 * 256)) ((ins 15 4 0 (3 * 2 ^ 21 + 8 * 256)).sb == 0)
              (da (ins 15 4 0 (3 * 2 ^ 21 + 8 * 256)))).pairs,
        quads :=
          (tileForm (ins 15 4 0 (3 * 2 ^ 21 + 8 * 256)) ((ins 15 4 0 (3 * 2 ^ 21 + 8 * 256)).sb == 0)
              (da (ins 15 4 0 (3 * 2 ^ 21 + 8 * 256)))).quads,
        regs :=
          (tileForm (ins 15 4 0 (3 * 2 ^ 21 + 8 * 256)) ((ins 15 4 0 (3 * 2 ^ 21 + 8 * 256)).sb == 0)
              (da (ins 15 4 0 (3 * 2 ^ 21 + 8 * 256)))).regs,
        tiles :=
          (tileForm (ins 15 4 0 (3 * 2 ^ 21 + 8 * 256)) ((ins 15 4 0 (3 * 2 ^ 21 + 8 * 256)).sb == 0)
              (da (ins 15 4 0 (3 * 2 ^ 21 + 8 * 256)))).tiles,
        guarded :=
          (tileForm (ins 15 4 0 (3 * 2 ^ 21 + 8 * 256)) ((ins 15 4 0 (3 * 2 ^ 21 + 8 * 256)).sb == 0)
              (da (ins 15 4 0 (3 * 2 ^ 21 + 8 * 256)))).guarded,
        reads := !(ins 15 4 0 (3 * 2 ^ 21 + 8 * 256)).x.getLsbD 23,
        late :=
          (tileForm (ins 15 4 0 (3 * 2 ^ 21 + 8 * 256)) ((ins 15 4 0 (3 * 2 ^ 21 + 8 * 256)).sb == 0)
              (da (ins 15 4 0 (3 * 2 ^ 21 + 8 * 256)))).late :
        Form }
      tiler lonePath ∧
    tileHeld ((module tiler).wheel (ins 15 4 0 (3 * 2 ^ 21 + 8 * 256)).wheel) tiler.uid (da (ins 15 4 0 (3 * 2 ^ 21 + 8 * 256))) =
      false ∧
    (ins 15 4 0 (3 * 2 ^ 21 + 8 * 256)).x.getLsbD 23 = false ∧
    (tileDev (ins 15 4 0 (3 * 2 ^ 21 + 8 * 256)) tiler 0 =
       Except.ok
         (List.map
           (fun j =>
             pair tiler 0 (sa (ins 15 4 0 (3 * 2 ^ 21 + 8 * 256))) +
               BitVec.ofNat 64 j * BitVec.setWidth 64 (reg tiler 0 (xf (ins 15 4 0 (3 * 2 ^ 21 + 8 * 256)) 8 8)))
           (chunks (ins 15 4 0 (3 * 2 ^ 21 + 8 * 256))))) ∧
    (firstFault (module tiler) tiler.saggar false (chunkOf (ins 15 4 0 (3 * 2 ^ 21 + 8 * 256)))
         (List.map
           (fun j =>
             pair tiler 0 (sa (ins 15 4 0 (3 * 2 ^ 21 + 8 * 256))) +
               BitVec.ofNat 64 j * BitVec.setWidth 64 (reg tiler 0 (xf (ins 15 4 0 (3 * 2 ^ 21 + 8 * 256)) 8 8)))
           (chunks (ins 15 4 0 (3 * 2 ^ 21 + 8 * 256)))) =
       none) :=
  by unfold Issues; and_intros <;> first | decide +kernel | rfl

theorem witness_TilesAndWindows_tstLocal :
    leadLane (guardMask tiler lonePath (ins 0 4 15 (2 ^ 23 + 3 * 2 ^ 21 + 2 ^ 20 + 8 * 256))) = some 0 ∧
    Issues (module tiler) (ins 0 4 15 (2 ^ 23 + 3 * 2 ^ 21 + 2 ^ 20 + 8 * 256)) isReady
      (tileForm (ins 0 4 15 (2 ^ 23 + 3 * 2 ^ 21 + 2 ^ 20 + 8 * 256)) ((ins 0 4 15 (2 ^ 23 + 3 * 2 ^ 21 + 2 ^ 20 + 8 * 256)).da == 0)
        (sb (ins 0 4 15 (2 ^ 23 + 3 * 2 ^ 21 + 2 ^ 20 + 8 * 256))))
      tiler lonePath ∧
    tileComing ((module tiler).wheel (ins 0 4 15 (2 ^ 23 + 3 * 2 ^ 21 + 2 ^ 20 + 8 * 256)).wheel) tiler.uid
        (sb (ins 0 4 15 (2 ^ 23 + 3 * 2 ^ 21 + 2 ^ 20 + 8 * 256))) =
      false ∧
    (ins 0 4 15 (2 ^ 23 + 3 * 2 ^ 21 + 2 ^ 20 + 8 * 256)).x.getLsbD 23 = true ∧
    (tileLs (ins 0 4 15 (2 ^ 23 + 3 * 2 ^ 21 + 2 ^ 20 + 8 * 256)) tiler 0 =
       Except.ok
         (List.map
           (fun j =>
             BitVec.toNat (reg tiler 0 (sa (ins 0 4 15 (2 ^ 23 + 3 * 2 ^ 21 + 2 ^ 20 + 8 * 256)))) +
               j * BitVec.toNat (reg tiler 0 (xf (ins 0 4 15 (2 ^ 23 + 3 * 2 ^ 21 + 2 ^ 20 + 8 * 256)) 8 8)))
           (chunks (ins 0 4 15 (2 ^ 23 + 3 * 2 ^ 21 + 2 ^ 20 + 8 * 256))))) :=
  by unfold Issues; and_intros <;> first | decide +kernel | rfl

theorem witness_TilesAndWindows_tstMemory :
    leadLane (guardMask tiler lonePath (ins 0 4 15 (3 * 2 ^ 21 + 8 * 256))) = some 0 ∧
    Issues (module tiler) (ins 0 4 15 (3 * 2 ^ 21 + 8 * 256)) isReady
      (tileForm (ins 0 4 15 (3 * 2 ^ 21 + 8 * 256)) ((ins 0 4 15 (3 * 2 ^ 21 + 8 * 256)).da == 0)
        (sb (ins 0 4 15 (3 * 2 ^ 21 + 8 * 256))))
      tiler lonePath ∧
    tileComing ((module tiler).wheel (ins 0 4 15 (3 * 2 ^ 21 + 8 * 256)).wheel) tiler.uid (sb (ins 0 4 15 (3 * 2 ^ 21 + 8 * 256))) =
      false ∧
    (ins 0 4 15 (3 * 2 ^ 21 + 8 * 256)).x.getLsbD 23 = false ∧
    (tileDev (ins 0 4 15 (3 * 2 ^ 21 + 8 * 256)) tiler 0 =
       Except.ok
         (List.map
           (fun j =>
             pair tiler 0 (sa (ins 0 4 15 (3 * 2 ^ 21 + 8 * 256))) +
               BitVec.ofNat 64 j * BitVec.setWidth 64 (reg tiler 0 (xf (ins 0 4 15 (3 * 2 ^ 21 + 8 * 256)) 8 8)))
           (chunks (ins 0 4 15 (3 * 2 ^ 21 + 8 * 256))))) ∧
    (firstFault (module tiler) tiler.saggar true (chunkOf (ins 0 4 15 (3 * 2 ^ 21 + 8 * 256)))
         (List.map
           (fun j =>
             pair tiler 0 (sa (ins 0 4 15 (3 * 2 ^ 21 + 8 * 256))) +
               BitVec.ofNat 64 j * BitVec.setWidth 64 (reg tiler 0 (xf (ins 0 4 15 (3 * 2 ^ 21 + 8 * 256)) 8 8)))
           (chunks (ins 0 4 15 (3 * 2 ^ 21 + 8 * 256)))) =
       none) ∧
    StoreIds (module tiler) (ins 0 4 15 (3 * 2 ^ 21 + 8 * 256)).wheel tiler :=
  by
    refine ⟨by first | decide +kernel | rfl, by unfold Issues; and_intros <;> decide +kernel, ?_⟩
    iterate 4 refine ⟨by first | decide +kernel | rfl, ?_⟩
    exact ids_of (by decide +kernel)

theorem witness_TilesAndWindows_tzero :
    leadLane (guardMask tiler lonePath (ins 15 0 0 0)) = some 0 ∧
    Issues (module tiler) (ins 15 0 0 0) isReady
      { legal := decide (da (ins 15 0 0 0) < 16) && (ins 15 0 0 0).sa == 0 && (ins 15 0 0 0).sb == 0 && (ins 15 0 0 0).x == 0,
        tiles := [da (ins 15 0 0 0)] : Form }
      tiler lonePath ∧
    tileHeld ((module tiler).wheel (ins 15 0 0 0).wheel) tiler.uid (da (ins 15 0 0 0)) = false :=
  by unfold Issues; and_intros <;> first | decide +kernel | rfl

def summer : Crew := { lone [(1, 4 * 256), (2, 1)] with wins := [(3, { base := 0, size := 4 })] }
theorem witness_Accumulators_win :
    leadLane (guardMask summer lonePath (ins 3 1 0 0)) = some 0 ∧
    Issues (module summer) (ins 3 1 0 0) isReady
      { legal := decide (da (ins 3 1 0 0) < 4) && xf (ins 3 1 0 0) 3 21 == 0, regs := [sa (ins 3 1 0 0), sb (ins 3 1 0 0)],
        guarded := true : Form }
      summer lonePath ∧
    (windowOf summer (da (ins 3 1 0 0)) (xf (ins 3 1 0 0) 0 2) ((ins 3 1 0 0).x.getLsbD 2)
         (BitVec.toNat (reg summer 0 (sa (ins 3 1 0 0))) % 64) (BitVec.toNat (reg summer 0 (sa (ins 3 1 0 0))) / 256 % 128)
         (if BitVec.toNat (reg summer 0 (sb (ins 3 1 0 0))) / 65536 % 2 = 1 then
           some (BitVec.toNat (reg summer 0 (sb (ins 3 1 0 0))) % 65536)
         else none) =
       Except.ok { base := 0, size := 4 : Window }) :=
  by unfold Issues; and_intros <;> first | decide +kernel | rfl

theorem witness_Accumulators_zero :
    leadLane (guardMask summer lonePath (ins 15 0 0 0)) = some 0 ∧
    Issues (module summer) (ins 15 0 0 0) isReady
      { legal := (ins 15 0 0 0).sa == 0 && (ins 15 0 0 0).sb == 0 && (ins 15 0 0 0).x == 0, guarded := true : Form } summer lonePath ∧
    ((blockOk (module summer) (ins 15 0 0 0) summer (da (ins 15 0 0 0)) false fun _ => true) = true) :=
  by unfold Issues; and_intros <;> first | decide +kernel | rfl

theorem witness_Accumulators_red :
    leadLane (guardMask summer lonePath (ins 3 15 2 0)) = some 0 ∧
    Issues (module summer) (ins 3 15 2 0) isReady
      { legal := xf (ins 3 15 2 0) 16 8 == 0 && xf (ins 3 15 2 0) 0 15 == 0, regs := [sb (ins 3 15 2 0)], guarded := true : Form }
      summer lonePath ∧
    blockField summer (sa (ins 3 15 2 0)) =
      Except.ok ({ base := 0, size := 4 : Window }, ({ base := 0, size := 4 : Window }.base + sa (ins 3 15 2 0) / 4) * 1024) ∧
    blockField summer (da (ins 3 15 2 0)) =
      Except.ok ({ base := 0, size := 4 : Window }, ({ base := 0, size := 4 : Window }.base + da (ins 3 15 2 0) / 4) * 1024) ∧
    { base := 0, size := 4 : Window }.isInt = { base := 0, size := 4 : Window }.isInt ∧ 0 < BitVec.toNat (reg summer 0 (sb (ins 3 15 2 0))) ∧
    BitVec.toNat (reg summer 0 (sb (ins 3 15 2 0))) ≤ 64 ∧
    sa (ins 3 15 2 0) / 4 + BitVec.toNat (reg summer 0 (sb (ins 3 15 2 0))) ≤ { base := 0, size := 4 : Window }.size ∧
    (({ base := 0, size := 4 : Window }.base + da (ins 3 15 2 0) / 4) * 1024 ≤
         ({ base := 0, size := 4 : Window }.base + sa (ins 3 15 2 0) / 4) * 1024 ∨
       ({ base := 0, size := 4 : Window }.base + sa (ins 3 15 2 0) / 4) * 1024 +
           1024 * BitVec.toNat (reg summer 0 (sb (ins 3 15 2 0))) ≤
         ({ base := 0, size := 4 : Window }.base + da (ins 3 15 2 0) / 4) * 1024) ∧
    passThrough (module summer) summer.saggar { base := 0, size := 4 : Window } = false ∧
    blockFree (module summer) (ins 3 15 2 0) summer (da (ins 3 15 2 0)) 1 = true ∧
    blockFree (module summer) (ins 3 15 2 0) summer (sa (ins 3 15 2 0)) (BitVec.toNat (reg summer 0 (sb (ins 3 15 2 0)))) = true ∧
    (redAll (noted (ins 3 15 2 0) summer lonePath) { base := 0, size := 4 : Window }.isInt { base := 0, size := 4 : Window }.longSum
            ((module summer).stream summer.stream).dunob ((ins 3 15 2 0).x.getLsbD 15)
            (({ base := 0, size := 4 : Window }.base + sa (ins 3 15 2 0) / 4) * 1024)
            (BitVec.toNat (reg summer 0 (sb (ins 3 15 2 0))))
            (({ base := 0, size := 4 : Window }.base + da (ins 3 15 2 0) / 4) * 1024)).snd.fst =
      false :=
  by unfold Issues; and_intros <;> first | decide +kernel | rfl

def passer : Crew := { lone [(1, 4 * 256), (2, 1)] with layer := 1, wins := [(2, { base := 0, size := 4, weight := some 0 }), (1, { base := 4, size := 4, isInt := true }), (3, { base := 8, size := 4 })] }
def passing : State := { module passer with front := { (module passer).front with saggars := [(1, { (module passer).saggar 1 with weights := [(0, List.replicate 34 0 ++ [1])] })] } }
theorem witness_Accumulators_zeroPass :
    leadLane (guardMask passer lonePath (ins 2 0 0 0)) = some 0 ∧
    Issues passing (ins 2 0 0 0) isReady
      { legal := (ins 2 0 0 0).sa == 0 && (ins 2 0 0 0).sb == 0 && (ins 2 0 0 0).x == 0, guarded := true : Form } passer lonePath ∧
    ((blockOk passing (ins 2 0 0 0) passer (da (ins 2 0 0 0)) true fun _ => true) = true) :=
  by unfold Issues; and_intros <;> first | decide +kernel | rfl

theorem witness_Accumulators_redPass :
    leadLane (guardMask passer lonePath (ins 2 15 2 0)) = some 0 ∧
    Issues passing (ins 2 15 2 0) isReady
      { legal := xf (ins 2 15 2 0) 16 8 == 0 && xf (ins 2 15 2 0) 0 15 == 0, regs := [sb (ins 2 15 2 0)], guarded := true : Form }
      passer lonePath ∧
    blockField passer (sa (ins 2 15 2 0)) =
      Except.ok ({ base := 8, size := 4 : Window }, ({ base := 8, size := 4 : Window }.base + sa (ins 2 15 2 0) / 4) * 1024) ∧
    blockField passer (da (ins 2 15 2 0)) =
      Except.ok
        ({ base := 0, size := 4, weight := some 0 : Window },
          ({ base := 0, size := 4, weight := some 0 : Window }.base + da (ins 2 15 2 0) / 4) * 1024) ∧
    0 < BitVec.toNat (reg passer 0 (sb (ins 2 15 2 0))) ∧ BitVec.toNat (reg passer 0 (sb (ins 2 15 2 0))) ≤ 64 ∧
    sa (ins 2 15 2 0) / 4 + BitVec.toNat (reg passer 0 (sb (ins 2 15 2 0))) ≤ { base := 8, size := 4 : Window }.size ∧
    (({ base := 0, size := 4, weight := some 0 : Window }.base + da (ins 2 15 2 0) / 4) * 1024 ≤
         ({ base := 8, size := 4 : Window }.base + sa (ins 2 15 2 0) / 4) * 1024 ∨
       ({ base := 8, size := 4 : Window }.base + sa (ins 2 15 2 0) / 4) * 1024 +
           1024 * BitVec.toNat (reg passer 0 (sb (ins 2 15 2 0))) ≤
         ({ base := 0, size := 4, weight := some 0 : Window }.base + da (ins 2 15 2 0) / 4) * 1024) ∧
    blockFree passing (ins 2 15 2 0) passer (da (ins 2 15 2 0)) 1 = true ∧
    blockFree passing (ins 2 15 2 0) passer (sa (ins 2 15 2 0)) (BitVec.toNat (reg passer 0 (sb (ins 2 15 2 0)))) = true ∧
    passThrough passing passer.saggar { base := 0, size := 4, weight := some 0 : Window } = true :=
  by unfold Issues; and_intros <;> first | decide +kernel | rfl

theorem witness_Accumulators_redMixed :
    leadLane (guardMask passer lonePath (ins 1 15 2 0)) = some 0 ∧
    Issues passing (ins 1 15 2 0) isReady
      { legal := xf (ins 1 15 2 0) 16 8 == 0 && xf (ins 1 15 2 0) 0 15 == 0, regs := [sb (ins 1 15 2 0)], guarded := true : Form }
      passer lonePath ∧
    blockField passer (sa (ins 1 15 2 0)) =
      Except.ok ({ base := 8, size := 4 : Window }, ({ base := 8, size := 4 : Window }.base + sa (ins 1 15 2 0) / 4) * 1024) ∧
    blockField passer (da (ins 1 15 2 0)) =
      Except.ok
        ({ base := 4, size := 4, isInt := true : Window },
          ({ base := 4, size := 4, isInt := true : Window }.base + da (ins 1 15 2 0) / 4) * 1024) ∧
    0 < BitVec.toNat (reg passer 0 (sb (ins 1 15 2 0))) ∧ BitVec.toNat (reg passer 0 (sb (ins 1 15 2 0))) ≤ 64 ∧
    sa (ins 1 15 2 0) / 4 + BitVec.toNat (reg passer 0 (sb (ins 1 15 2 0))) ≤ { base := 8, size := 4 : Window }.size ∧
    (({ base := 4, size := 4, isInt := true : Window }.base + da (ins 1 15 2 0) / 4) * 1024 ≤
         ({ base := 8, size := 4 : Window }.base + sa (ins 1 15 2 0) / 4) * 1024 ∨
       ({ base := 8, size := 4 : Window }.base + sa (ins 1 15 2 0) / 4) * 1024 +
           1024 * BitVec.toNat (reg passer 0 (sb (ins 1 15 2 0))) ≤
         ({ base := 4, size := 4, isInt := true : Window }.base + da (ins 1 15 2 0) / 4) * 1024) ∧
    blockFree passing (ins 1 15 2 0) passer (da (ins 1 15 2 0)) 1 = true ∧
    blockFree passing (ins 1 15 2 0) passer (sa (ins 1 15 2 0)) (BitVec.toNat (reg passer 0 (sb (ins 1 15 2 0)))) = true ∧
    passThrough passing passer.saggar { base := 4, size := 4, isInt := true : Window } = false ∧
    { base := 8, size := 4 : Window }.isInt ≠ { base := 4, size := 4, isInt := true : Window }.isInt :=
  by unfold Issues; and_intros <;> first | decide +kernel | rfl

def counters : Crew := { lone [(1, 1), (2, 0xC0), (3, 2)] with ac := [(15, 1)] }
/-- ACWAIT on counter 15 with its target in register `r`. -/
def acw (r : Nat) : Issue := ins 0 r 0 (15 * 2 ^ 18)
def openCopy : Copy := { id := 1, slot := 63, uid := counters.uid, counter := 15, kind := .copy1 2 64 128 64 }
/-- One copy of the crew on counter 15 has not completed. -/
def counting : State := { module counters with wheels := [(191, { crews := [(63, counters)], eng := { copies := [openCopy] } })] }
theorem witness_AcwaitResolves_past :
    leadLane (guardMask counters lonePath (acw 1)) = some 0 ∧
    Issues (module counters) (acw 1) isReady
      { legal := (acw 1).da == 0 && (acw 1).sb == 0 && xf (acw 1) 22 2 == 0 && xf (acw 1) 0 18 == 0, regs := [sa (acw 1)],
        guarded := true : Form }
      counters lonePath ∧
    15 = xf (acw 1) 18 4 ∧ 1 = acOf counters 15 ∧ 1 = reg counters 0 (sa (acw 1)) ∧
    0 = openOn ((module counters).wheel (acw 1).wheel) counters.uid 15 ∧ 0 < 2 ^ 32 ∧ counters.saggar < 4096 :=
  by unfold Issues; and_intros <;> first | decide +kernel | rfl

theorem witness_AcwaitResolves_waits :
    leadLane (guardMask counters lonePath (acw 3)) = some 0 ∧
    Issues counting (acw 3) isReady
      { legal := (acw 3).da == 0 && (acw 3).sb == 0 && xf (acw 3) 22 2 == 0 && xf (acw 3) 0 18 == 0, regs := [sa (acw 3)],
        guarded := true : Form }
      counters lonePath ∧
    15 = xf (acw 3) 18 4 ∧ 1 = acOf counters 15 ∧ 2 = reg counters 0 (sa (acw 3)) ∧ 1 = openOn (counting.wheel (acw 3).wheel) counters.uid 15 ∧
    1 < 2 ^ 32 ∧ counters.saggar < 4096 :=
  by unfold Issues; and_intros <;> first | decide +kernel | rfl

theorem witness_AcwaitResolves_stale :
    leadLane (guardMask counters lonePath (acw 3)) = some 0 ∧
    Issues (module counters) (acw 3) isReady
      { legal := (acw 3).da == 0 && (acw 3).sb == 0 && xf (acw 3) 22 2 == 0 && xf (acw 3) 0 18 == 0, regs := [sa (acw 3)],
        guarded := true : Form }
      counters lonePath ∧
    15 = xf (acw 3) 18 4 ∧ 1 = acOf counters 15 ∧ 2 = reg counters 0 (sa (acw 3)) ∧
    0 = openOn ((module counters).wheel (acw 3).wheel) counters.uid 15 ∧ 0 < 2 ^ 32 ∧ counters.saggar < 4096 :=
  by unfold Issues; and_intros <;> first | decide +kernel | rfl

def pausedCrew : Crew := { counters with paths := [(31, { mask := 1, wait := .acwait 15 2 })] }
theorem witness_AcwaitResolves_wake :
    path? pausedCrew 31 = some { mask := 1, wait := PathWait.acwait 15 2 : CPath } ∧
    { mask := 1, wait := PathWait.acwait 15 2 : CPath }.wait = PathWait.acwait 15 2 :=
  by and_intros <;> first | decide +kernel | rfl

theorem witness_AcwaitResolves_end :
    counting.crew? 191 openCopy.slot = some counters ∧ counters.uid = openCopy.uid :=
  by and_intros <;> first | decide +kernel | rfl

theorem witness_CounterAndLayerOps_acwait :
    leadLane (guardMask counters lonePath (ins 0 1 0 (15 * 2 ^ 18))) = some 0 ∧
    Issues (module counters) (ins 0 1 0 (15 * 2 ^ 18)) isReady
      {
        legal :=
          (ins 0 1 0 (15 * 2 ^ 18)).da == 0 && (ins 0 1 0 (15 * 2 ^ 18)).sb == 0 && xf (ins 0 1 0 (15 * 2 ^ 18)) 22 2 == 0 &&
            xf (ins 0 1 0 (15 * 2 ^ 18)) 0 18 == 0,
        regs := [sa (ins 0 1 0 (15 * 2 ^ 18))], guarded := true : Form }
      counters lonePath :=
  by unfold Issues; and_intros <;> first | decide +kernel | rfl

theorem witness_CounterAndLayerOps_lstat :
    leadLane (guardMask counters lonePath (ins 3 1 0 0)) = some 0 ∧
    Issues (module counters) (ins 3 1 0 0) isReady
      { legal := (ins 3 1 0 0).sb == 0 && (ins 3 1 0 0).x == 0, regs := [da (ins 3 1 0 0), sa (ins 3 1 0 0)], guarded := true : Form }
      counters lonePath ∧
    layerOk (module counters) counters.saggar (BitVec.toNat (reg counters 0 (sa (ins 3 1 0 0))) % 2 ^ 20) = true :=
  by unfold Issues; and_intros <;> first | decide +kernel | rfl

theorem witness_CounterAndLayerOps_uscale :
    leadLane (guardMask counters lonePath (ins 0 1 2 0)) = some 0 ∧
    Issues (module counters) (ins 0 1 2 0) isReady
      { legal := (ins 0 1 2 0).da == 0 && (ins 0 1 2 0).x == 0, regs := [sa (ins 0 1 2 0), sb (ins 0 1 2 0)], guarded := true : Form }
      counters lonePath ∧
    layerOk (module counters) counters.saggar (BitVec.toNat (reg counters 0 (sa (ins 0 1 2 0))) % 2 ^ 20) = true ∧
    -64 ≤ (BitVec.setWidth 8 (reg counters 0 (sb (ins 0 1 2 0)))).toInt ∧ (BitVec.setWidth 8 (reg counters 0 (sb (ins 0 1 2 0)))).toInt ≤ 63 :=
  by unfold Issues; and_intros <;> first | decide +kernel | rfl

theorem witness_CounterAndLayerOps_vsetvl :
    leadLane (guardMask counters lonePath (ins 3 1 0 0)) = some 0 ∧
    Issues (module counters) (ins 3 1 0 0) isReady
      { legal := (ins 3 1 0 0).sb == 0 && (ins 3 1 0 0).x == 0, regs := [da (ins 3 1 0 0), sa (ins 3 1 0 0)], guarded := true : Form }
      counters lonePath :=
  by unfold Issues; and_intros <;> first | decide +kernel | rfl

def chained : Crew := { lone [] with ls := [(96, 1)], vl := 32 }
theorem witness_VectorsAndRays_vchain :
    Issues (module chained) (ins 0 4 0 (2 ^ 23 + 15 * 2 ^ 12)) isReady
      (spaceForm ((ins 0 4 0 (2 ^ 23 + 15 * 2 ^ 12)).x.getLsbD 23)
        {
          legal :=
            (ins 0 4 0 (2 ^ 23 + 15 * 2 ^ 12)).da == 0 && (ins 0 4 0 (2 ^ 23 + 15 * 2 ^ 12)).sb == 0 &&
                xf (ins 0 4 0 (2 ^ 23 + 15 * 2 ^ 12)) 16 7 == 0 &&
              xf (ins 0 4 0 (2 ^ 23 + 15 * 2 ^ 12)) 0 12 == 0,
          guarded := true, reads := true : Form }
        (sa (ins 0 4 0 (2 ^ 23 + 15 * 2 ^ 12))))
      chained lonePath ∧
    leadLane (guardMask chained lonePath (ins 0 4 0 (2 ^ 23 + 15 * 2 ^ 12))) = some 0 ∧
    readDesc (module chained) (ins 0 4 0 (2 ^ 23 + 15 * 2 ^ 12)) chained 0 =
      Except.ok
        (lsGet chained
          (BitVec.toNat
            (spaceAddr chained 0 (sa (ins 0 4 0 (2 ^ 23 + 15 * 2 ^ 12))) ((ins 0 4 0 (2 ^ 23 + 15 * 2 ^ 12)).x.getLsbD 23)))
          192) ∧
    chainFault (module chained) chained
        (lsGet chained
          (BitVec.toNat
            (spaceAddr chained 0 (sa (ins 0 4 0 (2 ^ 23 + 15 * 2 ^ 12))) ((ins 0 4 0 (2 ^ 23 + 15 * 2 ^ 12)).x.getLsbD 23)))
          192)
        (ChainDesc.of
          (lsGet chained
            (BitVec.toNat
              (spaceAddr chained 0 (sa (ins 0 4 0 (2 ^ 23 + 15 * 2 ^ 12))) ((ins 0 4 0 (2 ^ 23 + 15 * 2 ^ 12)).x.getLsbD 23)))
            192)) =
      none ∧
    chainGo (ins 0 4 0 (2 ^ 23 + 15 * 2 ^ 12)) (module chained) chained lonePath
        (guardMask chained lonePath (ins 0 4 0 (2 ^ 23 + 15 * 2 ^ 12))) =
      true :=
  by unfold Issues; and_intros <;> first | decide +kernel | rfl

theorem witness_VectorsAndRays_vred :
    (Issues (module chained) (ins 31 15 0 (7 * 2 ^ 20 + 7 * 2 ^ 13)) isReady
       {
         legal :=
           decide (sa (ins 31 15 0 (7 * 2 ^ 20 + 7 * 2 ^ 13)) < 16) && decide (sb (ins 31 15 0 (7 * 2 ^ 20 + 7 * 2 ^ 13)) < 16) &&
             xf (ins 31 15 0 (7 * 2 ^ 20 + 7 * 2 ^ 13)) 0 12 == 0,
         regs := [da (ins 31 15 0 (7 * 2 ^ 20 + 7 * 2 ^ 13))],
         tiles :=
           sa (ins 31 15 0 (7 * 2 ^ 20 + 7 * 2 ^ 13)) ::
             if (ins 31 15 0 (7 * 2 ^ 20 + 7 * 2 ^ 13)).x.getLsbD 12 = true then [sb (ins 31 15 0 (7 * 2 ^ 20 + 7 * 2 ^ 13))] else [],
         guarded := true : Form }
       chained lonePath) ∧
    guardMask chained lonePath (ins 31 15 0 (7 * 2 ^ 20 + 7 * 2 ^ 13)) ≠ 0 ∧ vredOf (ins 31 15 0 (7 * 2 ^ 20 + 7 * 2 ^ 13)) = some (0, 4, 6) ∧
    ((module chained).wheel (ins 31 15 0 (7 * 2 ^ 20 + 7 * 2 ^ 13)).wheel).eng.vecq = [] ∧
    vredBeyond (ins 31 15 0 (7 * 2 ^ 20 + 7 * 2 ^ 13)) chained chained.vl (0, 4, 6) = false :=
  by unfold Issues; and_intros <;> first | decide +kernel | rfl

def queued : State := { module chained with nextId := 9, wheels := [(191, { crews := [(63, chained)], eng := { vecq := [{ id := 5, slot := 1, uid := 9, counter := 0, desc := { stages := [] }, vl := 4, segsLeft := 1 }] } })] }
theorem witness_VectorsAndRays_vredWaits :
    (Issues queued (ins 31 15 0 (7 * 2 ^ 20 + 7 * 2 ^ 13)) isReady
       {
         legal :=
           decide (sa (ins 31 15 0 (7 * 2 ^ 20 + 7 * 2 ^ 13)) < 16) && decide (sb (ins 31 15 0 (7 * 2 ^ 20 + 7 * 2 ^ 13)) < 16) &&
             xf (ins 31 15 0 (7 * 2 ^ 20 + 7 * 2 ^ 13)) 0 12 == 0,
         regs := [da (ins 31 15 0 (7 * 2 ^ 20 + 7 * 2 ^ 13))],
         tiles :=
           sa (ins 31 15 0 (7 * 2 ^ 20 + 7 * 2 ^ 13)) ::
             if (ins 31 15 0 (7 * 2 ^ 20 + 7 * 2 ^ 13)).x.getLsbD 12 = true then [sb (ins 31 15 0 (7 * 2 ^ 20 + 7 * 2 ^ 13))] else [],
         guarded := true : Form }
       chained lonePath) ∧
    guardMask chained lonePath (ins 31 15 0 (7 * 2 ^ 20 + 7 * 2 ^ 13)) ≠ 0 ∧ vredOf (ins 31 15 0 (7 * 2 ^ 20 + 7 * 2 ^ 13)) = some (0, 4, 6) ∧
    (queued.wheel (ins 31 15 0 (7 * 2 ^ 20 + 7 * 2 ^ 13)).wheel).eng.vecq ≠ [] ∧
    (queued.wheel (ins 31 15 0 (7 * 2 ^ 20 + 7 * 2 ^ 13)).wheel).eng.vecq.length < 8 :=
  by unfold Issues; and_intros <;> first | decide +kernel | rfl

def ray : Crew := lone [(14, 0x3F800000), (15, 0x3F800000), (16, 128)]
theorem witness_VectorsAndRays_trav :
    (Issues (module ray) (ins 28 8 16 7) isReady
       { legal := decide ((ins 28 8 16 7).x.toNat < 8), pairs := [sb (ins 28 8 16 7)],
         regs :=
           List.map (fun x => sa (ins 28 8 16 7) + x) (List.range 8) ++ List.map (fun x => da (ins 28 8 16 7) + x) (List.range 4),
         guarded := true, reads := true : Form }
       ray lonePath) ∧
    (module ray).fuse.variant ≠ 3 ∧
    queriesOn ((module ray).wheel (ins 28 8 16 7).wheel) + count (guardMask ray lonePath (ins 28 8 16 7)) ≤ 256 ∧ sa (ins 28 8 16 7) % 8 = 0 ∧
    da (ins 28 8 16 7) % 4 = 0 ∧
    (∀ (l : Nat), l ∈ lanes (ins 28 8 16 7) ray lonePath → BitVec.toNat (pair ray l (sb (ins 28 8 16 7))) % 128 = 0) ∧
    (∀ (l : Nat),
       l ∈ lanes (ins 28 8 16 7) ray lonePath →
         (rayOf (List.map (fun k => reg ray l (sa (ins 28 8 16 7) + k)) (List.range 8))).isSome = true) :=
  by unfold Issues; and_intros <;> first | decide +kernel | rfl

def lostRay : Crew := lone [(15, 0x3F800000), (16, 128)]
theorem witness_VectorsAndRays_misses :
    (Issues (module lostRay) (ins 28 8 16 7) isReady
       { legal := decide ((ins 28 8 16 7).x.toNat < 8), pairs := [sb (ins 28 8 16 7)],
         regs :=
           List.map (fun x => sa (ins 28 8 16 7) + x) (List.range 8) ++ List.map (fun x => da (ins 28 8 16 7) + x) (List.range 4),
         guarded := true, reads := true : Form }
       lostRay lonePath) ∧
    (module lostRay).fuse.variant ≠ 3 ∧
    queriesOn ((module lostRay).wheel (ins 28 8 16 7).wheel) + count (guardMask lostRay lonePath (ins 28 8 16 7)) ≤ 256 ∧
    sa (ins 28 8 16 7) % 8 = 0 ∧ da (ins 28 8 16 7) % 4 = 0 ∧
    (∀ (l : Nat), l ∈ lanes (ins 28 8 16 7) lostRay lonePath → BitVec.toNat (pair lostRay l (sb (ins 28 8 16 7))) % 128 = 0) ∧
    (∀ (l : Nat),
       l ∈ lanes (ins 28 8 16 7) lostRay lonePath →
         rayOf (List.map (fun k => reg lostRay l (sa (ins 28 8 16 7) + k)) (List.range 8)) = none ∧
           missAtOnce (List.map (fun k => reg lostRay l (sa (ins 28 8 16 7) + k)) (List.range 8)) = true) :=
  by unfold Issues; and_intros <;> first | decide +kernel | rfl

def arrayless : State := { module ray with fuse := { variant := 3 } }
theorem witness_VectorsAndRays_absent :
    Issues arrayless (ins 28 8 16 7) isReady { legal := true, guarded := true : Form } ray lonePath ∧ arrayless.fuse.variant = 3 ∧
    guardMask ray lonePath (ins 28 8 16 7) ≠ 0 :=
  by unfold Issues; and_intros <;> first | decide +kernel | rfl

def noThread (i : Issue) : Issue := { i with pn := true }
theorem witness_NoExecutingThread :
    leadSpec (Instr.accZero (noThread (ins 15 0 0 0))) = some (noThread (ins 15 0 0 0)) ∧ (noThread (ins 15 0 0 0)).ok = true ∧
    issuer (module summer) (noThread (ins 15 0 0 0)) isReady = some (summer, lonePath) ∧ fetchOk (module summer) summer lonePath = true ∧
    summer.queries = [] ∧ acquiring (module summer) (noThread (ins 15 0 0 0)).wheel summer = false ∧
    queriesOn ((module summer).wheel (noThread (ins 15 0 0 0)).wheel) ≤ 256 ∧ guardMask summer lonePath (noThread (ins 15 0 0 0)) = 0 :=
  ⟨rfl, by and_intros <;> first | decide +kernel | rfl⟩

theorem witness_NoExecutingThread_trav :
    leadSpec (Instr.trav (noThread (ins 200 77 3 99))) = some (noThread (ins 200 77 3 99)) ∧ (noThread (ins 200 77 3 99)).ok = true ∧
    issuer arrayless (noThread (ins 200 77 3 99)) isReady = some (ray, lonePath) ∧ fetchOk arrayless ray lonePath = true ∧ ray.queries = [] ∧
    acquiring arrayless (noThread (ins 200 77 3 99)).wheel ray = false ∧ queriesOn (arrayless.wheel (noThread (ins 200 77 3 99)).wheel) ≤ 256 ∧
    guardMask ray lonePath (noThread (ins 200 77 3 99)) = 0 :=
  ⟨rfl, by and_intros <;> first | decide +kernel | rfl⟩

/-- Register 4 holds an address, 2 a value, 8 a peer (guild 5, rank 1), 10 collector 63. -/
def crier : Crew := lone [(2, 7), (4, 64), (8, 5 * 65536 + 1), (10, 63)]
def crying : State :=
  let s := module crier
  { s with
    crier := { colls := [(63, { bound := true, saggar := 1 })] }
    link := { guilds := [(5, { saggar := 1, rank := 0, n := 2, members := [0, 1] })] } }
theorem witness_SignalsAndWaits_sig :
    Issues crying (ins 0 4 2 (2 * 2 ^ 22 + 2 ^ 21)) isReady
      {
        legal :=
          (ins 0 4 2 (2 * 2 ^ 22 + 2 ^ 21)).da == 0 && xf (ins 0 4 2 (2 * 2 ^ 22 + 2 ^ 21)) 22 2 != 3 &&
            xf (ins 0 4 2 (2 * 2 ^ 22 + 2 ^ 21)) 0 21 == 0,
        pairs := [sa (ins 0 4 2 (2 * 2 ^ 22 + 2 ^ 21))], regs := [sb (ins 0 4 2 (2 * 2 ^ 22 + 2 ^ 21))] : Form }
      crier lonePath ∧
    accessOk crying crier.saggar true 4 (saAddrs (ins 0 4 2 (2 * 2 ^ 22 + 2 ^ 21)) crier lonePath) :=
  ⟨by unfold Issues; and_intros <;> decide +kernel, access_of (by decide +kernel)⟩

theorem witness_SignalsAndWaits_sigw :
    Issues crying (ins 7 4 2 31) isReady
      { legal := decide (da (ins 7 4 2 31) < 8) && xf (ins 7 4 2 31) 22 2 == 0 && xf (ins 7 4 2 31) 5 15 == 0,
        pairs := [sa (ins 7 4 2 31)], regs := [sb (ins 7 4 2 31)] : Form }
      crier lonePath ∧
    accessOk crying crier.saggar false 4 (saAddrs (ins 7 4 2 31) crier lonePath) ∧ lanes (ins 7 4 2 31) crier lonePath ≠ [] :=
  ⟨by unfold Issues; and_intros <;> decide +kernel, access_of (by decide +kernel), by first | decide +kernel | rfl⟩

theorem witness_SignalsAndWaits_sigR :
    Issues crying (ins 0 4 2 (8 * 256)) isReady
      {
        legal :=
          (ins 0 4 2 (8 * 256)).da == 0 && xf (ins 0 4 2 (8 * 256)) 22 2 != 3 && xf (ins 0 4 2 (8 * 256)) 16 6 == 0 &&
            xf (ins 0 4 2 (8 * 256)) 0 8 == 0,
        pairs := [sa (ins 0 4 2 (8 * 256))], regs := [sb (ins 0 4 2 (8 * 256)), xf (ins 0 4 2 (8 * 256)) 8 8] : Form }
      crier lonePath ∧
    leadLane (guardMask crier lonePath (ins 0 4 2 (8 * 256))) = some 0 ∧ BitVec.toNat (pair crier 0 (sa (ins 0 4 2 (8 * 256)))) % 4 = 0 ∧
    peerOf crying crier.saggar (reg crier 0 (xf (ins 0 4 2 (8 * 256)) 8 8)) =
      some
        ({ saggar := 1, rank := 0, n := 2, members := [0, 1] : Guild },
          BitVec.toNat (reg crier 0 (xf (ins 0 4 2 (8 * 256)) 8 8)) / 65536,
          BitVec.toNat (reg crier 0 (xf (ins 0 4 2 (8 * 256)) 8 8)) % 65536) :=
  by unfold Issues; and_intros <;> first | decide +kernel | rfl

theorem witness_SignalsAndWaits_collect :
    Issues crying (ins 0 10 2 (2 ^ 21)) isReady
      { legal := (ins 0 10 2 (2 ^ 21)).da == 0 && ((ins 0 10 2 (2 ^ 21)).x == 0 || (ins 0 10 2 (2 ^ 21)).x == ↑(1 <<< 21)),
        regs := [sa (ins 0 10 2 (2 ^ 21)), sb (ins 0 10 2 (2 ^ 21))] : Form }
      crier lonePath ∧
    leadLane (guardMask crier lonePath (ins 0 10 2 (2 ^ 21))) = some 0 ∧ outstanding crying (ins 0 10 2 (2 ^ 21)).wheel < 4 ∧
    (crying.coll (BitVec.toNat (reg crier 0 (sa (ins 0 10 2 (2 ^ 21)))) % 64)).bound = true ∧
    (crying.coll (BitVec.toNat (reg crier 0 (sa (ins 0 10 2 (2 ^ 21)))) % 64)).saggar = crier.saggar ∧
    (crying.coll (BitVec.toNat (reg crier 0 (sa (ins 0 10 2 (2 ^ 21)))) % 64)).unbinding = none :=
  by unfold Issues; and_intros <;> first | decide +kernel | rfl

/-- Register 1 names group bell 3; the crew is uid 1. -/
def bellman : Crew := lone [(1, 3), (2, 4)]
def bells (g : GBell) : State :=
  let s := module bellman
  { s with front := { s.front with saggars := [(1, { (s.saggar 1) with gbells := [(3, g)] })] } }
theorem witness_GroupBells_join :
    GbellIssues (bells { members := [2] : GBell }) (ins 0 1 0 0) false false false bellman lonePath 0 ∧
    (¬bellman.uid ∈ (gbell (bells { members := [2] : GBell }) bellman.saggar (gHandle (ins 0 1 0 0) bellman 0)).members) ∧
    (gbell (bells { members := [2] : GBell }) bellman.saggar (gHandle (ins 0 1 0 0) bellman 0)).members.length < 16384 :=
  by unfold GbellIssues Issues; and_intros <;> first | decide +kernel | rfl

theorem witness_GroupBells_leave :
    GbellIssues (bells { members := [1, 2] : GBell }) (ins 0 1 0 0) false false false bellman lonePath 0 ∧
    bellman.uid ∈ (gbell (bells { members := [1, 2] : GBell }) bellman.saggar (gHandle (ins 0 1 0 0) bellman 0)).members :=
  by unfold GbellIssues Issues; and_intros <;> first | decide +kernel | rfl

theorem witness_GroupBells_arrive :
    GbellIssues (bells { members := [1, 2], phase := 4 : GBell }) (ins 0 1 0 0) false false false bellman lonePath 0 ∧
    mayArrive (bells { members := [1, 2], phase := 4 : GBell }) bellman (gHandle (ins 0 1 0 0) bellman 0)
        (gbell (bells { members := [1, 2], phase := 4 : GBell }) bellman.saggar (gHandle (ins 0 1 0 0) bellman 0)) =
      true :=
  by unfold GbellIssues Issues; and_intros <;> first | decide +kernel | rfl

theorem witness_GroupBells_signal :
    GbellIssues (bells { members := [1, 2], phase := 4 : GBell }) (ins 3 1 0 0) true false false bellman lonePath 0 ∧
    mayArrive (bells { members := [1, 2], phase := 4 : GBell }) bellman (gHandle (ins 3 1 0 0) bellman 0)
        (gbell (bells { members := [1, 2], phase := 4 : GBell }) bellman.saggar (gHandle (ins 3 1 0 0) bellman 0)) =
      true :=
  by unfold GbellIssues Issues; and_intros <;> first | decide +kernel | rfl

theorem witness_GroupBells_wait :
    GbellIssues (bells { members := [1, 2], phase := 4 : GBell }) (ins 0 1 2 0) false true false bellman lonePath 0 ∧
    bellman.uid ∈ (gbell (bells { members := [1, 2], phase := 4 : GBell }) bellman.saggar (gHandle (ins 0 1 2 0) bellman 0)).members :=
  by unfold GbellIssues Issues; and_intros <;> first | decide +kernel | rfl

theorem witness_GroupBells_reset :
    GbellIssues (bells { members := [1, 2], phase := 4, broken := true : GBell }) (ins 0 1 0 0) false false true bellman lonePath 0 :=
  by unfold GbellIssues Issues; and_intros <;> first | decide +kernel | rfl

/-- Entry 5 of the store path of wheel 191. -/
def entry (op : StoreOp) : StoreEntry := { id := 5, slot := 63, uid := 1, saggar := 1, va := 64, pa := 64, op }
def storing (e : StoreEntry) : State := { module (lone []) with wheels := [(191, { crews := [(63, lone [])], mem := { store := [e] } })] }
theorem witness_StoresPerformed_bytes :
    Performs (storing (entry (StoreOp.bytes [(0, 1), (31, 2)]))) 191 5 (entry (StoreOp.bytes [(0, 1), (31, 2)])) ∧
    (entry (StoreOp.bytes [(0, 1), (31, 2)])).op = StoreOp.bytes [(0, 1), (31, 2)] ∧
    ([(0, 1), (31, 2)].length = 32 ∨
       poisoned (storing (entry (StoreOp.bytes [(0, 1), (31, 2)]))) (entry (StoreOp.bytes [(0, 1), (31, 2)])).pa = false) ∧
    (∀ (p : Nat × Byte), p ∈ [(0, 1), (31, 2)] → p.fst < 32) ∧ (List.Pairwise (fun a b => a.fst < b.fst) [(0, 1), (31, 2)]) :=
  by unfold Performs; and_intros <;> first | decide +kernel | rfl

theorem witness_StoresPerformed_atom :
    Performs (storing (entry (StoreOp.atom AtomOp.add true 1 0 31 0 4 false))) 191 5
      (entry (StoreOp.atom AtomOp.add true 1 0 31 0 4 false)) ∧
    (entry (StoreOp.atom AtomOp.add true 1 0 31 0 4 false)).op = StoreOp.atom AtomOp.add true 1 0 31 0 4 false ∧
    poisoned (storing (entry (StoreOp.atom AtomOp.add true 1 0 31 0 4 false)))
        (entry (StoreOp.atom AtomOp.add true 1 0 31 0 4 false)).pa =
      false ∧
    (AtomOp.add = AtomOp.fadd →
       addBeyond
           (BitVec.setWidth 32
             (BitVec.ofNat 64
               (leNat
                 (memBytes (storing (entry (StoreOp.atom AtomOp.add true 1 0 31 0 4 false)))
                   (entry (StoreOp.atom AtomOp.add true 1 0 31 0 4 false)).pa 4))))
           (BitVec.setWidth 32 (1 : DWord))
           (BitVec.setWidth 32
             (atomValue AtomOp.add true
               (BitVec.ofNat 64
                 (leNat
                   (memBytes (storing (entry (StoreOp.atom AtomOp.add true 1 0 31 0 4 false)))
                     (entry (StoreOp.atom AtomOp.add true 1 0 31 0 4 false)).pa 4)))
               1 0)) =
         false) :=
  ⟨by unfold Performs; and_intros <;> decide +kernel, by first | decide +kernel | rfl, by first | decide +kernel | rfl, nofun⟩

theorem witness_StoresPerformed_signal :
    Performs (storing (entry (StoreOp.signal 2 9))) 191 5 (entry (StoreOp.signal 2 9)) ∧ (entry (StoreOp.signal 2 9)).op = StoreOp.signal 2 9 ∧
    poisoned (storing (entry (StoreOp.signal 2 9))) (entry (StoreOp.signal 2 9)).pa = false :=
  by unfold Performs; and_intros <;> first | decide +kernel | rfl

def reading (r : ReadTxn) : State := { module { lone [] with paths := [(31, { mask := 1, wait := .reads })] } with wheels := [(191, { crews := [(63, { lone [] with paths := [(31, { mask := 1, wait := .reads })] })], mem := { reads := [r] } })] }
def readTxn : ReadTxn := { id := 6, slot := 63, uid := 1, path := 31, saggar := 1, pa := 92, len := 4, dest := .reg 31 31 }
theorem witness_ReadsAndAcks_read :
    191 < 192 ∧ memRuns (reading readTxn) = true ∧ readOf (reading readTxn) 191 6 = some readTxn ∧ readTxn.order ≠ 3 ∧ readTxn.value = none ∧
    lineBusy (reading readTxn) readTxn.pa = false ∧ storeAhead ((reading readTxn).wheel 191).mem.store readTxn = false ∧
    olderRead ((reading readTxn).wheel 191).mem.reads readTxn = false :=
  by and_intros <;> first | decide +kernel | rfl

def fenced : StoreEntry := { entry .fence with performed := true }
theorem witness_ReadsAndAcks_ack :
    191 < 192 ∧ memRuns (storing fenced) = true ∧ storeOf (storing fenced) 191 5 = some fenced ∧ fenced.performed = true :=
  by and_intros <;> first | decide +kernel | rfl

def combining : StoreEntry := { entry (.bytes [(0, 1)]) with combining := true }
theorem witness_ReadsAndAcks_combine :
    191 < 192 ∧ memRuns (storing combining) = true ∧ storeOf (storing combining) 191 5 = some combining :=
  by and_intros <;> first | decide +kernel | rfl

def answered : ReadTxn := { readTxn with value := some [1, 2, 3, 4] }
def waitingCrew : Crew := { lone [] with paths := [(31, { mask := 1, wait := .reads })] }
theorem witness_ReadsAndAcks_fill :
    191 < 192 ∧ memRuns (reading answered) = true ∧ readOf (reading answered) 191 6 = some answered ∧ answered.value = some [1, 2, 3, 4] ∧
    (reading answered).crew? 191 answered.slot = some waitingCrew ∧ waitingCrew.uid = answered.uid ∧ answered.poisoned = false ∧
    answered.dest = ReadDest.reg 31 31 :=
  by and_intros <;> first | decide +kernel | rfl

def tileAnswer : ReadTxn := { answered with dest := .tile 1020 }
theorem witness_ReadsAndAcks_tile :
    191 < 192 ∧ memRuns (reading tileAnswer) = true ∧ readOf (reading tileAnswer) 191 6 = some tileAnswer ∧
    tileAnswer.value = some [1, 2, 3, 4] ∧ (reading tileAnswer).crew? 191 tileAnswer.slot = some waitingCrew ∧
    waitingCrew.uid = tileAnswer.uid ∧ tileAnswer.poisoned = false ∧ tileAnswer.dest = ReadDest.tile 1020 :=
  by and_intros <;> first | decide +kernel | rfl

def poisonAnswer : ReadTxn := { answered with value := some [], poisoned := true }
theorem witness_ReadsAndAcks_poison :
    191 < 192 ∧ memRuns (reading poisonAnswer) = true ∧ readOf (reading poisonAnswer) 191 6 = some poisonAnswer ∧ poisonAnswer.value = some [] ∧
    (reading poisonAnswer).crew? 191 poisonAnswer.slot = some waitingCrew ∧ waitingCrew.uid = poisonAnswer.uid ∧ poisonAnswer.poisoned = true ∧
    poisonAnswer.dest = ReadDest.reg 31 31 ∧ path? waitingCrew poisonAnswer.path = some { mask := 1, wait := PathWait.reads : CPath } :=
  by and_intros <;> first | decide +kernel | rfl

def sleeper : Crew := { lone [] with paths := [(31, { mask := 1, wait := .sigw false 6 })] }
def sleeping (w : Wait) : State := { module sleeper with crier := { waits := [(9, w)] }, time := { locked := true, watch := 200 } }
def wait (st : WaitSt) : Wait := { who := .thread 191 63 1 31 0, saggar := 1, va := 64, pa := 64, target := 1, reach := 31, deadline := some 49, st }
theorem witness_WakesAndPolls_wake :
    memRuns (sleeping (wait WaitSt.woken)) = true ∧ (sleeping (wait WaitSt.woken)).crier.waits.find 9 = some (wait WaitSt.woken) ∧
    (wait WaitSt.woken).who = Waiter.thread 191 63 1 31 0 ∧ (sleeping (wait WaitSt.woken)).crew? 191 63 = some sleeper ∧ sleeper.uid = 1 ∧
    path? sleeper 31 = some { mask := 1, wait := PathWait.sigw false 6 : CPath } ∧
    { mask := 1, wait := PathWait.sigw false 6 : CPath }.wait = PathWait.sigw false 6 ∧ 0 < 32 ∧ 6 < 8 ∧ (wait WaitSt.woken).st = WaitSt.woken :=
  by and_intros <;> first | decide +kernel | rfl

theorem witness_WakesAndPolls_timeout :
    memRuns (sleeping (wait WaitSt.registered)) = true ∧
    (sleeping (wait WaitSt.registered)).crier.waits.find 9 = some (wait WaitSt.registered) ∧
    (wait WaitSt.registered).who = Waiter.thread 191 63 1 31 0 ∧ (sleeping (wait WaitSt.registered)).crew? 191 63 = some sleeper ∧
    sleeper.uid = 1 ∧ path? sleeper 31 = some { mask := 1, wait := PathWait.sigw false 6 : CPath } ∧
    { mask := 1, wait := PathWait.sigw false 6 : CPath }.wait = PathWait.sigw false 6 ∧ 0 < 32 ∧ 6 < 8 ∧
    (wait WaitSt.registered).st ≠ WaitSt.woken ∧ (wait WaitSt.registered).deadline = some 49 ∧ 49 < (sleeping (wait WaitSt.registered)).watch :=
  by and_intros <;> first | decide +kernel | rfl

def commandWait : Wait := { wait .woken with who := .command 7 16 }
theorem witness_WakesAndPolls_command :
    memRuns (sleeping commandWait) = true ∧ (sleeping commandWait).crier.waits.find 9 = some commandWait ∧
    commandWait.who = Waiter.command 7 16 ∧ commandWait.st = WaitSt.woken :=
  by and_intros <;> first | decide +kernel | rfl

def belled : Crew := { lone [] with paths := [(31, { mask := 1, wait := .gbell 3 4 })] }
def groupWake : GWake := { wheel := 191, slot := 63, uid := 1, path := 31 }
def waking : State := { module belled with crier := { gwakes := [(9, groupWake)] } }
theorem witness_WakesAndPolls_group :
    memRuns waking = true ∧ waking.crier.waits.find 9 = none ∧ waking.crier.gwakes.find 9 = some groupWake ∧
    waking.crew? groupWake.wheel groupWake.slot = some belled ∧ belled.uid = groupWake.uid ∧
    path? belled groupWake.path = some { mask := 1, wait := PathWait.gbell 3 4 : CPath } ∧
    { mask := 1, wait := PathWait.gbell 3 4 : CPath }.wait = PathWait.gbell 3 4 :=
  by and_intros <;> first | decide +kernel | rfl

theorem witness_WakesAndPolls_poll :
    memRuns (sleeping (wait WaitSt.polled)) = true ∧ (sleeping (wait WaitSt.polled)).crier.waits.find 9 = some (wait WaitSt.polled) ∧
    (wait WaitSt.polled).st = WaitSt.polled ∧ lineBusy (sleeping (wait WaitSt.polled)) (wait WaitSt.polled).pa = false ∧
    (wait WaitSt.polled).read + 128 ≤ (sleeping (wait WaitSt.polled)).watch ∧
    poisoned (sleeping (wait WaitSt.polled)) (wait WaitSt.polled).pa = false ∧ (wait WaitSt.polled).isTail = false :=
  by and_intros <;> first | decide +kernel | rfl

def tailWait : Wait := { wait .polled with who := .tail 7 }
theorem witness_WakesAndPolls_tail :
    memRuns (sleeping tailWait) = true ∧ (sleeping tailWait).crier.waits.find 9 = some tailWait ∧ tailWait.st = WaitSt.polled ∧
    lineBusy (sleeping tailWait) tailWait.pa = false ∧ tailWait.read + 128 ≤ (sleeping tailWait).watch ∧
    poisoned (sleeping tailWait) tailWait.pa = false ∧ tailWait.isTail = true :=
  by and_intros <;> first | decide +kernel | rfl

def poisonedWait : State := { sleeping (wait .polled) with ms := { poison := [(2, ())] } }
theorem witness_WakesAndPolls_poison :
    memRuns poisonedWait = true ∧ poisonedWait.crier.waits.find 9 = some (wait WaitSt.polled) ∧ (wait WaitSt.polled).st = WaitSt.polled ∧
    lineBusy poisonedWait (wait WaitSt.polled).pa = false ∧ (wait WaitSt.polled).read + 128 ≤ poisonedWait.watch ∧
    poisoned poisonedWait (wait WaitSt.polled).pa = true ∧ (wait WaitSt.polled).who = Waiter.thread 191 63 1 31 0 :=
  by and_intros <;> first | decide +kernel | rfl

def arrival : GArrival := { wheel := 191, slot := 63, uid := 1, saggar := 1, handle := 3, phase := 4 }
def arriving : State := { bells { members := [1, 2], phase := 4, arrived := [2] } with crier := { arrivals := [(9, arrival)] } }
theorem witness_WakesAndPolls_arrival :
    memRuns arriving = true ∧ arriving.crier.arrivals.find 9 = some arrival ∧ released arriving arrival.wheel 9 = true ∧
    (gbell arriving arrival.saggar arrival.handle).broken = false ∧ arrival.uid ∈ (gbell arriving arrival.saggar arrival.handle).members ∧
    (¬arrival.uid ∈ (gbell arriving arrival.saggar arrival.handle).arrived) :=
  by and_intros <;> first | decide +kernel | rfl

theorem witness_MemoryFormKept :
    Instr.signalApply 191 5 ∈
      [Instr.homeSliceWrite 191 5, Instr.signalApply 191 5, Instr.homeSliceRead 191 5, Instr.combineTimeout 191 5] ∧
    Memory.wf (storing (entry (StoreOp.signal 2 9))).ms.mem = true ∧
    (exec (Instr.signalApply 191 5) (storing (entry (StoreOp.signal 2 9))) =
       Host.Outcome.next
         (match execSignalApply 191 5 (storing (entry (StoreOp.signal 2 9))) with
         | Host.Outcome.next t => t
         | _ => { : State })) :=
  by and_intros <;> first | decide +kernel | rfl

/-- Stream 2^20 - 1 of saggar 1 has one command in its device ring at 0x1000: 64 bytes of `c`, given by what is not zero. -/
def last : Nat := 2 ^ 20 - 1
def stream (x : Stream) : Stream := { x with st := 1, saggar := 1, ringDev := true, order := 4, ringBase := 0x1000, tail := 1 }
def saggar : Saggar := { st := .on, maps := [(0, page), (65536, { page with pa := 65536 })], cfg := { layerCount := 1, saveSize := 2 ^ 30 } }
def command (g : Saggar) (x : Stream) (c : Tab Byte) : State :=
  { hub := { state := .ready }, time := { locked := true }, ms := { mem := c.map fun e => (0x1000 + e.1, e.2) }
    front := { saggars := [(1, g)], streams := [(last, stream x)] }
    link := { guilds := [(5, { saggar := 1, rank := 0, n := 2, members := [0, 1] })] } }
def unit (c : Tab Byte) : List Byte := (List.range 64).map fun i => Tab.get 0 c i
theorem witness_StreamCommandsBegin_nop :
    CmdBegins (command saggar { : Stream } [(2, 16)]) (seen (command saggar { : Stream } [(2, 16)]) last) last 0 (unit [(2, 16)])
      noWait noBad :=
  begins_of (by decide +kernel)

def aLaunch : Tab Byte := [(2, 16), (3, 1), (16, 64), (40, 1), (45, 3)]
theorem witness_StreamCommandsBegin_launch :
    CmdBegins (command saggar { : Stream } aLaunch) (seen (command saggar { : Stream } aLaunch) last) last 1 (unit aLaunch) launchWait
      launchBad ∧
    launchRuns (openCmd (seen (command saggar { : Stream } aLaunch) last) last (unit aLaunch))
        ((openCmd (seen (command saggar { : Stream } aLaunch) last) last (unit aLaunch)).stream last) (unit aLaunch) =
      true ∧
    (((openCmd (seen (command saggar { : Stream } aLaunch) last) last (unit aLaunch)).stream last).block.isSome &&
        ((openCmd (seen (command saggar { : Stream } aLaunch) last) last (unit aLaunch)).stream last).overflow) =
      false :=
  ⟨begins_of (by decide +kernel), by and_intros <;> first | decide +kernel | rfl⟩

def aSignal : Tab Byte := [(2, 16), (3, 5), (16, 64), (24, 7)]
theorem witness_StreamCommandsBegin_signal :
    CmdBegins (command saggar { : Stream } aSignal) (seen (command saggar { : Stream } aSignal) last) last 5 (unit aSignal) wordWait
      signalBad :=
  begins_of (by decide +kernel)

def aWait : Tab Byte := [(2, 16), (3, 6), (16, 64), (24, 7)]
theorem witness_StreamCommandsBegin_wait :
    CmdBegins (command saggar { : Stream } aWait) (seen (command saggar { : Stream } aWait) last) last 6 (unit aWait) wordWait waitBad ∧
    translate (command saggar { : Stream } aWait) ((command saggar { : Stream } aWait).stream last).saggar (cAddr (unit aWait) 16) =
      some (64, page) :=
  ⟨begins_of (by decide +kernel), by first | decide +kernel | rfl⟩

def aMove : Tab Byte := [(2, 16), (3, 10), (26, 1), (34, 1)]
theorem witness_StreamCommandsBegin_move :
    CmdBegins (command saggar { : Stream } aMove) (seen (command saggar { : Stream } aMove) last) last 10 (unit aMove) noWait moveBad :=
  begins_of (by decide +kernel)

def aPrefetch : Tab Byte := [(2, 16), (3, 9)]
def offloaded : Saggar := { saggar with offs := [{ layer := 0, base := 0, len := 65536, at_ := 0 }] }
theorem witness_StreamCommandsBegin_prefetch :
    CmdBegins (command offloaded { : Stream } aPrefetch) (seen (command offloaded { : Stream } aPrefetch) last) last 9
      (unit aPrefetch) (prefetchWait last) prefetchBad ∧
    prefetchStarts (openCmd (seen (command offloaded { : Stream } aPrefetch) last) last (unit aPrefetch))
        ((command offloaded { : Stream } aPrefetch).stream last).saggar (cf (unit aPrefetch) 16 12 20) =
      true :=
  ⟨begins_of (by decide +kernel), by first | decide +kernel | rfl⟩

def aBegin : Tab Byte := [(2, 16), (3, 2), (19, 0x40)]
theorem witness_LayerCommandsBegin_begin :
    CmdBegins (command saggar { : Stream } aBegin) (seen (command saggar { : Stream } aBegin) last) last 2 (unit aBegin) noWait
      layerBeginBad ∧
    offFull (openCmd (seen (command saggar { : Stream } aBegin) last) last (unit aBegin))
        ((openCmd (seen (command saggar { : Stream } aBegin) last) last (unit aBegin)).stream last) (unit aBegin) =
      false ∧
    headOk (command saggar { : Stream } aBegin) last = true :=
  ⟨begins_of (by decide +kernel), by and_intros <;> first | decide +kernel | rfl⟩

def aCommit : Tab Byte := [(2, 16), (3, 3)]
theorem witness_LayerCommandsBegin_commit :
    (CmdBegins (command saggar { layerOpen := true, block := some { layer := 0 : Block } : Stream } aCommit)
       (seen (command saggar { layerOpen := true, block := some { layer := 0 : Block } : Stream } aCommit) last) last 3 (unit aCommit)
       (fun u _ _ => blockBusy u last) commitBad) ∧
    ((command saggar { layerOpen := true, block := some { layer := 0 : Block } : Stream } aCommit).stream last).block =
      some { layer := 0 : Block } ∧
    ((command saggar { layerOpen := true, block := some { layer := 0 : Block } : Stream } aCommit).stream last).overflow = false ∧
    (handsOver
          (openCmd (seen (command saggar { layerOpen := true, block := some { layer := 0 : Block } : Stream } aCommit) last) last
            (unit aCommit))
          { layer := 0 : Block } &&
        decide
          (offLeft
              (openCmd (seen (command saggar { layerOpen := true, block := some { layer := 0 : Block } : Stream } aCommit) last) last
                (unit aCommit))
              ((command saggar { layerOpen := true, block := some { layer := 0 : Block } : Stream } aCommit).stream last).saggar <
            unitsOf (savesOf { layer := 0 : Block }.ranges))) =
      false :=
  ⟨begins_of (by decide +kernel), by and_intros <;> first | decide +kernel | rfl⟩

theorem witness_LayerCommandsBegin_replay :
    (CmdBegins
       (command saggar { layerOpen := true, overflow := true, level := 1, block := some { layer := 0 : Block } : Stream } aCommit)
       (seen
         (command saggar { layerOpen := true, overflow := true, level := 1, block := some { layer := 0 : Block } : Stream } aCommit)
         last)
       last 3 (unit aCommit) (fun u _ _ => blockBusy u last) commitBad) ∧
    ((command saggar { layerOpen := true, overflow := true, level := 1, block := some { layer := 0 : Block } : Stream }
              aCommit).stream
          last).block =
      some { layer := 0 : Block } ∧
    ((command saggar { layerOpen := true, overflow := true, level := 1, block := some { layer := 0 : Block } : Stream }
              aCommit).stream
          last).overflow =
      true :=
  ⟨begins_of (by decide +kernel), by and_intros <;> first | decide +kernel | rfl⟩

def aStep : Tab Byte := [(2, 16), (3, 4)]
theorem witness_LayerCommandsBegin_step :
    (CmdBegins (command saggar { stepOwner := true : Stream } aStep) (seen (command saggar { stepOwner := true : Stream } aStep) last)
       last 4 (unit aStep) (fun u y _ => decide (3 ≤ (u.saggar y.saggar).sec.state)) stepBad) ∧
    cf (unit aStep) 16 0 1 = 0 :=
  ⟨begins_of (by decide +kernel), by first | decide +kernel | rfl⟩

def snapshotter : Saggar := { saggar with cfg := { layerCount := 1, saveSize := 2 ^ 30, secMode := 2 } }
def aSnapshot : Tab Byte := [(2, 16), (3, 4), (16, 1)]
theorem witness_LayerCommandsBegin_snapshot :
    (CmdBegins (command snapshotter { stepOwner := true : Stream } aSnapshot)
       (seen (command snapshotter { stepOwner := true : Stream } aSnapshot) last) last 4 (unit aSnapshot)
       (fun u y _ => decide (3 ≤ (u.saggar y.saggar).sec.state)) stepBad) ∧
    cf (unit aSnapshot) 16 0 1 = 1 :=
  ⟨begins_of (by decide +kernel), by first | decide +kernel | rfl⟩

def weighted : Saggar := { saggar with cfg := { layerCount := 1, saveSize := 2 ^ 30, wgtCount := 1 }, weights := [(0, (List.range 64).map fun i => if i = 24 then 64 else if i = 34 then 0x60 else 0)] }
def aGather : Tab Byte := [(2, 16), (3, 7), (18, 4), (26, 1), (32, 64)]
theorem witness_GatherAndGuildBegin_gather :
    CmdBegins (command weighted { depth := 4 : Stream } aGather) (seen (command weighted { depth := 4 : Stream } aGather) last) last 7
      (unit aGather) gatherWait gatherBad :=
  begins_of (by decide +kernel)

def aRelease : Tab Byte := [(2, 16), (3, 8), (18, 4)]
theorem witness_GatherAndGuildBegin_release :
    CmdBegins (command weighted { depth := 4, gslots := [(4, { complete := true : GSlot })] : Stream } aRelease)
      (seen (command weighted { depth := 4, gslots := [(4, { complete := true : GSlot })] : Stream } aRelease) last) last 8
      (unit aRelease) gatherWait releaseBad ∧
    ((command weighted { depth := 4, gslots := [(4, { complete := true : GSlot })] : Stream } aRelease).stream last).gslots.find
        (cf (unit aRelease) 18 0 3) =
      some { complete := true : GSlot } :=
  ⟨begins_of (by decide +kernel), by first | decide +kernel | rfl⟩

theorem witness_GatherAndGuildBegin_releaseNone :
    CmdBegins (command weighted { depth := 4 : Stream } aRelease) (seen (command weighted { depth := 4 : Stream } aRelease) last) last
      8 (unit aRelease) gatherWait releaseBad ∧
    ((command weighted { depth := 4 : Stream } aRelease).stream last).gslots.find (cf (unit aRelease) 18 0 3) = none :=
  ⟨begins_of (by decide +kernel), by first | decide +kernel | rfl⟩

def aGuild : Tab Byte := [(2, 16), (3, 11), (16, 5), (19, 0x20), (20, 31)]
theorem witness_GatherAndGuildBegin_guild :
    CmdBegins (command saggar { : Stream } aGuild) (seen (command saggar { : Stream } aGuild) last) last 11 (unit aGuild) guildWait
      guildBad ∧
    (openCmd (seen (command saggar { : Stream } aGuild) last) last (unit aGuild)).guild? (gcmd (unit aGuild)).gid =
      some { saggar := 1, rank := 0, n := 2, members := [0, 1] : Guild } ∧
    { saggar := 1, rank := 0, n := 2, members := [0, 1] : Guild }.heard = [] ∧
    { saggar := 1, rank := 0, n := 2, members := [0, 1] : Guild }.early = [] ∧
    (formOuts (openCmd (seen (command saggar { : Stream } aGuild) last) last (unit aGuild))
          { saggar := ((command saggar { : Stream } aGuild).stream last).saggar, stream := last, source := 520 : Who }
          (gcmd (unit aGuild)).gid { saggar := 1, rank := 0, n := 2, members := [0, 1] : Guild } (gcmd (unit aGuild))
          (cmdLayer (unit aGuild)) (cmdOper (unit aGuild))).fst =
      Except.ok [(0, List.replicate 16 0), (1, List.replicate 16 0)] :=
  ⟨begins_of (by decide +kernel), by and_intros <;> first | decide +kernel | rfl⟩

/-- Wheel 191 with its engines, one crew in slot 63. -/
def engines (c : Crew) (e : WhlEng) : State := { module c with wheels := [(191, { crews := [(63, c)], eng := e })] }
def mxEntry : MxEntry := { id := 9, slot := 63, uid := 1, saggar := 1, word := 0, ta0 := 0, tw := 4, fmtA := 1, fmtB := 1, lanes := 1 }
def granted (s : State) : State := { s with rve := { permits := [(1, { kind := 0, unit := 191, full := 400, held := 400, known := 2 })] } }
theorem witness_EnginesComplete_start :
    191 < 192 ∧ mayStart (granted (engines matrix { mxq := [mxEntry] : WhlEng })) 191 = true ∧
    waitingMx (granted (engines matrix { mxq := [mxEntry] : WhlEng })) 191 = [mxEntry] ∧
    (mxEntry.half = false ∨ partnerOf mxEntry [] [] = none ∧ ([] : List MxEntry) ≠ []) :=
  by and_intros <;> first | decide +kernel | rfl

def halfEntry : MxEntry := { mxEntry with half := true }
def otherEntry : MxEntry := { mxEntry with id := 10 }
theorem witness_EnginesComplete_alone :
    191 < 192 ∧ mayStart (granted (engines matrix { mxq := [halfEntry, otherEntry] : WhlEng })) 191 = true ∧
    waitingMx (granted (engines matrix { mxq := [halfEntry, otherEntry] : WhlEng })) 191 = [halfEntry, otherEntry] ∧
    (halfEntry.half = false ∨ partnerOf halfEntry [] [otherEntry] = none ∧ [otherEntry] ≠ []) :=
  by and_intros <;> first | decide +kernel | rfl

def otherHalf : MxEntry := { halfEntry with id := 10, slot := 62, h := true }
theorem witness_EnginesComplete_pair :
    191 < 192 ∧ mayStart (granted (engines matrix { mxq := [halfEntry, otherHalf] : WhlEng })) 191 = true ∧
    waitingMx (granted (engines matrix { mxq := [halfEntry, otherHalf] : WhlEng })) 191 = [halfEntry, otherHalf] ∧ halfEntry.half = true ∧
    partnerOf halfEntry [] [otherHalf] = some otherHalf :=
  by and_intros <;> first | decide +kernel | rfl

theorem witness_EnginesComplete_halfWaits :
    191 < 192 ∧ mayStart (granted (engines matrix { mxq := [halfEntry] : WhlEng })) 191 = true ∧
    waitingMx (granted (engines matrix { mxq := [halfEntry] : WhlEng })) 191 = [halfEntry] ∧ halfEntry.half = true ∧ ([] : List MxEntry) = [] :=
  by and_intros <;> first | decide +kernel | rfl

def twoTicks : State := { granted (engines matrix { mxq := [halfEntry] }) with time := { locked := true, watch := 2 } }
theorem witness_EnginesComplete_partnerTimeout :
    191 < 192 ∧ mayStart twoTicks 191 = true ∧ waitingMx twoTicks 191 = [halfEntry] ∧ halfEntry.half = true ∧ ([] : List MxEntry) = [] ∧
    max halfEntry.since (twoTicks.wheel 191).eng.lastStart + 2 ≤ twoTicks.watch :=
  by and_intros <;> first | decide +kernel | rfl

def startedEntry : MxEntry := { mxEntry with started := true }
theorem witness_EnginesComplete_mx :
    191 < 192 ∧ memWheel (engines matrix { mxq := [startedEntry] : WhlEng }) 191 = true ∧
    ((engines matrix { mxq := [startedEntry] : WhlEng }).wheel 191).eng.mxq = [startedEntry] ∧ startedEntry.started = true ∧
    startedEntry.partner = none ∧ startedEntry.bad = false ∧
    accBusy ((engines matrix { mxq := [startedEntry] : WhlEng }).wheel 191) startedEntry.uid startedEntry.word
        (startedEntry.word + 1024) startedEntry.id =
      false ∧
    entryCrew (engines matrix { mxq := [startedEntry] : WhlEng }) 191 startedEntry.slot startedEntry.uid = some matrix ∧
    (mxSum matrix startedEntry).snd.fst = false :=
  by and_intros <;> first | decide +kernel | rfl

def firstHalf : MxEntry := { halfEntry with started := true, partner := some 10 }
def secondHalf : MxEntry := { otherHalf with uid := 2, started := true, partner := some 9 }
def secondCrew : Crew := { matrix with uid := 2 }
def pairing : State := { module matrix with wheels := [(191, { crews := [(62, secondCrew), (63, matrix)], eng := { mxq := [firstHalf, secondHalf] } })] }
theorem witness_EnginesComplete_mxPair :
    191 < 192 ∧ memWheel pairing 191 = true ∧ (pairing.wheel 191).eng.mxq = [firstHalf, secondHalf] ∧ firstHalf.started = true ∧
    firstHalf.bad = false ∧ firstHalf.partner = some secondHalf.id ∧ secondHalf.bad = false ∧
    (List.find? (fun e => e.id == secondHalf.id) [secondHalf] = some secondHalf) ∧ firstHalf.slot ≠ secondHalf.slot ∧
    accBusy (pairing.wheel 191) firstHalf.uid firstHalf.word (firstHalf.word + 1024) firstHalf.id = false ∧
    accBusy (pairing.wheel 191) secondHalf.uid secondHalf.word (secondHalf.word + 1024) secondHalf.id = false ∧
    entryCrew pairing 191 firstHalf.slot firstHalf.uid = some matrix ∧ entryCrew pairing 191 secondHalf.slot secondHalf.uid = some secondCrew ∧
    (mxSum matrix firstHalf).snd.fst = false ∧ (mxSum secondCrew secondHalf).snd.fst = false :=
  by and_intros <;> first | decide +kernel | rfl

def mvEntry : MvEntry := { id := 9, slot := 63, uid := 1, begun := true, word := 0, fmtW := 4, fmtX := 4, row := 15, wTile := [], xTile := [] }
theorem witness_EnginesComplete_mv :
    191 < 192 ∧ memWheel (engines matrix { mvq := [mvEntry] : WhlEng }) 191 = true ∧
    nextMv (engines matrix { mvq := [mvEntry] : WhlEng }) 191 = some mvEntry ∧
    accBusy ((engines matrix { mvq := [mvEntry] : WhlEng }).wheel 191) mvEntry.uid mvEntry.word (mvEntry.word + 16) mvEntry.id = false ∧
    entryCrew (engines matrix { mvq := [mvEntry] : WhlEng }) 191 mvEntry.slot mvEntry.uid = some matrix ∧ (mvSum matrix mvEntry).snd.fst = false :=
  by and_intros <;> first | decide +kernel | rfl

def vecEntry : VecEntry := { id := 9, slot := 63, uid := 1, counter := 15, desc := ChainDesc.of ((List.range 192).map fun i => if i = 96 then 1 else 0), vl := 32, segsLeft := 1 }
theorem witness_EnginesComplete_segment :
    191 < 192 ∧ memWheel (engines chained { vecq := [vecEntry] : WhlEng }) 191 = true ∧
    vecSlot ((engines chained { vecq := [vecEntry] : WhlEng }).wheel 191) = some 63 ∧
    (List.find? (fun e => e.slot == 63) ((engines chained { vecq := [vecEntry] : WhlEng }).wheel 191).eng.vecq = some vecEntry) ∧
    vecEntry.segsLeft ≠ 0 ∧ (∀ (e : VecEntry), e ∈ ((engines chained { vecq := [vecEntry] : WhlEng }).wheel 191).eng.vecq → e.vred = none) :=
  by and_intros <;> first | decide +kernel | rfl

def lastSegment : VecEntry := { vecEntry with segsLeft := 0 }
def finished : State := engines chained { vecq := [lastSegment] }
theorem witness_EnginesComplete_chain :
    191 < 192 ∧ memWheel finished 191 = true ∧ vecSlot (finished.wheel 191) = some 63 ∧
    (List.find? (fun e => e.slot == 63) (finished.wheel 191).eng.vecq = some lastSegment) ∧ lastSegment.segsLeft = 0 ∧ lastSegment.vred = none ∧
    ownStores (finished.wheel 191) lastSegment.uid lastSegment.id = false ∧ chainCounterBusy (finished.wheel 191) lastSegment = false ∧
    ((lastSegment.accWords.any fun p => mxInto (finished.wheel 191) lastSegment.uid p.fst p.snd lastSegment.id) = false) ∧
    runChain finished 191 lastSegment none = (Except.ok { : ElemNotes }, (runChain finished 191 lastSegment none).snd) ∧
    (∀ (e : VecEntry), e ∈ ((runChain finished 191 lastSegment none).snd.wheel 191).eng.vecq → e.vred = none) ∧
    entryCrew (runChain finished 191 lastSegment none).snd 191 lastSegment.slot lastSegment.uid = some chained ∧
    { : ElemNotes }.beyond = false ∧ { : ElemNotes }.sat = false ∧ inGradient (runChain finished 191 lastSegment none).snd chained = false :=
  by and_intros <;> first | decide +kernel | rfl

def vredEntry : VecEntry := { vecEntry with segsLeft := 0, desc := { stages := [] }, vred := some (ins 31 15 0 (7 * 2 ^ 20 + 7 * 2 ^ 13), 1) }
theorem witness_EnginesComplete_vred :
    191 < 192 ∧ memWheel (engines chained { vecq := [vredEntry] : WhlEng }) 191 = true ∧
    vecSlot ((engines chained { vecq := [vredEntry] : WhlEng }).wheel 191) = some 63 ∧
    (List.find? (fun e => e.slot == 63) ((engines chained { vecq := [vredEntry] : WhlEng }).wheel 191).eng.vecq = some vredEntry) ∧
    ((engines chained { vecq := [vredEntry] : WhlEng }).wheel 191).eng.vecq = [vredEntry] ∧
    vredEntry.vred = some (ins 31 15 0 (7 * 2 ^ 20 + 7 * 2 ^ 13), 1) ∧
    entryCrew (engines chained { vecq := [vredEntry] : WhlEng }) 191 vredEntry.slot vredEntry.uid = some chained ∧
    vredOf (ins 31 15 0 (7 * 2 ^ 20 + 7 * 2 ^ 13)) = some (0, 4, 6) ∧
    vredBeyond (ins 31 15 0 (7 * 2 ^ 20 + 7 * 2 ^ 13)) chained vredEntry.vl (0, 4, 6) = false :=
  by and_intros <;> first | decide +kernel | rfl

def aCopy : Copy := { id := 9, slot := 63, uid := 1, counter := 15, kind := .copy1 2 0 64 32, saggar := 1, stream := 7 }
def copyDone : State := (runCopy (engines chained { copies := [aCopy] }) 191 aCopy).2
theorem witness_EnginesComplete_copy :
    191 < 192 ∧ memWheel (engines chained { copies := [aCopy] : WhlEng }) 191 = true ∧
    (List.find? (fun e => e.id == 9) ((engines chained { copies := [aCopy] : WhlEng }).wheel 191).eng.copies = some aCopy) ∧
    copyHeld (engines chained { copies := [aCopy] : WhlEng }) aCopy = false ∧ aCopy.sent = none ∧
    counterBusy ((engines chained { copies := [aCopy] : WhlEng }).wheel 191) aCopy = false ∧
    (aCopy.leave = true → leaveKnown (engines chained { copies := [aCopy] : WhlEng }) 1 191 9 ≠ 0) ∧
    (∀ (r : Nat), aCopy.after = some r → released (engines chained { copies := [aCopy] : WhlEng }) 191 r = true) ∧
    runCopy (engines chained { copies := [aCopy] : WhlEng }) 191 aCopy = (none, copyDone) ∧
    (∀ (g q : Nat) (a b : DWord) (l : Nat) (m : Option (Nat × DWord × Word)), aCopy.kind ≠ CopyKind.rput g q a b l m) :=
  by
    iterate 7 refine ⟨by first | decide +kernel | rfl, ?_⟩
    exact ⟨nofun, by first | decide +kernel | rfl, nofun⟩

def aPut : Copy := { aCopy with kind := .rput 5 1 0 64 32 none }
def putting : State := { engines chained { copies := [aPut] } with link := { guilds := [(5, { saggar := 1, rank := 0, n := 2, members := [0, 1] })] } }
theorem witness_EnginesComplete_put :
    191 < 192 ∧ memWheel putting 191 = true ∧ (List.find? (fun e => e.id == 9) (putting.wheel 191).eng.copies = some aPut) ∧
    copyHeld putting aPut = false ∧ aPut.sent = none ∧ counterBusy (putting.wheel 191) aPut = false ∧
    (aPut.leave = true → leaveKnown putting 1 191 9 ≠ 0) ∧ (∀ (r : Nat), aPut.after = some r → released putting 191 r = true) ∧
    aPut.kind = CopyKind.rput 5 1 0 64 32 none :=
  by
    iterate 7 refine ⟨by first | decide +kernel | rfl, ?_⟩
    exact ⟨nofun, by first | decide +kernel | rfl⟩

def query : TravQuery := { id := 9, path := 31, lane := 0, da := 28, ray := [0, 0, 0, 0, 0, 0, 0x3F800000, 0x3F800000], root := 128 }
def traced : Crew := { lone [] with queries := [query] }
def tracing : State := { module traced with ms := { mem := [(143, 0x11), (195, 0xC0)] } }
def theRay : Ray := (rayOf query.ray).get rfl
def found : Best × TravCount × Bool :=
  match walk tracing 191 1 query theRay (2 ^ 64) [{ entry := none, slot := 0, kind := 0, index := 0, tris := 0 }] { t := theRay.tmax } {} with
  | some (.ok r) => r
  | _ => ({ t := 0 }, {}, false)
theorem witness_EnginesComplete_trav :
    191 < 192 ∧ memWheel tracing 191 = true ∧
    (List.findSome? (fun e => Option.map (fun q => (e.fst, e.snd, q)) (List.find? (fun q => q.id == 9) e.snd.queries))
         (tracing.wheel 191).crews =
       some (63, traced, query)) ∧
    rayOf query.ray = some theRay ∧
    walk tracing 191 traced.saggar query theRay (2 ^ 64) [{ entry := none, slot := 0, kind := 0, index := 0, tris := 0 : Visit }]
        { t := theRay.tmax : Best } { : TravCount } =
      some (Except.ok (found.fst, found.snd.fst, found.snd.snd)) :=
  by and_intros <;> first | decide +kernel | rfl

/-- A bulk launch of saggar 1 with four tasks, and the last wheel with work to find. -/
def launch : Launch := { stream := 7, saggar := 1, cls := 0, layer := 0, op := 0, level := 0, prog := 64, res := {}, total := 4, left := 4, ready := 0, window := 0 }
def market (k : WhlWork) (ctl : WhlCtl) (l : Tab Launch) : State :=
  { hub := { state := .ready }, time := { locked := true, watch := 9000 }, wheels := [(191, { work := k, ctl })], img := { idleTicks := 64, interWait := 9 }
    front := { saggars := [(1, { st := .on, maps := [(0, page)], cfg := { rights := BitVec.allOnes 192, saveSize := 2 ^ 30 } })]
               streams := [(7, { st := 1, saggar := 1 })], launches := l } }
def ranged (r : TaskRange) : State := market { deque := [r] } {} [(3, launch)]
theorem witness_WorkFinding_start :
    191 < 192 ∧ (∀ (e : Nat × Launch), e ∈ (ranged { launch := 3, first := 2, count := 1 : TaskRange }).front.launches → e.snd.pinned = false) ∧
    ((ranged { launch := 3, first := 2, count := 1 : TaskRange }).wheel 191).work.deque =
      [{ launch := 3, first := 2, count := 1 : TaskRange }] ∧
    wheelOn (ranged { launch := 3, first := 2, count := 1 : TaskRange }) 191 = true ∧
    canStart (ranged { launch := 3, first := 2, count := 1 : TaskRange }) 191 { launch := 3, first := 2, count := 1 : TaskRange } =
      true ∧
    (ranged { launch := 3, first := 2, count := 1 : TaskRange }).launch? { launch := 3, first := 2, count := 1 : TaskRange }.launch =
      some launch ∧
    bestPart ((ranged { launch := 3, first := 2, count := 1 : TaskRange }).wheel 191) launch.res = some 0 ∧
    { launch := 3, first := 2, count := 1 : TaskRange }.saved = none :=
  by and_intros <;> first | decide +kernel | rfl

theorem witness_WorkFinding_request :
    191 < 192 ∧ (∀ (e : Nat × Launch), e ∈ (market { : WhlWork } { : WhlCtl } []).front.launches → e.snd.pinned = false) ∧
    wheelOn (market { : WhlWork } { : WhlCtl } []) 191 = true ∧ wheelEvicting ((market { : WhlWork } { : WhlCtl } []).wheel 191) = false ∧
    anyRoom ((market { : WhlWork } { : WhlCtl } []).wheel 191) = true ∧ ((market { : WhlWork } { : WhlCtl } []).wheel 191).work.asking = false ∧
    ((market { : WhlWork } { : WhlCtl } []).wheel 191).work.gotEmpty = false ∧
    ((market { : WhlWork } { : WhlCtl } []).wheel 191).work.retry = false ∧ hasStartable (market { : WhlWork } { : WhlCtl } []) 191 = false :=
  by and_intros <;> first | decide +kernel | rfl

theorem witness_WorkFinding_empty :
    191 < 192 ∧ (∀ (e : Nat × Launch), e ∈ (market { asking := true : WhlWork } { : WhlCtl } []).front.launches → e.snd.pinned = false) ∧
    ((market { asking := true : WhlWork } { : WhlCtl } []).wheel 191).work.asking = true ∧
    (market { asking := true : WhlWork } { : WhlCtl } []).serving = true ∧
    (market { asking := true : WhlWork } { : WhlCtl } []).frozen = false ∧
    ((market { asking := true : WhlWork } { : WhlCtl } []).wheel 191).ctl.state = UnitSt.on ∧
    ((market { asking := true : WhlWork } { : WhlCtl } []).wheel 191).ctl.stopGts = none ∧
    bestLaunch (market { asking := true : WhlWork } { : WhlCtl } []) 191 = none ∧
    ((market { asking := true : WhlWork } { : WhlCtl } []).wheel 191).ctl.resv = none :=
  by and_intros <;> first | decide +kernel | rfl

theorem witness_WorkFinding_tasks :
    191 < 192 ∧
    (∀ (e : Nat × Launch), e ∈ (market { asking := true : WhlWork } { : WhlCtl } [(3, launch)]).front.launches → e.snd.pinned = false) ∧
    ((market { asking := true : WhlWork } { : WhlCtl } [(3, launch)]).wheel 191).work.asking = true ∧
    (market { asking := true : WhlWork } { : WhlCtl } [(3, launch)]).serving = true ∧
    (market { asking := true : WhlWork } { : WhlCtl } [(3, launch)]).frozen = false ∧
    ((market { asking := true : WhlWork } { : WhlCtl } [(3, launch)]).wheel 191).ctl.state = UnitSt.on ∧
    ((market { asking := true : WhlWork } { : WhlCtl } [(3, launch)]).wheel 191).ctl.stopGts = none ∧
    bestLaunch (market { asking := true : WhlWork } { : WhlCtl } [(3, launch)]) 191 = some (3, launch) ∧
    rangesHeld ((market { asking := true : WhlWork } { : WhlCtl } [(3, launch)]).wheel 191) < 64 ∧
    tasksHeld ((market { asking := true : WhlWork } { : WhlCtl } [(3, launch)]).wheel 191) ≤ 448 :=
  by and_intros <;> first | decide +kernel | rfl

theorem witness_WorkFinding_probe :
    191 < 192 ∧ (∀ (e : Nat × Launch), e ∈ (market { gotEmpty := true : WhlWork } { : WhlCtl } []).front.launches → e.snd.pinned = false) ∧
    wheelOn (market { gotEmpty := true : WhlWork } { : WhlCtl } []) 191 = true ∧
    ((market { gotEmpty := true : WhlWork } { : WhlCtl } []).wheel 191).work.gotEmpty = true ∧
    ((market { gotEmpty := true : WhlWork } { : WhlCtl } []).wheel 191).work.probe = none ∧
    ((market { gotEmpty := true : WhlWork } { : WhlCtl } []).wheel 191).work.retry = false ∧
    ((market { gotEmpty := true : WhlWork } { : WhlCtl } []).wheel 191).ctl.resv = none ∧
    anyRoom ((market { gotEmpty := true : WhlWork } { : WhlCtl } []).wheel 191) = true ∧
    (victims (market { gotEmpty := true : WhlWork } { : WhlCtl } [])
          191)[((market { gotEmpty := true : WhlWork } { : WhlCtl } []).wheel 191).work.nextProbe]? =
      some 184 :=
  by and_intros <;> first | decide +kernel | rfl

theorem witness_WorkFinding_arrival :
    191 < 192 ∧
    (∀ (e : Nat × Launch),
       e ∈ (market { gotEmpty := true, probe := some 190 : WhlWork } { : WhlCtl } []).front.launches → e.snd.pinned = false) ∧
    ((market { gotEmpty := true, probe := some 190 : WhlWork } { : WhlCtl } []).wheel 191).work.probe = some 190 ∧
    ((market { gotEmpty := true, probe := some 190 : WhlWork } { : WhlCtl } []).wheel 191).work.probeGave = none ∧
    (market { gotEmpty := true, probe := some 190 : WhlWork } { : WhlCtl } []).serving = true ∧
    (market { gotEmpty := true, probe := some 190 : WhlWork } { : WhlCtl } []).frozen = false ∧
    (victims (market { gotEmpty := true, probe := some 190 : WhlWork } { : WhlCtl } []) 191)[190]? = some 95 ∧
    ((market { gotEmpty := true, probe := some 190 : WhlWork } { : WhlCtl } []).wheel 95).ctl.state = UnitSt.on :=
  by and_intros <;> first | decide +kernel | rfl

theorem witness_WorkFinding_answer :
    191 < 192 ∧
    (∀ (e : Nat × Launch),
       e ∈
           (market { gotEmpty := true, probe := some 190, probeGave := some none, nextProbe := 190 : WhlWork } { : WhlCtl }
                 []).front.launches →
         e.snd.pinned = false) ∧
    ((market { gotEmpty := true, probe := some 190, probeGave := some none, nextProbe := 190 : WhlWork } { : WhlCtl } []).wheel
            191).work.probeGave =
      some none ∧
    (market { gotEmpty := true, probe := some 190, probeGave := some none, nextProbe := 190 : WhlWork } { : WhlCtl } []).serving =
      true ∧
    (market { gotEmpty := true, probe := some 190, probeGave := some none, nextProbe := 190 : WhlWork } { : WhlCtl } []).frozen =
      false :=
  by and_intros <;> first | decide +kernel | rfl

theorem witness_WorkFinding_retry :
    191 < 192 ∧
    (∀ (e : Nat × Launch),
       e ∈ (market { gotEmpty := true, retry := true, retrySince := 8744 : WhlWork } { : WhlCtl } []).front.launches →
         e.snd.pinned = false) ∧
    wheelOn (market { gotEmpty := true, retry := true, retrySince := 8744 : WhlWork } { : WhlCtl } []) 191 = true ∧
    ((market { gotEmpty := true, retry := true, retrySince := 8744 : WhlWork } { : WhlCtl } []).wheel 191).work.retry = true ∧
    ((market { gotEmpty := true, retry := true, retrySince := 8744 : WhlWork } { : WhlCtl } []).wheel 191).work.retrySince + 256 ≤
      (market { gotEmpty := true, retry := true, retrySince := 8744 : WhlWork } { : WhlCtl } []).watch :=
  by and_intros <;> first | decide +kernel | rfl

def waiting : Launch := { launch with cls := 1, window := 8991 }
theorem witness_WorkFinding_interactive :
    191 < 192 ∧ (∀ (e : Nat × Launch), e ∈ (market { : WhlWork } { : WhlCtl } [(3, waiting)]).front.launches → e.snd.pinned = false) ∧
    (market { : WhlWork } { : WhlCtl } [(3, waiting)]).serving = true ∧ (market { : WhlWork } { : WhlCtl } [(3, waiting)]).frozen = false ∧
    (market { : WhlWork } { : WhlCtl } [(3, waiting)]).launch? 3 = some waiting ∧ waiting.cls = 1 ∧ waiting.served = false ∧
    waiting.window + (market { : WhlWork } { : WhlCtl } [(3, waiting)]).img.interWait ≤
      (market { : WhlWork } { : WhlCtl } [(3, waiting)]).watch :=
  by and_intros <;> first | decide +kernel | rfl

def control (ctl : WhlCtl) : State := market {} ctl []
theorem witness_WheelControl_restart :
    191 < 192 ∧ (control { gated := true, stopGts := some 0, waking := true : WhlCtl }).serving = true ∧
    (control { gated := true, stopGts := some 0, waking := true : WhlCtl }).present 191 = true ∧
    ((control { gated := true, stopGts := some 0, waking := true : WhlCtl }).wheel 191).ctl.waking = true ∧
    ((control { gated := true, stopGts := some 0, waking := true : WhlCtl }).wheel 191).ctl.state ≠ UnitSt.fenced :=
  by and_intros <;> first | decide +kernel | rfl

theorem witness_WheelControl_droop :
    191 < 192 ∧ (control { : WhlCtl }).serving = true ∧ (control { : WhlCtl }).present 191 = true ∧ 4 ≤ 16 ∧ 16 ≤ 16 ∧
    ((control { : WhlCtl }).wheel 191).ctl.stopGts = none ∧ ((control { : WhlCtl }).wheel 191).ctl.period ≤ 16 + 1 :=
  by and_intros <;> first | decide +kernel | rfl

theorem witness_WheelControl_droopEnd :
    191 < 192 ∧ (control { period := 16 : WhlCtl }).serving = true ∧ (control { period := 16 : WhlCtl }).present 191 = true ∧ 4 ≤ 15 ∧ 15 ≤ 16 ∧
    ((control { period := 16 : WhlCtl }).wheel 191).ctl.stopGts = none ∧ ((control { period := 16 : WhlCtl }).wheel 191).ctl.period ≤ 15 + 1 :=
  by and_intros <;> first | decide +kernel | rfl

theorem witness_WheelControl_droopJump :
    191 < 192 ∧ (control { period := 16 : WhlCtl }).serving = true ∧ (control { period := 16 : WhlCtl }).present 191 = true ∧ 4 ≤ 4 ∧ 4 ≤ 16 ∧
    ((control { period := 16 : WhlCtl }).wheel 191).ctl.stopGts = none ∧ 4 + 1 < ((control { period := 16 : WhlCtl }).wheel 191).ctl.period :=
  by and_intros <;> first | decide +kernel | rfl

theorem witness_WheelControl_enable :
    191 < 192 ∧ (control { state := UnitSt.draining, enable := false : WhlCtl }).serving = true ∧
    (control { state := UnitSt.draining, enable := false : WhlCtl }).present 191 = true ∧
    ((control { state := UnitSt.draining, enable := false : WhlCtl }).wheel 191).ctl.state ≠ UnitSt.fenced :=
  by and_intros <;> first | decide +kernel | rfl

theorem witness_WheelControl_disable :
    191 < 192 ∧ (ranged { launch := 3, first := 2, count := 1 : TaskRange }).serving = true ∧
    (ranged { launch := 3, first := 2, count := 1 : TaskRange }).present 191 = true ∧
    ((ranged { launch := 3, first := 2, count := 1 : TaskRange }).wheel 191).ctl.state ≠ UnitSt.fenced :=
  by and_intros <;> first | decide +kernel | rfl

theorem witness_WheelControl_evict :
    191 < 192 ∧ (control { state := UnitSt.draining, enable := false : WhlCtl }).serving = true ∧
    (control { state := UnitSt.draining, enable := false : WhlCtl }).present 191 = true ∧
    ((control { state := UnitSt.draining, enable := false : WhlCtl }).wheel 191).ctl.state = UnitSt.draining :=
  by and_intros <;> first | decide +kernel | rfl

theorem witness_WheelControl_drainEnd :
    191 < 192 ∧ (control { state := UnitSt.draining, enable := false : WhlCtl }).serving = true ∧
    (control { state := UnitSt.draining, enable := false : WhlCtl }).present 191 = true ∧
    ((control { state := UnitSt.draining, enable := false : WhlCtl }).wheel 191).crews = [] ∧
    (((control { state := UnitSt.draining, enable := false : WhlCtl }).wheel 191).ctl.state = UnitSt.draining ∨
       ((control { state := UnitSt.draining, enable := false : WhlCtl }).wheel 191).ctl.state = UnitSt.pendingOn) :=
  by and_intros <;> first | decide +kernel | rfl

theorem witness_WheelControl_pendingOn :
    191 < 192 ∧ (control { state := UnitSt.pendingOn : WhlCtl }).serving = true ∧
    (control { state := UnitSt.pendingOn : WhlCtl }).present 191 = true ∧
    ((control { state := UnitSt.pendingOn : WhlCtl }).wheel 191).crews = [] ∧
    (((control { state := UnitSt.pendingOn : WhlCtl }).wheel 191).ctl.state = UnitSt.draining ∨
       ((control { state := UnitSt.pendingOn : WhlCtl }).wheel 191).ctl.state = UnitSt.pendingOn) :=
  by and_intros <;> first | decide +kernel | rfl

def evicted : State := { module (lone []) with wheels := [(191, { crews := [(63, lone [])], ctl := { state := .draining, enable := false, evict := true } })] }
theorem witness_WheelControl_evicted :
    191 < 192 ∧ evicted.serving = true ∧ evicted.present 191 = true ∧ evicted.frozen = false ∧ (evicted.wheel 191).ctl.evict = true ∧
    (∀ (e : Nat × Crew), e ∈ (evicted.wheel 191).crews → quiescent evicted 191 e.snd = true) ∧
    (∀ (e : Nat × Crew), e ∈ (evicted.wheel 191).crews → evicting evicted 191 e.snd = true) :=
  by and_intros <;> first | decide +kernel | rfl

theorem witness_WheelControl_gate :
    191 < 192 ∧ (control { idleSince := some 8936 : WhlCtl }).serving = true ∧
    (control { idleSince := some 8936 : WhlCtl }).present 191 = true ∧ (control { idleSince := some 8936 : WhlCtl }).img.idleOff = false ∧
    (control { idleSince := some 8936 : WhlCtl }).frozen = false ∧
    ((control { idleSince := some 8936 : WhlCtl }).wheel 191).ctl.state = UnitSt.on ∧
    ((control { idleSince := some 8936 : WhlCtl }).wheel 191).ctl.stopGts = none ∧
    wheelIdle ((control { idleSince := some 8936 : WhlCtl }).wheel 191) = true ∧
    ((control { idleSince := some 8936 : WhlCtl }).wheel 191).ctl.resv = none ∧
    ((control { idleSince := some 8936 : WhlCtl }).wheel 191).ctl.waking = false ∧
    ((control { idleSince := some 8936 : WhlCtl }).wheel 191).ctl.preempt = none ∧
    ((control { idleSince := some 8936 : WhlCtl }).wheel 191).work.asking = false ∧
    ((control { idleSince := some 8936 : WhlCtl }).wheel 191).work.probe = none ∧
    ((control { idleSince := some 8936 : WhlCtl }).wheel 191).ctl.idleSince.getD 0 +
        (control { idleSince := some 8936 : WhlCtl }).img.idleTicks ≤
      (control { idleSince := some 8936 : WhlCtl }).watch :=
  by and_intros <;> first | decide +kernel | rfl

def rung : Crew := { lone [] with bells := [(3, { mask := 3, arrived := 1, since := some 0 })], mxSince := some 0, paths := [(31, { mask := 1, wait := .bell 3 })] }
def late (c : Crew) : State := { module c with time := { locked := true, watch := 2 ^ 26 } }
theorem witness_Watchdogs_bell :
    191 < 192 ∧ 63 < 64 ∧ (late rung).crew? 191 63 = some rung ∧ 3 < 4 ∧ (crewBell rung 3).since = some 0 ∧ (crewBell rung 3).arrived ≠ 0 ∧
    0 + bellTicks (late rung) rung.saggar < (late rung).watch :=
  by and_intros <;> first | decide +kernel | rfl

def stuck : Crew := { rung with live := 3, paths := [(30, { mask := 2 }), (31, { mask := 1, wait := .mx })] }
theorem witness_Watchdogs_matrix :
    191 < 192 ∧ 63 < 64 ∧ (late stuck).crew? 191 63 = some stuck ∧ stuck.mxSince = some 0 ∧
    0 + 2 ^ ((late stuck).saggar stuck.saggar).cfg.bellExp / 4 < (late stuck).watch ∧
    (List.find? (fun e => e.snd.wait == PathWait.mx) stuck.paths = some (31, { mask := 1, wait := PathWait.mx : CPath })) :=
  by and_intros <;> first | decide +kernel | rfl

def arrivedAll : Crew := { rung with paths := [(31, { mask := 1, wait := .mx })] }
theorem witness_Watchdogs_converged :
    191 < 192 ∧ 63 < 64 ∧ (late arrivedAll).crew? 191 63 = some arrivedAll ∧ arrivedAll.mxSince = some 0 ∧
    0 + 2 ^ ((late arrivedAll).saggar arrivedAll.saggar).cfg.bellExp / 4 < (late arrivedAll).watch ∧
    (List.find? (fun e => e.snd.wait == PathWait.mx) arrivedAll.paths = some (31, { mask := 1, wait := PathWait.mx : CPath })) :=
  by and_intros <;> first | decide +kernel | rfl

def lateBell : State := { late rung with front := { saggars := [(4095, { st := .on, cfg := { groupBells := 4 }, gbells := [(3, { members := [1, 2], arrived := [1], since := some 0 })] })] } }
theorem witness_Watchdogs_gbell :
    191 < 192 ∧ 63 < 64 ∧ lateBell.crew? 191 63 = some rung ∧ 4095 < 4096 ∧ (gbell lateBell 4095 3).since = some 0 ∧
    (gbell lateBell 4095 3).broken = false ∧ 0 + 2 ^ (lateBell.saggar 4095).cfg.bellExp / 4 < lateBell.watch :=
  by and_intros <;> first | decide +kernel | rfl

/-- Doorbell 262079 of function 255 belongs to the last stream. -/
def rings (x : Stream) : State :=
  let s := command saggar { x with fn := 255, doorbell := 262079, tail := 0 } []
  { s with hub := { state := .ready, numVfs := 255 }, front := { s.front with streams := [(last, { stream x with tail := 0, fn := 255, doorbell := 262079 })] } }
def bell : Stream := { stream {} with tail := 0, fn := 255, doorbell := 262079 }
theorem witness_DoorbellsAndDrains_read :
    last < 2 ^ 20 ∧ 255 < 256 ∧ 262079 < 262080 ∧ hostUp (rings { : Stream }) = true ∧ fnExists (rings { : Stream }) 255 = true ∧
    streamAt (rings { : Stream }) 255 262079 = some (last, (rings { : Stream }).stream last) :=
  by and_intros <;> first | decide +kernel | rfl

theorem witness_DoorbellsAndDrains_fetch :
    last < 2 ^ 20 ∧ 255 < 256 ∧ 262079 < 262080 ∧ hostUp (rings { : Stream }) = true ∧ fnExists (rings { : Stream }) 255 = true ∧
    streamAt (rings { : Stream }) 255 262079 = some (last, (rings { : Stream }).stream last) ∧
    (((rings { : Stream }).stream last).st = 1 ∨ ((rings { : Stream }).stream last).st = 2) ∧ (rings { : Stream }).front.queued = [] ∧
    (∀ (e : Nat × Word), e ∈ (rings { : Stream }).front.fetching → e.fst ≠ last) ∧ (rings { : Stream }).front.cached.contains last = false ∧
    canCache (rings { : Stream }) last = true :=
  by and_intros <;> first | decide +kernel | rfl

def cachedRings : State := { rings {} with front := { (rings {}).front with cached := [last] } }
theorem witness_DoorbellsAndDrains_offer :
    last < 2 ^ 20 ∧ 255 < 256 ∧ 262079 < 262080 ∧ hostUp cachedRings = true ∧ fnExists cachedRings 255 = true ∧
    streamAt cachedRings 255 262079 = some (last, cachedRings.stream last) ∧
    ((cachedRings.stream last).st = 1 ∨ (cachedRings.stream last).st = 2) ∧ cachedRings.front.queued = [] ∧
    (∀ (e : Nat × Word), e ∈ cachedRings.front.fetching → e.fst ≠ last) ∧ cachedRings.front.cached.contains last = true :=
  by and_intros <;> first | decide +kernel | rfl

def fetchingRings : State := { rings {} with front := { (rings {}).front with fetching := [(last, 16)] } }
theorem witness_DoorbellsAndDrains_fetched :
    last < 2 ^ 20 ∧ fetchingRings.serving = true ∧ (List.find? (fun e => e.fst == last) fetchingRings.front.fetching = some (last, 16)) ∧
    (fetchingRings.stream last).st = 1 ∧ reached 16 (fetchingRings.stream last).tail = true ∧
    BitVec.toNat (16 - (fetchingRings.stream last).head) ≤ 2 ^ (fetchingRings.stream last).order :=
  by and_intros <;> first | decide +kernel | rfl

def drainingStream : State := { rings {} with front := { (rings {}).front with streams := [(last, { stream {} with st := 3, tail := 0 })] } }
theorem witness_DoorbellsAndDrains_fetchFails :
    last < 2 ^ 20 ∧ fetchingRings.serving = true ∧ (List.find? (fun e => e.fst == last) fetchingRings.front.fetching = some (last, 16)) ∧
    (fetchingRings.stream last).st ≠ 0 :=
  by and_intros <;> first | decide +kernel | rfl

theorem witness_DoorbellsAndDrains_drained :
    last < 2 ^ 20 ∧ memRuns drainingStream = true ∧ ((drainingStream.stream last).st = 3 ∨ (drainingStream.stream last).st = 4) ∧
    (drainingStream.saggar (drainingStream.stream last).saggar).st = SagSt.on ∧ streamQuiet drainingStream last = true ∧
    (drainingStream.stream last).latched = none :=
  by and_intros <;> first | decide +kernel | rfl

def drainingSaggar : State := { rings {} with front := { saggars := [(4095, { st := .draining })] } }
theorem witness_DoorbellsAndDrains_saggar :
    last < 2 ^ 20 ∧ 4095 < 4096 ∧ drainingSaggar.serving = true ∧ (drainingSaggar.saggar 4095).st = SagSt.draining ∧
    (drainingSaggar.saggar 4095).latched = none ∧ drainQuiet drainingSaggar 4095 = true :=
  by and_intros <;> first | decide +kernel | rfl

def gathered : GSlot := { bytes := 64, dest := 4096, shardAddr := 64, word := 32, complete := true }
def gathering (g : GSlot) : State := { rings {} with front := { (rings {}).front with streams := [(last, { stream {} with tail := 0, gslots := [(4, g)] })] } }
def incomplete : GSlot := { gathered with complete := false }
def noShards : List (List Byte) := []
theorem witness_DoorbellsAndDrains_gathered :
    last < 2 ^ 20 ∧ 4 < 5 ∧ memRuns (gathering incomplete) = true ∧ ((gathering incomplete).stream last).gslots.find 4 = some incomplete ∧
    incomplete.complete = false ∧ ((gathering incomplete).saggar ((gathering incomplete).stream last).saggar).st = SagSt.on ∧
    wordSettled (gathering incomplete) ((gathering incomplete).stream last).saggar incomplete.word = true ∧
    (writeShards (gathering incomplete) ((gathering incomplete).stream last).saggar last
          ((Option.map Guild.rank ((gathering incomplete).link.guilds.find incomplete.guild)).getD 0) incomplete noShards
          (shardsHere (gathering incomplete) incomplete
            ((Option.map Guild.rank ((gathering incomplete).link.guilds.find incomplete.guild)).getD 0) noShards)).fst =
      none :=
  by and_intros <;> first | decide +kernel | rfl

def releasingSlot : GSlot := { gathered with releasing := some (0, 1) }
theorem witness_DoorbellsAndDrains_released :
    last < 2 ^ 20 ∧ 4 < 5 ∧ memRuns (gathering releasingSlot) = true ∧
    ((gathering releasingSlot).stream last).gslots.find 4 = some releasingSlot ∧ releasingSlot.complete = true ∧
    releasingSlot.releasing = some (0, 1) ∧
    heldRange (gathering releasingSlot) ((gathering releasingSlot).stream last).saggar (BitVec.toNat releasingSlot.dest)
        releasingSlot.bytes =
      false ∧
    (∀ (w : Nat × Wheel), w ∈ (gathering releasingSlot).wheels → w.snd.eng.copies = []) :=
  by and_intros <;> first | decide +kernel | rfl

def moving (k : Nat) : TierJob := { kind := k, saggar := 1, stream := last, ranges := [(0, 65536, 32)] }
def tier (k : Nat) : State := { rings {} with
  front := { (rings {}).front with tier := [(9, moving k)] }, rve := { permits := [(1, { kind := 2, unit := 548, full := 400, held := 400, known := 2 })] } }
theorem witness_DoorbellsAndDrains_offloaded :
    last < 2 ^ 20 ∧ (tier 0).front.tier.find 9 = some (moving 0) ∧ tierRuns (tier 0) (moving 0) = true ∧
    (tierCopy (tier 0) (moving 0)).fst = none ∧ (moving 0).kind = 0 :=
  by and_intros <;> first | decide +kernel | rfl

theorem witness_DoorbellsAndDrains_restored :
    last < 2 ^ 20 ∧ (tier 2).front.tier.find 9 = some (moving 2) ∧ tierRuns (tier 2) (moving 2) = true ∧
    (tierCopy (tier 2) (moving 2)).fst = none ∧ ((moving 2).kind = 1 ∨ (moving 2).kind = 2) ∧
    (∀ (o : OffRange), o ∈ ((tier 2).saggar (moving 2).saggar).offs → o.layer = (moving 2).layer → o.done = true) :=
  by and_intros <;> first | decide +kernel | rfl

theorem witness_DoorbellsAndDrains_moved :
    last < 2 ^ 20 ∧ (tier 3).front.tier.find 9 = some (moving 3) ∧ tierRuns (tier 3) (moving 3) = true ∧
    (tierCopy (tier 3) (moving 3)).fst = none ∧ (moving 3).kind = 3 :=
  by and_intros <;> first | decide +kernel | rfl

def guild : Guild := { saggar := 1, rank := 0, n := 2, members := [0, 1] }
def linked (l : Links) : State := { rings {} with link := l }
def gjob : GJob := { guild := 65535, seq := 0, stream := last, pos := 0, saggar := 1, op := 2, fmt := 4, outFmt := 4, cols := 32, dst := 64, sig := 0, sentTo := [1], result := (List.range 32).map fun i => (i, 5) }
theorem witness_GuildsComplete_job :
    memRuns (linked { guilds := [(65535, guild)], jobs := [(9, gjob)] : Links }) = true ∧
    (linked { guilds := [(65535, guild)], jobs := [(9, gjob)] : Links }).link.jobs.find 9 = some gjob ∧
    (linked { guilds := [(65535, guild)], jobs := [(9, gjob)] : Links }).guild? gjob.guild = some guild ∧
    ((linked { guilds := [(65535, guild)], jobs := [(9, gjob)] : Links }).saggar gjob.saggar).st = SagSt.on ∧
    wordSettled (linked { guilds := [(65535, guild)], jobs := [(9, gjob)] : Links }) gjob.saggar gjob.sig = true ∧ gjob.stalled = false ∧
    jobDone guild gjob = true ∧
    ((writeRows (linked { guilds := [(65535, guild)], jobs := [(9, gjob)] : Links })
           { saggar := gjob.saggar, stream := gjob.stream, source := 520 : Who }
           (tabBytes gjob.result (resLen gjob.op (gjob.cols * gjob.rows) guild.n guild.rank gjob.comp gjob.outFmt))
           (rowsIn gjob.dst gjob.dstride (gjob.cols * if reduces gjob.op = true then fmtBytes gjob.outFmt else 1)
             (resLen gjob.op (gjob.cols * gjob.rows) guild.n guild.rank gjob.comp gjob.outFmt))).fst =
       none) :=
  by and_intros <;> first | decide +kernel | rfl

def drainingGuild : Guild := { guild with st := 2 }
theorem witness_GuildsComplete_drained :
    memRuns (linked { guilds := [(65535, drainingGuild)] : Links }) = true ∧ 65535 < 65536 ∧
    (linked { guilds := [(65535, drainingGuild)] : Links }).guild? 65535 = some drainingGuild ∧ drainingGuild.st ≠ 1 ∧
    (∀ (e : Nat × GJob), e ∈ (linked { guilds := [(65535, drainingGuild)] : Links }).link.jobs → e.snd.guild ≠ 65535) ∧
    drainingGuild.latched = none :=
  by and_intros <;> first | decide +kernel | rfl

def collecting (c : Collector) : State := { rings {} with crier := { colls := [(63, c)] }, time := { locked := true, watch := 100 } }
def aRec : CRec := { gts := 0, tag := 1, stream := last, source := 191, kind := false }
theorem witness_GuildsComplete_accepts :
    memRuns (collecting { bound := true, saggar := 1, offered := [aRec] : Collector }) = true ∧ 63 < 64 ∧
    ((collecting { bound := true, saggar := 1, offered := [aRec] : Collector }).coll 63).bound = true ∧
    ((collecting { bound := true, saggar := 1, offered := [aRec] : Collector }).coll 63).held = [] :=
  by and_intros <;> first | decide +kernel | rfl

theorem witness_GuildsComplete_drains :
    memRuns (collecting { bound := true, saggar := 1, ring := 4096, held := [aRec] : Collector }) = true ∧ 63 < 64 ∧
    ((collecting { bound := true, saggar := 1, ring := 4096, held := [aRec] : Collector }).coll 63).bound = true ∧
    ((collecting { bound := true, saggar := 1, ring := 4096, held := [aRec] : Collector }).coll 63).held = [aRec] ∧
    ((collecting { bound := true, saggar := 1, ring := 4096, held := [aRec] : Collector }).coll 63).offered = [] ∧
    ringRoom ((collecting { bound := true, saggar := 1, ring := 4096, held := [aRec] : Collector }).coll 63) = true ∧
    settled (collecting { bound := true, saggar := 1, ring := 4096, held := [aRec] : Collector })
        ((collecting { bound := true, saggar := 1, ring := 4096, held := [aRec] : Collector }).coll 63).saggar
        (((collecting { bound := true, saggar := 1, ring := 4096, held := [aRec] : Collector }).coll 63).ring +
          BitVec.ofNat 64
            (16 *
              (((collecting { bound := true, saggar := 1, ring := 4096, held := [aRec] : Collector }).coll 63).drained %
                ((collecting { bound := true, saggar := 1, ring := 4096, held := [aRec] : Collector }).coll 63).entries)))
        16 =
      true ∧
    translate (collecting { bound := true, saggar := 1, ring := 4096, held := [aRec] : Collector })
        ((collecting { bound := true, saggar := 1, ring := 4096, held := [aRec] : Collector }).coll 63).saggar
        (((collecting { bound := true, saggar := 1, ring := 4096, held := [aRec] : Collector }).coll 63).ring +
          BitVec.ofNat 64
            (16 *
              (((collecting { bound := true, saggar := 1, ring := 4096, held := [aRec] : Collector }).coll 63).drained %
                ((collecting { bound := true, saggar := 1, ring := 4096, held := [aRec] : Collector }).coll 63).entries))) =
      some (4096, page) ∧
    poisoned (collecting { bound := true, saggar := 1, ring := 4096, held := [aRec] : Collector }) 4096 = false ∧ 4096 % 16 = 0 :=
  by and_intros <;> first | decide +kernel | rfl

theorem witness_GuildsComplete_advance :
    memRuns (collecting { bound := true, saggar := 1, countWord := 64, inFlight := [last, last], drained := 2 : Collector }) = true ∧ 63 < 64 ∧
    ((collecting { bound := true, saggar := 1, countWord := 64, inFlight := [last, last], drained := 2 : Collector }).coll
          63).inFlight ≠
      [] ∧
    settled (collecting { bound := true, saggar := 1, countWord := 64, inFlight := [last, last], drained := 2 : Collector })
        ((collecting { bound := true, saggar := 1, countWord := 64, inFlight := [last, last], drained := 2 : Collector }).coll
            63).saggar
        ((collecting { bound := true, saggar := 1, countWord := 64, inFlight := [last, last], drained := 2 : Collector }).coll
            63).countWord
        4 =
      true ∧
    translate (collecting { bound := true, saggar := 1, countWord := 64, inFlight := [last, last], drained := 2 : Collector })
        ((collecting { bound := true, saggar := 1, countWord := 64, inFlight := [last, last], drained := 2 : Collector }).coll
            63).saggar
        ((collecting { bound := true, saggar := 1, countWord := 64, inFlight := [last, last], drained := 2 : Collector }).coll
            63).countWord =
      some (64, page) ∧
    page.write = true ∧
    poisoned (collecting { bound := true, saggar := 1, countWord := 64, inFlight := [last, last], drained := 2 : Collector }) 64 =
      false :=
  by and_intros <;> first | decide +kernel | rfl

theorem witness_GuildsComplete_reread :
    memRuns (collecting { bound := true, saggar := 1, headWord := 64 : Collector }) = true ∧ 63 < 64 ∧
    ((collecting { bound := true, saggar := 1, headWord := 64 : Collector }).coll 63).bound = true ∧
    settled (collecting { bound := true, saggar := 1, headWord := 64 : Collector })
        ((collecting { bound := true, saggar := 1, headWord := 64 : Collector }).coll 63).saggar
        ((collecting { bound := true, saggar := 1, headWord := 64 : Collector }).coll 63).headWord 4 =
      true ∧
    translate (collecting { bound := true, saggar := 1, headWord := 64 : Collector })
        ((collecting { bound := true, saggar := 1, headWord := 64 : Collector }).coll 63).saggar
        ((collecting { bound := true, saggar := 1, headWord := 64 : Collector }).coll 63).headWord =
      some (64, page) :=
  by and_intros <;> first | decide +kernel | rfl

theorem witness_GuildsComplete_coalesce :
    memRuns (collecting { bound := true, saggar := 1, vector := some 1, coalesce := 50, count := 3, since := some 50 : Collector }) =
      true ∧
    63 < 64 ∧
    ((collecting { bound := true, saggar := 1, vector := some 1, coalesce := 50, count := 3, since := some 50 : Collector }).coll
          63).since =
      some 50 ∧
    ((collecting { bound := true, saggar := 1, vector := some 1, coalesce := 50, count := 3, since := some 50 : Collector }).coll
          63).coalesce ≠
      0 ∧
    ((collecting { bound := true, saggar := 1, vector := some 1, coalesce := 50, count := 3, since := some 50 : Collector }).coll
          63).announced ≠
      ((collecting { bound := true, saggar := 1, vector := some 1, coalesce := 50, count := 3, since := some 50 : Collector }).coll
          63).count ∧
    50 +
        ((collecting { bound := true, saggar := 1, vector := some 1, coalesce := 50, count := 3, since := some 50 : Collector }).coll
            63).coalesce ≤
      (collecting { bound := true, saggar := 1, vector := some 1, coalesce := 50, count := 3, since := some 50 : Collector }).watch ∧
    ((collecting { bound := true, saggar := 1, vector := some 1, coalesce := 50, count := 3, since := some 50 : Collector }).coll
          63).vector =
      some 1 :=
  by and_intros <;> first | decide +kernel | rfl

theorem witness_GuildsComplete_unbound :
    memRuns (collecting { bound := true, saggar := 1, unbinding := some (0, 1) : Collector }) = true ∧ 63 < 64 ∧
    ((collecting { bound := true, saggar := 1, unbinding := some (0, 1) : Collector }).coll 63).unbinding = some (0, 1) ∧
    ((collecting { bound := true, saggar := 1, unbinding := some (0, 1) : Collector }).coll 63).inFlight = [] :=
  by and_intros <;> first | decide +kernel | rfl

def packet : Packet := { dest := 0, src := 1, kind := 0, saggar := 1, addr := 64, data := [1, 2, 3, 4], count := 1 }
def inbound (p : Packet) (l : Links) : State := linked { l with inbound := [(9, (0, p))] }
theorem witness_GuildsComplete_write :
    memRuns (inbound packet { : Links }) = true ∧ (inbound packet { : Links }).link.inbound.find 9 = some (0, packet) ∧
    settled (inbound packet { : Links }) packet.saggar packet.addr (max 4 packet.data.length) = true ∧ packet.kind = 0 ∧
    ((inbound packet { : Links }).link.tags.has (tagKey packet) = true ∨ List.length (inbound packet { : Links }).link.tags < 16384) ∧
    remoteOk (inbound packet { : Links }) packet.saggar packet.addr packet.data.length = true ∧
    translate (inbound packet { : Links }) packet.saggar packet.addr = some (64, page) ∧ packet.data ≠ [] ∧
    BitVec.toNat packet.addr % 32 + packet.data.length ≤ 32 ∧ (packet.data.length = 32 ∨ poisoned (inbound packet { : Links }) 64 = false) ∧
    64 % 32 = BitVec.toNat packet.addr % 32 :=
  by and_intros <;> first | decide +kernel | rfl

def attached : Packet := { packet with kind := 2, op := 1, v := 1 }
theorem witness_GuildsComplete_attached :
    memRuns (inbound attached { tags := [(2 ^ 24, { done := 1 : OpenTag })] : Links }) = true ∧
    (inbound attached { tags := [(2 ^ 24, { done := 1 : OpenTag })] : Links }).link.inbound.find 9 = some (0, attached) ∧
    settled (inbound attached { tags := [(2 ^ 24, { done := 1 : OpenTag })] : Links }) attached.saggar attached.addr
        (max 4 attached.data.length) =
      true ∧
    attached.kind = 2 ∧
    attached.count ≤
      (Tab.get { : OpenTag } (inbound attached { tags := [(2 ^ 24, { done := 1 : OpenTag })] : Links }).link.tags
          (tagKey attached)).done ∧
    (Tab.get { : OpenTag } (inbound attached { tags := [(2 ^ 24, { done := 1 : OpenTag })] : Links }).link.tags
          (tagKey attached)).denied =
      false ∧
    remoteWord (inbound attached { tags := [(2 ^ 24, { done := 1 : OpenTag })] : Links }) attached.saggar attached.addr = some 64 :=
  by and_intros <;> first | decide +kernel | rfl

def remoteSignal : Packet := { packet with kind := 1, op := 2, v := 1 }
theorem witness_GuildsComplete_signal :
    memRuns (inbound remoteSignal { : Links }) = true ∧ (inbound remoteSignal { : Links }).link.inbound.find 9 = some (0, remoteSignal) ∧
    settled (inbound remoteSignal { : Links }) remoteSignal.saggar remoteSignal.addr (max 4 remoteSignal.data.length) = true ∧
    remoteSignal.kind = 1 ∧ settled (inbound remoteSignal { : Links }) remoteSignal.saggar remoteSignal.addr 4 = true ∧
    remoteWord (inbound remoteSignal { : Links }) remoteSignal.saggar remoteSignal.addr = some 64 :=
  by and_intros <;> first | decide +kernel | rfl

def acked : State := { inbound { packet with kind := 3, tag := 9 } {} with wheels := [(191, { crews := [(63, lone [])], eng := { copies := [{ aPut with sent := some 1 }] } })] }
def acknowledgement : Packet := { packet with kind := 3, tag := 9 }
def sentPut : Copy := { aPut with sent := some 1 }
theorem witness_GuildsComplete_ack :
    memRuns acked = true ∧ acked.link.inbound.find 9 = some (0, acknowledgement) ∧
    settled acked acknowledgement.saggar acknowledgement.addr (max 4 acknowledgement.data.length) = true ∧ acknowledgement.kind = 3 ∧
    acknowledgement.op ≠ 3 ∧ copyOfTag acked acknowledgement.tag = some (191, sentPut) ∧ counterBusy (acked.wheel 191) sentPut = false :=
  by and_intros <;> first | decide +kernel | rfl

/-- A module that serves, with its clocks running. -/
def serving (t : TimeUnit) : State := { hub := { state := .ready }, time := { t with locked := true } }
theorem witness_TimeEvents_lock :
    { hub := { state := ModSt.powering : Hub } : State }.hub.state = ModSt.powering ∧
    { hub := { state := ModSt.powering : Hub } : State }.time.locked = false :=
  by and_intros <;> first | decide +kernel | rfl

theorem witness_TimeEvents_refLoss :
    (serving { refPresent := true : TimeUnit }).time.locked = true ∧ (serving { refPresent := true : TimeUnit }).time.holdover = false :=
  by and_intros <;> first | decide +kernel | rfl

theorem witness_TimeEvents_refLate :
    (serving { gts := 400001, holdover := true : TimeUnit }).time.locked = true ∧
    (serving { gts := 400001, holdover := true : TimeUnit }).time.holdover = true ∧
    (serving { gts := 400001, holdover := true : TimeUnit }).time.lostAt + 400000 <
      (serving { gts := 400001, holdover := true : TimeUnit }).gts :=
  by and_intros <;> first | decide +kernel | rfl

theorem witness_TimeEvents_refReturn :
    (serving { gts := 400000, holdover := true, refLoss := 255 : TimeUnit }).time.locked = true ∧
    ((serving { gts := 400000, holdover := true, refLoss := 255 : TimeUnit }).time.holdover = true →
       (serving { gts := 400000, holdover := true, refLoss := 255 : TimeUnit }).gts ≤
         (serving { gts := 400000, holdover := true, refLoss := 255 : TimeUnit }).time.lostAt + 400000) :=
  by and_intros <;> first | decide +kernel | rfl

theorem witness_TimeEvents_holdover :
    (serving { gts := 400001, holdover := true : TimeUnit }).time.locked = true ∧
    (serving { gts := 400001, holdover := true : TimeUnit }).time.holdover = true ∧
    (serving { gts := 400001, holdover := true : TimeUnit }).serving = true :=
  by and_intros <;> first | decide +kernel | rfl

/-- PTP on Ethernet port 7 (link port 31), domain 1, clock 5 the master. -/
def ptp (v : Servo) : State := { serving { mt := 2 ^ 60, servo := { v with master := some 5 } } with
  img := { ptpCfg := 0xA0010007 }, link := { ports := [(31, { st := .on })] } }
def sync (two : Bool) : SyncMsg := { clock := 5, domain := 1, seq := 3, twoStep := two, origin := 2 ^ 60, logInterval := -7 }
theorem witness_TimeEvents_twoStep :
    ptpHears (ptp { : Servo }) (sync true).domain = true ∧ ofMaster (ptp { : Servo }) (sync true).clock = true ∧
    logOk (sync true).logInterval = true ∧ (sync true).twoStep = true :=
  by and_intros <;> first | decide +kernel | rfl

theorem witness_TimeEvents_oneStep :
    ptpHears (ptp { : Servo }) (sync false).domain = true ∧ ofMaster (ptp { : Servo }) (sync false).clock = true ∧
    logOk (sync false).logInterval = true ∧ (sync false).twoStep = false :=
  by and_intros <;> first | decide +kernel | rfl

theorem witness_TimeEvents_followUp :
    ptpHears (ptp { syncPend := some (3, 2 ^ 60) : Servo }) (sync true).domain = true ∧
    ofMaster (ptp { syncPend := some (3, 2 ^ 60) : Servo }) (sync true).clock = true ∧
    (ptp { syncPend := some (3, 2 ^ 60) : Servo }).time.servo.syncPend = some ((sync true).seq, 2 ^ 60) :=
  by and_intros <;> first | decide +kernel | rfl

theorem witness_TimeEvents_delayResp :
    ptpHears (ptp { delayReq := some (3, 9), lastT := some (7, 8) : Servo })
        { clock := 5, domain := 1, seq := 3, receive := 11 : DelayResp }.domain =
      true ∧
    ofMaster (ptp { delayReq := some (3, 9), lastT := some (7, 8) : Servo })
        { clock := 5, domain := 1, seq := 3, receive := 11 : DelayResp }.clock =
      true ∧
    (ptp { delayReq := some (3, 9), lastT := some (7, 8) : Servo }).time.servo.delayReq =
      some ({ clock := 5, domain := 1, seq := 3, receive := 11 : DelayResp }.seq, 9) ∧
    (ptp { delayReq := some (3, 9), lastT := some (7, 8) : Servo }).time.servo.lastT = some (7, 8) :=
  by and_intros <;> first | decide +kernel | rfl

theorem witness_TimeEvents_announce :
    ptpHears (ptp { : Servo })
        { clock := 6, domain := 1, prio1 := 0, cls := 0, accuracy := 0, variance := 0, prio2 := 0, steps := 0 : Announce }.domain =
      true ∧
    (ptp { : Servo }).time.servo.foreign = [] :=
  by and_intros <;> first | decide +kernel | rfl

def unsynced : State := { ptp { state := 2 } with time := { locked := true, watch := tickRate, servo := { state := 2 } } }
theorem witness_TimeEvents_syncTimeout :
    unsynced.serving = true ∧ (unsynced.time.servo.state = 1 ∨ unsynced.time.servo.state = 2) ∧
    unsynced.time.servo.lastSync + tickRate ≤ unsynced.watch :=
  by and_intros <;> first | decide +kernel | rfl

/-- Fifteen edges before this one, 500 ticks apart. -/
def regular : State := serving { gts := 7500, gen := { edges := (List.range 15).map fun k => 7000 - 500 * k } }
theorem witness_TimeEvents_genlock :
    regular.serving = true ∧ regular.time.locked = true ∧ (regular.time.gen.edges = [] ∨ regular.time.gen.edges.headD 0 + 400 ≤ regular.gts) :=
  by and_intros <;> first | decide +kernel | rfl

theorem witness_TimeEvents_genlockLost :
    (serving { watch := 1001, gen := { present := true, period := 500 : Genlock } : TimeUnit }).serving = true ∧
    (serving { watch := 1001, gen := { present := true, period := 500 : Genlock } : TimeUnit }).time.gen.present = true ∧
    (serving { watch := 1001, gen := { present := true, period := 500 : Genlock } : TimeUnit }).time.gen.last +
        2 * BitVec.toNat (serving { watch := 1001, gen := { present := true, period := 500 : Genlock } : TimeUnit }).time.gen.period <
      (serving { watch := 1001, gen := { present := true, period := 500 : Genlock } : TimeUnit }).watch :=
  by and_intros <;> first | decide +kernel | rfl

theorem witness_TimeEvents_second :
    (serving { mt := mtSecond, onSecond := true : TimeUnit }).time.locked = true ∧
    (serving { mt := mtSecond, onSecond := true : TimeUnit }).time.onSecond = true ∧
    mtSecs
        ((serving { mt := mtSecond, onSecond := true : TimeUnit }).time.mt -
          mtStep (serving { mt := mtSecond, onSecond := true : TimeUnit })) ≠
      mtSecs (serving { mt := mtSecond, onSecond := true : TimeUnit }).time.mt :=
  by and_intros <;> first | decide +kernel | rfl

theorem witness_TimeEvents_pairs :
    hostUp (serving { : TimeUnit }) = true :=
  by decide +kernel

theorem witness_TimeEvents_read :
    hostUp (serving { : TimeUnit }) = true :=
  by decide +kernel

def seven := (predSpec (.isetp (ins 6 1 2 0x500000))).get rfl
theorem witness_PredicateSeven :
    31 < 32 ∧ predSpec (Instr.isetp (ins 6 1 2 5242880)) = some (ins 6 1 2 5242880, seven.snd.fst, seven.snd.snd) ∧
    Issues (module two) (ins 6 1 2 5242880) isReady seven.snd.fst two path :=
  ⟨by first | decide +kernel | rfl, rfl, by unfold Issues; and_intros <;> first | decide +kernel | rfl⟩

theorem witness_PredicateSeven_reads :
    31 < 32 :=
  by decide +kernel

theorem witness_PredicateSeven_ignores :
    31 < 32 :=
  by decide +kernel

theorem witness_PredicateSeven_takes :
    31 < 32 ∧ 6 < 7 :=
  by and_intros <;> first | decide +kernel | rfl

theorem witness_PredicateSeven_guards :
    31 < 32 :=
  by decide +kernel

theorem witness_FencedWheelIgnores :
    191 < 192 ∧ ((control { state := UnitSt.fenced : WhlCtl }).wheel 191).ctl.state = UnitSt.fenced :=
  by and_intros <;> first | decide +kernel | rfl

def zeroing : State := { serving {} with ms := { mem := [(65536, 7), (131072, 9)], zeroJobs := [(4, { saggar := 1, frames := [1], fn := 0, req := 1 })] } }
theorem witness_MemoryUnits_zeroed :
    memRuns zeroing = true ∧ zeroing.ms.zeroJobs.find 4 = some { saggar := 1, frames := [1], fn := 0, req := 1 : ZeroJob } ∧
    (∀ (f : Nat), f ∈ { saggar := 1, frames := [1], fn := 0, req := 1 : ZeroJob }.frames → State.reserveFrame f = false) ∧
    (∀ (f : Nat),
       f ∈ { saggar := 1, frames := [1], fn := 0, req := 1 : ZeroJob }.frames →
         ∀ (n : Nat), n ∈ frameExpanders (65536 * f) → (zeroing.grn n).state = UnitSt.on ∨ (zeroing.grn n).state = UnitSt.fenced) :=
  by and_intros <;> first | decide +kernel | rfl

def unmapping : State := { command saggar {} [] with ms := { unmapJobs := [(4, { saggar := 1, vas := [65536], fn := 0, req := 1 })] } }
theorem witness_MemoryUnits_unmapped :
    memRuns unmapping = true ∧ unmapping.ms.unmapJobs.find 4 = some { saggar := 1, vas := [65536], fn := 0, req := 1 : UnmapJob } ∧
    usesLeaf unmapping { saggar := 1, vas := [65536], fn := 0, req := 1 : UnmapJob }.saggar
        (List.filterMap (unmapping.saggar { saggar := 1, vas := [65536], fn := 0, req := 1 : UnmapJob }.saggar).maps.find
          { saggar := 1, vas := [65536], fn := 0, req := 1 : UnmapJob }.vas) =
      false :=
  by and_intros <;> first | decide +kernel | rfl

def limited : State := { serving {} with img := { ceLimit := 1 }, ms := { pcs := [(511, { ceWin := 6 })] } }
theorem witness_MemoryUnits_scrub :
    7 < 8 ∧ limited.serving = true ∧ 511 / 64 = 7 ∧ Tab.get 0 limited.ms.scrubs 7 ≠ limited.gts / 34560000000000 + 1 ∧
    (limited.pc 511).ceWin + 1 < 8 * limited.img.ceLimit :=
  by and_intros <;> first | decide +kernel | rfl

theorem witness_MemoryUnits_clean :
    7 < 8 ∧ limited.serving = true ∧ Tab.get 0 limited.ms.scrubs 7 ≠ limited.gts / 34560000000000 + 1 :=
  by and_intros <;> first | decide +kernel | rfl

def fencingUnits : State := { serving {} with ms := { pcs := [(511, { state := 1 })], slices := [(127, { state := 1 })] } }
theorem witness_MemoryUnits_transfer :
    127 < 128 ∧ fencingUnits.serving = true ∧ (fencingUnits.slice 127).state = 1 ∧ fencingUnits.fen.dies.getLsbD (127 / 64) = false :=
  by and_intros <;> first | decide +kernel | rfl

theorem witness_MemoryUnits_migrated :
    511 < 512 ∧ fencingUnits.serving = true ∧ (fencingUnits.pc 511).state = 1 ∧ fencingUnits.fen.dies.getLsbD (511 / 256) = false :=
  by and_intros <;> first | decide +kernel | rfl

def atWindow : State := { limited with time := { locked := true, watch := 2 ^ 30 } }
theorem witness_MemoryUnits_window :
    unitExists atWindow 2 511 = true ∧ atWindow.serving = true ∧ atWindow.frozen = false ∧ atWindow.watch % 2 ^ 30 = 0 ∧
    Tab.get 0 atWindow.fen.ended (4096 * 2 + 511) ≠ atWindow.watch :=
  by and_intros <;> first | decide +kernel | rfl

def expander (x : GrnPort) : State := { serving {} with ms := { grn := [(3, x)] } }
theorem witness_MemoryUnits_on :
    hasGrn (expander { state := UnitSt.on : GrnPort }) 3 = true ∧ hostUp (expander { state := UnitSt.on : GrnPort }) = true ∧
    ((expander { state := UnitSt.on : GrnPort }).grn 3).state = UnitSt.on :=
  by and_intros <;> first | decide +kernel | rfl

def ownedExpander : State := { expander { state := .on } with ms := { grn := [(3, { state := .on })], frames := [((3 * 2 ^ 40 + 2 ^ 43) / 65536, { st := .owned })] } }
theorem witness_MemoryUnits_refused :
    hasGrn ownedExpander 3 = true ∧ hostUp ownedExpander = true ∧ (ownedExpander.grn 3).state = UnitSt.on ∧ expanderOwned ownedExpander 3 = true :=
  by and_intros <;> first | decide +kernel | rfl

theorem witness_MemoryUnits_disabled :
    hasGrn (expander { state := UnitSt.on : GrnPort }) 3 = true ∧ hostUp (expander { state := UnitSt.on : GrnPort }) = true ∧
    ((expander { state := UnitSt.on : GrnPort }).grn 3).state = UnitSt.on ∧ expanderOwned (expander { state := UnitSt.on : GrnPort }) 3 = false :=
  by and_intros <;> first | decide +kernel | rfl

theorem witness_MemoryUnits_pending :
    hasGrn (expander { state := UnitSt.draining : GrnPort }) 3 = true ∧ hostUp (expander { state := UnitSt.draining : GrnPort }) = true ∧
    ((expander { state := UnitSt.draining : GrnPort }).grn 3).state = UnitSt.draining :=
  by and_intros <;> first | decide +kernel | rfl

theorem witness_MemoryUnits_asked :
    hasGrn (expander { enable := false : GrnPort }) 3 = true ∧ hostUp (expander { enable := false : GrnPort }) = true ∧
    (expander { enable := false : GrnPort }).serving = true ∧ ((expander { enable := false : GrnPort }).grn 3).state = UnitSt.off ∧
    permitOf (expander { enable := false : GrnPort }) 3 (544 + 3) 0 = none :=
  by and_intros <;> first | decide +kernel | rfl

theorem witness_MemoryUnits_drained :
    hasGrn (expander { state := UnitSt.draining : GrnPort }) 3 = true ∧ (expander { state := UnitSt.draining : GrnPort }).serving = true ∧
    ((expander { state := UnitSt.draining : GrnPort }).grn 3).state = UnitSt.draining :=
  by and_intros <;> first | decide +kernel | rfl

def trainingExpander : State := { expander {} with rve := { permits := [(1, { kind := 3, unit := 547, full := 800, held := 800, known := 2 })] } }
theorem witness_MemoryUnits_trained :
    hasGrn trainingExpander 3 = true ∧ trainingExpander.serving = true ∧ (trainingExpander.grn 3).state = UnitSt.off ∧
    (trainingExpander.grn 3).enable = true ∧ leaveKnown trainingExpander 3 (544 + 3) 0 ≠ 0 :=
  by and_intros <;> first | decide +kernel | rfl

theorem witness_MemoryUnits_linkUp :
    hasGrn (expander { state := UnitSt.on, linkUp := true : GrnPort }) 3 = true ∧
    (expander { state := UnitSt.on, linkUp := true : GrnPort }).serving = true ∧
    ((expander { state := UnitSt.on, linkUp := true : GrnPort }).grn 3).linkUp = true :=
  by and_intros <;> first | decide +kernel | rfl

theorem witness_MemoryUnits_linkDown :
    hasGrn (expander { state := UnitSt.on, linkUp := true : GrnPort }) 3 = true ∧
    (expander { state := UnitSt.on, linkUp := true : GrnPort }).serving = true ∧
    ((expander { state := UnitSt.on, linkUp := true : GrnPort }).grn 3).linkUp = true ∧
    down (expander { state := UnitSt.on, linkUp := true : GrnPort }) 10 3 = false :=
  by and_intros <;> first | decide +kernel | rfl

theorem witness_ErrorsAndFences_expander :
    (expander { state := UnitSt.on : GrnPort }).serving = true ∧
    unitExists (expander { state := UnitSt.on : GrnPort }) { kind := 10, index := 3, etype := 1 : ErrReport }.kind
        { kind := 10, index := 3, etype := 1 : ErrReport }.index =
      true ∧
    { kind := 10, index := 3, etype := 1 : ErrReport }.etype = 1 ∧ { kind := 10, index := 3, etype := 1 : ErrReport }.kind = 10 :=
  by and_intros <;> first | decide +kernel | rfl

def slicing : State := { serving {} with ms := { slices := [(127, { ceWin := 126 })] } }
theorem witness_ErrorsAndFences_slice :
    slicing.serving = true ∧
    unitExists slicing { kind := 1, index := 127, etype := 1 : ErrReport }.kind
        { kind := 1, index := 127, etype := 1 : ErrReport }.index =
      true ∧
    { kind := 1, index := 127, etype := 1 : ErrReport }.etype = 1 ∧ { kind := 1, index := 127, etype := 1 : ErrReport }.kind = 1 ∧
    (slicing.slice { kind := 1, index := 127, etype := 1 : ErrReport }.index).ceWin + 1 < 128 :=
  by and_intros <;> first | decide +kernel | rfl

theorem witness_ErrorsAndFences_first :
    (serving { : TimeUnit }).serving = true ∧
    unitExists (serving { : TimeUnit }) { kind := 2, index := 511, etype := 2, addr := 64 : ErrReport }.kind
        { kind := 2, index := 511, etype := 2, addr := 64 : ErrReport }.index =
      true ∧
    { kind := 2, index := 511, etype := 2, addr := 64 : ErrReport }.etype = 2 ∧
    { kind := 2, index := 511, etype := 2, addr := 64 : ErrReport }.kind = 2 ∧
    ((serving { : TimeUnit }).pc { kind := 2, index := 511, etype := 2, addr := 64 : ErrReport }.index).ueWin = 0 :=
  by and_intros <;> first | decide +kernel | rfl

def channel : State := { serving {} with ms := { pcs := [(511, { ueWin := 1 })] } }
theorem witness_ErrorsAndFences_second :
    channel.serving = true ∧
    unitExists channel { kind := 2, index := 511, etype := 2, addr := 64 : ErrReport }.kind
        { kind := 2, index := 511, etype := 2, addr := 64 : ErrReport }.index =
      true ∧
    { kind := 2, index := 511, etype := 2, addr := 64 : ErrReport }.etype = 2 ∧
    { kind := 2, index := 511, etype := 2, addr := 64 : ErrReport }.kind = 2 ∧
    1 ≤ (channel.pc { kind := 2, index := 511, etype := 2, addr := 64 : ErrReport }.index).ueWin ∧
    down channel 2 { kind := 2, index := 511, etype := 2, addr := 64 : ErrReport }.index = false ∧
    (channel.stack ({ kind := 2, index := 511, etype := 2, addr := 64 : ErrReport }.index / 64)).spareUsed = false :=
  by and_intros <;> first | decide +kernel | rfl

theorem witness_ErrorsAndFences_power :
    (serving { : TimeUnit }).serving = true ∧
    unitExists (serving { : TimeUnit }) { kind := 12, index := 0, etype := 12 : ErrReport }.kind
        { kind := 12, index := 0, etype := 12 : ErrReport }.index =
      true ∧
    { kind := 12, index := 0, etype := 12 : ErrReport }.etype = 12 ∧ { kind := 12, index := 0, etype := 12 : ErrReport }.kind = 12 :=
  by and_intros <;> first | decide +kernel | rfl

theorem witness_ErrorsAndFences_clock :
    (serving { : TimeUnit }).serving = true ∧
    unitExists (serving { : TimeUnit }) { kind := 12, index := 0, etype := 13 : ErrReport }.kind
        { kind := 12, index := 0, etype := 13 : ErrReport }.index =
      true ∧
    { kind := 12, index := 0, etype := 13 : ErrReport }.etype = 13 ∧ { kind := 12, index := 0, etype := 13 : ErrReport }.kind = 12 :=
  by and_intros <;> first | decide +kernel | rfl

def fenceJob (k n : Nat) : FenceJob := { kind := k, index := n, etype := 4 }
def jobOf (j : FenceJob) : State := { serving {} with fen := { jobs := [(4, j)], dies := if j.kind = 4 then 2 else 0 } }
theorem witness_ErrorsAndFences_complete :
    (jobOf (fenceJob 10 3)).serving = true ∧ (jobOf (fenceJob 10 3)).fen.jobs.find 4 = some (fenceJob 10 3) ∧
    ((fenceJob 10 3).kind = 7 ∨ (fenceJob 10 3).kind = 8 ∨ (fenceJob 10 3).kind = 9 ∨ (fenceJob 10 3).kind = 10) ∧
    (jobOf (fenceJob 10 3)).fen.recs.contains ((fenceJob 10 3).kind, (fenceJob 10 3).index, false) = false :=
  by and_intros <;> first | decide +kernel | rfl

def fencingWheel : State := { control { state := .fenced } with fen := { jobs := [(4, fenceJob 0 191)] } }
theorem witness_ErrorsAndFences_wheel :
    fencingWheel.serving = true ∧ fencingWheel.fen.jobs.find 4 = some (fenceJob 0 191) ∧ (fenceJob 0 191).kind = 0 ∧
    (fenceJob 0 191).index < 192 ∧ fencing fencingWheel 4 ((fenceJob 0 191).index / 96) = false ∧
    fencingWheel.fen.recs.contains (0, (fenceJob 0 191).index, false) = false ∧ (fencingWheel.wheel (fenceJob 0 191).index).mem.store = [] ∧
    (fencingWheel.wheel (fenceJob 0 191).index).ctl.state = UnitSt.fenced :=
  by and_intros <;> first | decide +kernel | rfl

theorem witness_ErrorsAndFences_die :
    (jobOf (fenceJob 4 1)).serving = true ∧ (jobOf (fenceJob 4 1)).fen.jobs.find 4 = some (fenceJob 4 1) ∧ (fenceJob 4 1).kind = 4 :=
  by and_intros <;> first | decide +kernel | rfl

def recovering : State := { control { state := .fenced } with fen := { recs := [(0, 191, true)] } }
/-- A request to recover wheel 191. -/
def wheel191 : Word := 191
theorem witness_ErrorsAndFences_runs :
    recovering.serving = true ∧ hostUp recovering = true ∧
    ((recovering.fen.recs.any fun e => e.fst == bits (BitVec.toNat wheel191) 28 4 && e.snd.fst == bits (BitVec.toNat wheel191) 0 12) =
       true) :=
  by and_intros <;> first | decide +kernel | rfl

theorem witness_ErrorsAndFences_wrong :
    (control { : WhlCtl }).serving = true ∧ hostUp (control { : WhlCtl }) = true ∧
    (((control { : WhlCtl }).fen.recs.any fun e =>
         e.fst == bits (BitVec.toNat wheel191) 28 4 && e.snd.fst == bits (BitVec.toNat wheel191) 0 12) =
       false) ∧
    (bits (BitVec.toNat wheel191) 28 4 = 0 ∨
       bits (BitVec.toNat wheel191) 28 4 = 7 ∨
         bits (BitVec.toNat wheel191) 28 4 = 8 ∨ bits (BitVec.toNat wheel191) 28 4 = 9 ∨ bits (BitVec.toNat wheel191) 28 4 = 10) ∧
    (unitExists (control { : WhlCtl }) (bits (BitVec.toNat wheel191) 28 4) (bits (BitVec.toNat wheel191) 0 12) = false ∨
       Machine.fenced (control { : WhlCtl }) (bits (BitVec.toNat wheel191) 28 4) (bits (BitVec.toNat wheel191) 0 12) = false ∧
         fencing (control { : WhlCtl }) (bits (BitVec.toNat wheel191) 28 4) (bits (BitVec.toNat wheel191) 0 12) = false) :=
  by and_intros <;> first | decide +kernel | rfl

theorem witness_ErrorsAndFences_absent :
    (control { : WhlCtl }).serving = true ∧ hostUp (control { : WhlCtl }) = true ∧
    (((control { : WhlCtl }).fen.recs.any fun e =>
         e.fst == bits 192 28 4 && e.snd.fst == bits 192 0 12) =
       false) ∧
    (bits 192 28 4 = 0 ∨
       bits 192 28 4 = 7 ∨
         bits 192 28 4 = 8 ∨ bits 192 28 4 = 9 ∨ bits 192 28 4 = 10) ∧
    (unitExists (control { : WhlCtl }) (bits 192 28 4) (bits 192 0 12) = false ∨
       Machine.fenced (control { : WhlCtl }) (bits 192 28 4) (bits 192 0 12) = false ∧
         fencing (control { : WhlCtl }) (bits 192 28 4) (bits 192 0 12) = false) :=
  by and_intros <;> first | decide +kernel | rfl

theorem witness_ErrorsAndFences_kind :
    (control { : WhlCtl }).serving = true ∧ hostUp (control { : WhlCtl }) = true ∧
    (((control { : WhlCtl }).fen.recs.any fun e =>
         e.fst == bits 268435456 28 4 && e.snd.fst == bits 268435456 0 12) =
       false) ∧
    (¬(bits 268435456 28 4 = 0 ∨
         bits 268435456 28 4 = 7 ∨
           bits 268435456 28 4 = 8 ∨ bits 268435456 28 4 = 9 ∨ bits 268435456 28 4 = 10)) :=
  by and_intros <;> first | decide +kernel | rfl

theorem witness_ErrorsAndFences_still :
    fencingWheel.serving = true ∧ hostUp fencingWheel = true ∧
    ((fencingWheel.fen.recs.any fun e =>
         e.fst == bits (BitVec.toNat wheel191) 28 4 && e.snd.fst == bits (BitVec.toNat wheel191) 0 12) =
       false) ∧
    (bits (BitVec.toNat wheel191) 28 4 = 0 ∨
       bits (BitVec.toNat wheel191) 28 4 = 7 ∨
         bits (BitVec.toNat wheel191) 28 4 = 8 ∨ bits (BitVec.toNat wheel191) 28 4 = 9 ∨ bits (BitVec.toNat wheel191) 28 4 = 10) ∧
    unitExists fencingWheel (bits (BitVec.toNat wheel191) 28 4) (bits (BitVec.toNat wheel191) 0 12) = true ∧
    fencing fencingWheel (bits (BitVec.toNat wheel191) 28 4) (bits (BitVec.toNat wheel191) 0 12) = true :=
  by and_intros <;> first | decide +kernel | rfl

theorem witness_ErrorsAndFences_recover :
    (control { state := UnitSt.fenced : WhlCtl }).serving = true ∧ hostUp (control { state := UnitSt.fenced : WhlCtl }) = true ∧
    (((control { state := UnitSt.fenced : WhlCtl }).fen.recs.any fun e =>
         e.fst == bits (BitVec.toNat wheel191) 28 4 && e.snd.fst == bits (BitVec.toNat wheel191) 0 12) =
       false) ∧
    (bits (BitVec.toNat wheel191) 28 4 = 0 ∨ bits (BitVec.toNat wheel191) 28 4 = 7) ∧
    unitExists (control { state := UnitSt.fenced : WhlCtl }) (bits (BitVec.toNat wheel191) 28 4) (bits (BitVec.toNat wheel191) 0 12) =
      true ∧
    Machine.fenced (control { state := UnitSt.fenced : WhlCtl }) (bits (BitVec.toNat wheel191) 28 4)
        (bits (BitVec.toNat wheel191) 0 12) =
      true ∧
    fencing (control { state := UnitSt.fenced : WhlCtl }) (bits (BitVec.toNat wheel191) 28 4) (bits (BitVec.toNat wheel191) 0 12) =
      false :=
  by and_intros <;> first | decide +kernel | rfl

theorem witness_ErrorsAndFences_recovered :
    recovering.serving = true ∧ recovering.present 191 = true ∧ recovering.fen.recs.contains (0, 191, true) = true ∧
    Machine.fenced recovering 0 191 = true ∧ recovering.fen.dies.getLsbD (191 / 96) = false :=
  by and_intros <;> first | decide +kernel | rfl

/-- A leaf of each size, at the bottom and near the top of the pointer's 57 bits. -/
def leaves : Tab Mapping :=
  [(65536, { page with pa := 0x20000, home := 3 }), (2 ^ 21, { page with size := 2 ^ 21, pa := 2 ^ 22, write := false }), (2 ^ 57 - 2 ^ 30, { page with size := 2 ^ 30, pa := 2 ^ 48 - 2 ^ 30, exec := false })]
def walking : State := command { saggar with maps := leaves } {} []
theorem witness_TranslationWalks_walk :
    LeavesOk (walking.saggar 1).maps :=
  by unfold LeavesOk LeafOk; and_intros <;> first | decide +kernel | rfl

theorem witness_TranslationWalks_unmapped :
    LeavesOk (walking.saggar 1).maps :=
  by unfold LeavesOk LeafOk; and_intros <;> first | decide +kernel | rfl

theorem witness_TranslationWalks_leaf :
    LeavesOk (walking.saggar 1).maps ∧
    (walking.saggar 1).maps.find (1 * 2 ^ levelShift 1) =
      some { size := 2 ^ 21, pa := 2 ^ 22, exec := page.exec, home := page.home, going := page.going : Mapping } ∧
    1 < 3 ∧ { size := 2 ^ 21, pa := 2 ^ 22, exec := page.exec, home := page.home, going := page.going : Mapping }.size = 2 ^ levelShift 1 :=
  by unfold LeavesOk LeafOk; and_intros <;> first | decide +kernel | rfl

theorem witness_TranslationWalks_wheel :
    191 < 192 ∧
    mappingOf (walking.saggar 1).maps 65540 =
      some
        (65536, { size := page.size, pa := 131072, write := page.write, exec := page.exec, home := 3, going := page.going : Mapping }) :=
  by and_intros <;> first | decide +kernel | rfl

theorem witness_TranslationWalks_first :
    191 < 192 ∧
    mappingOf (walking.saggar 1).maps 65540 =
      some
        (65536, { size := page.size, pa := 131072, write := page.write, exec := page.exec, home := 3, going := page.going : Mapping }) :=
  by and_intros <;> first | decide +kernel | rfl

theorem witness_TranslationWalks_bound :
    191 < 192 ∧
    mappingOf (walking.saggar 1).maps 65540 =
      some
        (65536, { size := page.size, pa := 131072, write := page.write, exec := page.exec, home := 3, going := page.going : Mapping }) :=
  by and_intros <;> first | decide +kernel | rfl

def known : State := { walking with wheels := [(191, { mem := { tlb := [{ saggar := 1, base := 65536 }] } })] }
theorem witness_TranslationWalks_hit :
    191 < 192 ∧
    mappingOf (known.saggar 1).maps 65540 =
      some
        (65536, { size := page.size, pa := 131072, write := page.write, exec := page.exec, home := 3, going := page.going : Mapping }) ∧
    { saggar := 1, base := 65536 : Xlat } ∈ (known.wheel 191).mem.tlb :=
  by and_intros <;> first | decide +kernel | rfl

theorem witness_TranslationWalks_miss :
    191 < 192 ∧
    mappingOf (walking.saggar 1).maps 65540 =
      some
        (65536, { size := page.size, pa := 131072, write := page.write, exec := page.exec, home := 3, going := page.going : Mapping }) ∧
    (¬{ saggar := 1, base := 65536 : Xlat } ∈ (walking.wheel 191).mem.tlb) :=
  by and_intros <;> first | decide +kernel | rfl

theorem witness_TranslationWalks_hub :
    mappingOf (walking.saggar 1).maps (2 ^ 57 - 1) =
      some
        (2 ^ 57 - 2 ^ 30,
          { size := 2 ^ 30, pa := 2 ^ 48 - 2 ^ 30, write := page.write, home := page.home, going := page.going : Mapping }) :=
  by decide +kernel

/-- Flow 7 as the image defines it: 24 frames a second, 1080 lines, Ethernet port 7; E is 2000 ticks after its edge, D 500 before E.
Reservation 15 belongs to it. -/
def flowBytes : List Byte := leBytes 4 0x81070000 ++ leBytes 4 2000 ++ leBytes 4 500
def framing (x : Flow) (t : TimeUnit) : State :=
  { serving t with
    img := { flows := List.replicate 7 [] ++ [flowBytes], res := List.replicate 15 [] ++ [leBytes 4 0xF8000000 ++ leBytes 8 0 ++ leBytes 24 (2 ^ 191)] }
    front := { saggars := [(1, { saggar with st := .on })] }
    link := { ports := [(31, { st := .on })] }
    frm := { flows := [(7, x)] } }
def bound : FlowBind := { saggar := 1, base := 0, nbuf := 2, bufStride := 0, lineStride := 4800, ready := 64, free := 128 }
theorem witness_FlowsAndWindows_enable :
    7 < 8 ∧ (framing { bind := some bound : Flow } { : TimeUnit }).serving = true ∧
    (framing { bind := some bound : Flow } { : TimeUnit }).frozen = false ∧
    hasFrames (framing { bind := some bound : Flow } { : TimeUnit }) = true ∧
    ((framing { bind := some bound : Flow } { : TimeUnit }).flow 7).st = 0 :=
  by and_intros <;> first | decide +kernel | rfl

theorem witness_FlowsAndWindows_pending :
    7 < 8 ∧ (framing { st := 2 : Flow } { : TimeUnit }).serving = true ∧ (framing { st := 2 : Flow } { : TimeUnit }).frozen = false ∧
    hasFrames (framing { st := 2 : Flow } { : TimeUnit }) = true ∧ ((framing { st := 2 : Flow } { : TimeUnit }).flow 7).st = 2 :=
  by and_intros <;> first | decide +kernel | rfl

theorem witness_FlowsAndWindows_disable :
    7 < 8 ∧ (framing { st := 1 : Flow } { : TimeUnit }).serving = true ∧ (framing { st := 1 : Flow } { : TimeUnit }).frozen = false ∧
    hasFrames (framing { st := 1 : Flow } { : TimeUnit }) = true :=
  by and_intros <;> first | decide +kernel | rfl

theorem witness_FlowsAndWindows_drained :
    7 < 8 ∧ (framing { st := 2 : Flow } { : TimeUnit }).serving = true ∧ (framing { st := 2 : Flow } { : TimeUnit }).frozen = false ∧
    ((framing { st := 2 : Flow } { : TimeUnit }).flow 7).st = 2 ∧ ((framing { st := 2 : Flow } { : TimeUnit }).flow 7).emission = none ∧
    (∀ (q : Nat), q ∈ resOf (framing { st := 2 : Flow } { : TimeUnit }) 7 → ((framing { st := 2 : Flow } { : TimeUnit }).resv q).st = 0) :=
  by and_intros <;> first | decide +kernel | rfl

def twoSeconds : TimeUnit := { gts := 800000000, mt := 2 * mtSecond }
theorem witness_FlowsAndWindows_edge :
    7 < 8 ∧ (framing { st := 1, j := 24 : Flow } twoSeconds).serving = true ∧ (framing { st := 1, j := 24 : Flow } twoSeconds).frozen = false ∧
    ((framing { st := 1, j := 24 : Flow } twoSeconds).flow 7).st = 1 ∧ timeSource (framing { st := 1, j := 24 : Flow } twoSeconds) ≠ 2 ∧
    pointReached (framing { st := 1, j := 24 : Flow } twoSeconds) (flowRate (framing { st := 1, j := 24 : Flow } twoSeconds) 7)
        ((framing { st := 1, j := 24 : Flow } twoSeconds).flow 7).j =
      true ∧
    (if ((framing { st := 1, j := 24 : Flow } twoSeconds).flow 7).started = true then
       atLeastP (flowRate (framing { st := 1, j := 24 : Flow } twoSeconds) 7)
           (pointTick (framing { st := 1, j := 24 : Flow } twoSeconds) (flowRate (framing { st := 1, j := 24 : Flow } twoSeconds) 7)
               ((framing { st := 1, j := 24 : Flow } twoSeconds).flow 7).j -
             BitVec.toNat ((framing { st := 1, j := 24 : Flow } twoSeconds).flow 7).edgeGts)
           1 2 =
         true
     else
       atLeastP (flowRate (framing { st := 1, j := 24 : Flow } twoSeconds) 7)
           (pointTick (framing { st := 1, j := 24 : Flow } twoSeconds) (flowRate (framing { st := 1, j := 24 : Flow } twoSeconds) 7)
               ((framing { st := 1, j := 24 : Flow } twoSeconds).flow 7).j -
             ((framing { st := 1, j := 24 : Flow } twoSeconds).flow 7).since)
           1 1 =
         true) :=
  by and_intros <;> first | decide +kernel | rfl

theorem witness_FlowsAndWindows_skipped :
    7 < 8 ∧ (framing { st := 1, edgeGts := 399999999, started := true, j := 24 : Flow } twoSeconds).serving = true ∧
    (framing { st := 1, edgeGts := 399999999, started := true, j := 24 : Flow } twoSeconds).frozen = false ∧
    ((framing { st := 1, edgeGts := 399999999, started := true, j := 24 : Flow } twoSeconds).flow 7).st = 1 ∧
    timeSource (framing { st := 1, edgeGts := 399999999, started := true, j := 24 : Flow } twoSeconds) ≠ 2 ∧
    pointReached (framing { st := 1, edgeGts := 399999999, started := true, j := 24 : Flow } twoSeconds)
        (flowRate (framing { st := 1, edgeGts := 399999999, started := true, j := 24 : Flow } twoSeconds) 7)
        ((framing { st := 1, edgeGts := 399999999, started := true, j := 24 : Flow } twoSeconds).flow 7).j =
      true ∧
    ((framing { st := 1, edgeGts := 399999999, started := true, j := 24 : Flow } twoSeconds).flow 7).started = true ∧
    atLeastP (flowRate (framing { st := 1, edgeGts := 399999999, started := true, j := 24 : Flow } twoSeconds) 7)
        (pointTick (framing { st := 1, edgeGts := 399999999, started := true, j := 24 : Flow } twoSeconds)
            (flowRate (framing { st := 1, edgeGts := 399999999, started := true, j := 24 : Flow } twoSeconds) 7)
            ((framing { st := 1, edgeGts := 399999999, started := true, j := 24 : Flow } twoSeconds).flow 7).j -
          BitVec.toNat ((framing { st := 1, edgeGts := 399999999, started := true, j := 24 : Flow } twoSeconds).flow 7).edgeGts)
        1 2 =
      false :=
  by and_intros <;> first | decide +kernel | rfl

def flywheeling : State := { framing { st := 1, started := true, edgeGts := 100 } { gts := 600, gen := { period := 500 } } with img := { (framing {} {}).img with ptpCfg := 0x40000000 } }
theorem witness_FlowsAndWindows_flywheel :
    7 < 8 ∧ flywheeling.serving = true ∧ flywheeling.frozen = false ∧ (flywheeling.flow 7).st = 1 ∧ timeSource flywheeling = 2 ∧
    flywheeling.time.gen.present = false ∧ flywheeling.time.gen.period ≠ 0 ∧ (flywheeling.flow 7).started = true ∧
    max (BitVec.toNat (flywheeling.flow 7).edgeGts) (flywheeling.flow 7).usedGen + BitVec.toNat flywheeling.time.gen.period ≤
      flywheeling.gts :=
  by and_intros <;> first | decide +kernel | rfl

def edge7 : FEdge := { n := 5, gts := 100, d := 1600, e := 2100, rtp := 0 }
def ready (v : Nat) : State := { framing { st := 1, bind := some bound, edges := [edge7], m := some 4 } { gts := 1600 } with ms := { mem := [(64, BitVec.ofNat 8 v)] } }
theorem witness_FlowsAndWindows_ready :
    7 < 8 ∧ (ready 5).serving = true ∧ (ready 5).frozen = false ∧ ((ready 5).flow 7).st = 1 ∧ ((ready 5).flow 7).bind = some bound ∧
    (List.find? (fun e => !e.checked) ((ready 5).flow 7).edges = some edge7) ∧ edge7.d ≤ (ready 5).gts ∧ ((ready 5).flow 7).emission = none ∧
    stillEmitting (ready 5) 7 ((ready 5).flow 7) edge7 = false ∧ reached (edge7.ready.getD (readyWord (ready 5) bound)) edge7.n = true :=
  by and_intros <;> first | decide +kernel | rfl

theorem witness_FlowsAndWindows_missed :
    7 < 8 ∧ (ready 4).serving = true ∧ (ready 4).frozen = false ∧ ((ready 4).flow 7).st = 1 ∧ ((ready 4).flow 7).bind = some bound ∧
    (List.find? (fun e => !e.checked) ((ready 4).flow 7).edges = some edge7) ∧ edge7.d ≤ (ready 4).gts ∧ ((ready 4).flow 7).emission = none ∧
    stillEmitting (ready 4) 7 ((ready 4).flow 7) edge7 = false ∧ reached (edge7.ready.getD (readyWord (ready 4) bound)) edge7.n = false ∧
    ((ready 4).flow 7).m = some 4 ∧ edge7.ready.getD (readyWord (ready 4) bound) = 4 :=
  by and_intros <;> first | decide +kernel | rfl

def checked (f : Option Word) (m : Option Emission) : State :=
  { framing { st := 1, bind := some bound, edges := [{ edge7 with checked := true, frame := f }], emission := m } { gts := 2100 } with
    rve := { permits := [(1, { kind := 5, unit := 543, full := 40, held := 40, known := 2 })] } }
theorem witness_FlowsAndWindows_nothing :
    7 < 8 ∧ (checked none none).serving = true ∧ (checked none none).frozen = false ∧ ((checked none none).flow 7).st = 1 ∧
    ((checked none none).flow 7).bind = some bound ∧
    ((checked none none).flow 7).edges.head? =
      some
        { n := edge7.n, gts := edge7.gts, d := edge7.d, e := edge7.e, rtp := edge7.rtp, checked := true, ready := edge7.ready,
          frame := edge7.frame, skip := edge7.skip : FEdge } ∧
    { n := edge7.n, gts := edge7.gts, d := edge7.d, e := edge7.e, rtp := edge7.rtp, checked := true, ready := edge7.ready,
          frame := edge7.frame, skip := edge7.skip : FEdge }.e ≤
      (checked none none).gts ∧
    { n := edge7.n, gts := edge7.gts, d := edge7.d, e := edge7.e, rtp := edge7.rtp, checked := true, ready := edge7.ready,
          frame := edge7.frame, skip := edge7.skip : FEdge }.checked =
      true ∧
    { n := edge7.n, gts := edge7.gts, d := edge7.d, e := edge7.e, rtp := edge7.rtp, checked := true, ready := edge7.ready,
          frame := edge7.frame, skip := edge7.skip : FEdge }.skip =
      false ∧
    { n := edge7.n, gts := edge7.gts, d := edge7.d, e := edge7.e, rtp := edge7.rtp, checked := true, ready := edge7.ready,
          frame := edge7.frame, skip := edge7.skip : FEdge }.frame =
      none :=
  by and_intros <;> first | decide +kernel | rfl

def readyEdge : FEdge := { edge7 with checked := true, frame := some 5 }
theorem witness_FlowsAndWindows_emits :
    7 < 8 ∧ (checked (some 5) none).serving = true ∧ (checked (some 5) none).frozen = false ∧ ((checked (some 5) none).flow 7).st = 1 ∧
    ((checked (some 5) none).flow 7).bind = some bound ∧ ((checked (some 5) none).flow 7).edges.head? = some readyEdge ∧
    readyEdge.e ≤ (checked (some 5) none).gts ∧ readyEdge.checked = true ∧ readyEdge.skip = false ∧ readyEdge.frame = some 5 ∧
    ((checked (some 5) none).flow 7).emission = none ∧ leaveKnown (checked (some 5) none) 5 (536 + 7) 0 ≠ 0 :=
  by and_intros <;> first | decide +kernel | rfl

def emission : Emission := { n := 4, frame := 4, rtp := 0, e := 100 }
def skipping : State := framing { st := 1, bind := some bound, emission := some emission, edges := [edge7] } { gts := 1600 }
theorem witness_FlowsAndWindows_still :
    7 < 8 ∧ skipping.serving = true ∧ skipping.frozen = false ∧ (skipping.flow 7).st = 1 ∧ (skipping.flow 7).bind = some bound ∧
    (List.find? (fun e => !e.checked) (skipping.flow 7).edges = some edge7) ∧ edge7.d ≤ skipping.gts ∧
    stillEmitting skipping 7 (skipping.flow 7) edge7 = true :=
  by and_intros <;> first | decide +kernel | rfl

def skippedEdge : FEdge := { edge7 with checked := true, skip := true }
def busyFlow : State := framing { st := 1, bind := some bound, emission := some emission, edges := [skippedEdge] } { gts := 2100 }
theorem witness_FlowsAndWindows_busy :
    7 < 8 ∧ busyFlow.serving = true ∧ busyFlow.frozen = false ∧ (busyFlow.flow 7).st = 1 ∧ (busyFlow.flow 7).bind = some bound ∧
    (busyFlow.flow 7).edges.head? = some skippedEdge ∧ skippedEdge.e ≤ busyFlow.gts ∧ skippedEdge.checked = true ∧ skippedEdge.skip = true :=
  by and_intros <;> first | decide +kernel | rfl

theorem witness_FlowsAndWindows_packet :
    7 < 8 ∧ (checked none (some emission)).serving = true ∧ (checked none (some emission)).frozen = false ∧
    ((checked none (some emission)).flow 7).bind = some bound ∧ ((checked none (some emission)).flow 7).emission = some emission ∧
    emission.k < flowPackets (checked none (some emission)) 7 ∧
    packetTick (checked none (some emission)) 7 emission.e emission.k ≤ (checked none (some emission)).gts ∧
    lineFree (checked none (some emission)) 7 bound emission = true :=
  by and_intros <;> first | decide +kernel | rfl

def lastPacket : Emission := { emission with k := 4320 }
def sent : State := framing { st := 1, bind := some bound, emission := some lastPacket } { gts := 20000000 }
theorem witness_FlowsAndWindows_emitted :
    7 < 8 ∧ sent.serving = true ∧ sent.frozen = false ∧ (sent.flow 7).bind = some bound ∧ (sent.flow 7).emission = some lastPacket ∧
    flowPackets sent 7 ≤ lastPacket.k ∧ emissionEndTick sent 7 lastPacket.e ≤ sent.gts ∧ (sent.flow 7).freeDue = none :=
  by and_intros <;> first | decide +kernel | rfl

def freeing : State := { framing { st := 1, bind := some bound, emission := some lastPacket, freeDue := some 5 } { gts := 20000000 } with ms := { mem := [(128, 1)] } }
theorem witness_FlowsAndWindows_frees :
    7 < 8 ∧ freeing.serving = true ∧ freeing.frozen = false ∧ (freeing.flow 7).bind = some bound ∧ (freeing.flow 7).emission = some lastPacket ∧
    flowPackets freeing 7 ≤ lastPacket.k ∧ emissionEndTick freeing 7 lastPacket.e ≤ freeing.gts ∧ (freeing.flow 7).freeDue = some 5 ∧
    settled freeing bound.saggar bound.free 4 = true ∧ translate freeing bound.saggar bound.free = some (128, page) ∧ page.write = true ∧
    poisoned freeing 128 = false :=
  by and_intros <;> first | decide +kernel | rfl

def window : ResWin := { n := 5, s := 8000, e := 9000 }
def reserving (gts : DWord) (r : Resv) (ctl : WhlCtl) : State :=
  let s := framing { st := 1, bind := some bound } { gts }
  { s with frm := { s.frm with res := [(15, r)] }, wheels := [(191, { ctl, work := { deque := [{ launch := 3, first := 0, count := 1 }] } })] }
theorem witness_FlowsAndWindows_wake :
    7 < 8 ∧ (reserving 0 { due := [window] : Resv } { gated := true, stopGts := some 0 : WhlCtl }).serving = true ∧
    (reserving 0 { due := [window] : Resv } { gated := true, stopGts := some 0 : WhlCtl }).frozen = false ∧ 15 < 16 ∧
    resFlow (reserving 0 { due := [window] : Resv } { gated := true, stopGts := some 0 : WhlCtl }) 15 = 7 ∧
    nextWindow (reserving 0 { due := [window] : Resv } { gated := true, stopGts := some 0 : WhlCtl }) 15 = some window ∧
    ((reserving 0 { due := [window] : Resv } { gated := true, stopGts := some 0 : WhlCtl }).flow 7).st = 1 ∧
    window.s ≤ (reserving 0 { due := [window] : Resv } { gated := true, stopGts := some 0 : WhlCtl }).gts + 8000 :=
  by and_intros <;> first | decide +kernel | rfl

theorem witness_FlowsAndWindows_opens :
    7 < 8 ∧ (reserving 8999 { due := [window] : Resv } { : WhlCtl }).serving = true ∧
    (reserving 8999 { due := [window] : Resv } { : WhlCtl }).frozen = false ∧ 15 < 16 ∧
    resFlow (reserving 8999 { due := [window] : Resv } { : WhlCtl }) 15 = 7 ∧
    nextWindow (reserving 8999 { due := [window] : Resv } { : WhlCtl }) 15 = some window ∧
    ((reserving 8999 { due := [window] : Resv } { : WhlCtl }).flow 7).st = 1 ∧
    ((reserving 8999 { due := [window] : Resv } { : WhlCtl }).flow 7).bind = some bound ∧
    window.s ≤ (reserving 8999 { due := [window] : Resv } { : WhlCtl }).gts ∧
    (reserving 8999 { due := [window] : Resv } { : WhlCtl }).gts < window.e ∧
    ((reserving 8999 { due := [window] : Resv } { : WhlCtl }).resv 15).st = 0 :=
  by and_intros <;> first | decide +kernel | rfl

theorem witness_FlowsAndWindows_closes :
    7 < 8 ∧ (reserving 9000 { st := 2, held := 1, cur := some window : Resv } { resv := some 15 : WhlCtl }).serving = true ∧
    (reserving 9000 { st := 2, held := 1, cur := some window : Resv } { resv := some 15 : WhlCtl }).frozen = false ∧ 15 < 16 ∧
    ((reserving 9000 { st := 2, held := 1, cur := some window : Resv } { resv := some 15 : WhlCtl }).resv 15).cur = some window ∧
    ((reserving 9000 { st := 2, held := 1, cur := some window : Resv } { resv := some 15 : WhlCtl }).resv 15).st ≠ 0 ∧
    window.e ≤ (reserving 9000 { st := 2, held := 1, cur := some window : Resv } { resv := some 15 : WhlCtl }).gts ∧
    (∀ (i : Nat),
       i ∈ heldWheels (reserving 9000 { st := 2, held := 1, cur := some window : Resv } { resv := some 15 : WhlCtl }) 15 →
         deadlineCrews (reserving 9000 { st := 2, held := 1, cur := some window : Resv } { resv := some 15 : WhlCtl }) i = 0) :=
  by and_intros <;> first | decide +kernel | rfl

def overrun : State := { reserving 9000 { st := 2, cur := some window, held := 1 } {} with
  front := { saggars := [(1, saggar)], streams := [(7, { st := 1, saggar := 1, cls := 2 })] }
  wheels := [(191, { ctl := { resv := some 15 }, crews := [(63, lone [])] })] }
theorem witness_FlowsAndWindows_overrun :
    7 < 8 ∧ overrun.serving = true ∧ overrun.frozen = false ∧ 15 < 16 ∧ (overrun.resv 15).cur = some window ∧ (overrun.resv 15).st ≠ 0 ∧
    window.e ≤ overrun.gts ∧ (∃ i, i ∈ heldWheels overrun 15 ∧ deadlineCrews overrun i ≠ 0) ∧ (overrun.resv 15).st ≠ 3 :=
  by and_intros <;> first | decide +kernel | rfl

def early : State := { reserving 8500 { st := 2, cur := some window, held := 1 } { resv := some 15 } with ms := { mem := [(64, 5)] } }
theorem witness_FlowsAndWindows_released :
    7 < 8 ∧ early.serving = true ∧ early.frozen = false ∧ 15 < 16 ∧ (early.resv 15).cur = some window ∧ (early.resv 15).st ≠ 0 ∧
    (early.flow (resFlow early 15)).bind = some bound ∧ resRelease early 15 = true ∧ reached (readyWord early bound) window.n = true :=
  by and_intros <;> first | decide +kernel | rfl

/-- Spanor port 23. -/
def spanor (x : Port) (t : TimeUnit) : State := { serving t with link := { ports := [(23, x)] } }
def sixteen (n : Nat) : List Byte := List.replicate n 0
theorem witness_LinkEvents_bad :
    23 < 24 ∧ portUp ((spanor { st := PortSt.on : Port } { : TimeUnit }).port 23) = true ∧ { crcOk := false : Flit }.crcOk = false ∧
    ((spanor { st := PortSt.on : Port } { : TimeUnit }).port 23).nakSent = false :=
  by and_intros <;> first | decide +kernel | rfl

def aFlit : Flit := { seq := 1, pkts := [{ dest := 0, src := 1, kind := 1, addr := 64 }], corrected := 2 }
theorem witness_LinkEvents_accepted :
    23 < 24 ∧ portUp ((spanor { st := PortSt.on : Port } { : TimeUnit }).port 23) = true ∧ aFlit.crcOk = true ∧ aFlit.type = 1 ∧
    aFlit.nak = false ∧ aFlit.mark = none ∧ aFlit.pkts = [{ dest := 0, src := 1, kind := 1, addr := 64 : Packet }] ∧
    { dest := 0, src := 1, kind := 1, addr := 64 : Packet }.dest = (spanor { st := PortSt.on : Port } { : TimeUnit }).link.fabricId ∧
    (spanor { st := PortSt.on : Port } { : TimeUnit }).frozen = false ∧
    (aFlit.seq + 4096 - ((spanor { st := PortSt.on : Port } { : TimeUnit }).port 23).rxSeq) % 4096 = 1 :=
  by and_intros <;> first | decide +kernel | rfl

theorem witness_LinkEvents_mark :
    23 < 24 ∧ ((spanor { st := PortSt.on : Port } { : TimeUnit }).port 23).st = PortSt.on ∧
    ((spanor { st := PortSt.on : Port } { : TimeUnit }).port 23).retraining = false ∧
    (∀ (m : Nat),
       ((spanor { st := PortSt.on : Port } { : TimeUnit }).port 23).markAt = some m →
         m + 2 ^ 20 ≤ (spanor { st := PortSt.on : Port } { : TimeUnit }).watch) :=
  ⟨by first | decide +kernel | rfl, by first | decide +kernel | rfl, by first | decide +kernel | rfl, nofun⟩

def unacked : Port := { st := .on, kept := [{ seq := 1, gts := 0, pkts := [] }], reps := 14, nextSeq := 2 }
theorem witness_LinkEvents_replay :
    23 < 24 ∧ portUp ((spanor unacked { watch := 2000 : TimeUnit }).port 23) = true ∧
    ((spanor unacked { watch := 2000 : TimeUnit }).port 23).kept ≠ [] ∧
    ((spanor unacked { watch := 2000 : TimeUnit }).port 23).lastAck + 2000 ≤ (spanor unacked { watch := 2000 : TimeUnit }).watch ∧
    ((spanor unacked { watch := 2000 : TimeUnit }).port 23).reps < 15 :=
  by and_intros <;> first | decide +kernel | rfl

theorem witness_LinkEvents_retrain :
    23 < 24 ∧ portUp ((spanor { st := PortSt.on, retrains := 3 : Port } { watch := 40000 : TimeUnit }).port 23) = true ∧
    ((spanor { st := PortSt.on, retrains := 3 : Port } { watch := 40000 : TimeUnit }).port 23).lastGood + 40000 ≤
      (spanor { st := PortSt.on, retrains := 3 : Port } { watch := 40000 : TimeUnit }).watch ∧
    (((spanor { st := PortSt.on, retrains := 3 : Port } { watch := 40000 : TimeUnit }).port 23).window ≠
         (spanor { st := PortSt.on, retrains := 3 : Port } { watch := 40000 : TimeUnit }).gts / 2 ^ 30 ∨
       ((spanor { st := PortSt.on, retrains := 3 : Port } { watch := 40000 : TimeUnit }).port 23).retrains < 4) :=
  by and_intros <;> first | decide +kernel | rfl

theorem witness_LinkEvents_fifth :
    23 < 24 ∧ portUp ((spanor { st := PortSt.on, retrains := 4 : Port } { watch := 40000 : TimeUnit }).port 23) = true ∧
    ((spanor { st := PortSt.on, retrains := 4 : Port } { watch := 40000 : TimeUnit }).port 23).lastGood + 40000 ≤
      (spanor { st := PortSt.on, retrains := 4 : Port } { watch := 40000 : TimeUnit }).watch ∧
    ((spanor { st := PortSt.on, retrains := 4 : Port } { watch := 40000 : TimeUnit }).port 23).window =
      (spanor { st := PortSt.on, retrains := 4 : Port } { watch := 40000 : TimeUnit }).gts / 2 ^ 30 ∧
    4 ≤ ((spanor { st := PortSt.on, retrains := 4 : Port } { watch := 40000 : TimeUnit }).port 23).retrains :=
  by and_intros <;> first | decide +kernel | rfl

theorem witness_LinkEvents_retrained :
    23 < 24 ∧ ((spanor { st := PortSt.on, retraining := true : Port } { : TimeUnit }).port 23).retraining = true :=
  by and_intros <;> first | decide +kernel | rfl

theorem witness_LinkEvents_lost :
    23 < 24 ∧ ((spanor { st := PortSt.on, retraining := true : Port } { : TimeUnit }).port 23).retraining = true :=
  by and_intros <;> first | decide +kernel | rfl

theorem witness_LinkEvents_asks :
    23 < 24 ∧ ((spanor { : Port } { : TimeUnit }).port 23).st = PortSt.off ∧ ((spanor { : Port } { : TimeUnit }).port 23).asked = false ∧
    permitOf (spanor { : Port } { : TimeUnit }) 3 (768 + 23) 0 = none :=
  by and_intros <;> first | decide +kernel | rfl

theorem witness_LinkEvents_pending :
    23 < 24 ∧ ((spanor { st := PortSt.draining : Port } { : TimeUnit }).port 23).st = PortSt.draining :=
  by and_intros <;> first | decide +kernel | rfl

theorem witness_LinkEvents_disable :
    23 < 24 ∧ ((spanor { st := PortSt.on, enable := true : Port } { : TimeUnit }).port 23).st = PortSt.on :=
  by and_intros <;> first | decide +kernel | rfl

theorem witness_LinkEvents_fenced :
    23 < 24 ∧ ((spanor { st := PortSt.fenced : Port } { : TimeUnit }).port 23).st = PortSt.fenced :=
  by and_intros <;> first | decide +kernel | rfl

theorem witness_LinkEvents_trained :
    23 < 24 ∧ ((spanor { st := PortSt.training : Port } { : TimeUnit }).port 23).st = PortSt.training :=
  by and_intros <;> first | decide +kernel | rfl

theorem witness_LinkEvents_untrained :
    23 < 24 ∧ ((spanor { st := PortSt.training : Port } { : TimeUnit }).port 23).st = PortSt.training :=
  by and_intros <;> first | decide +kernel | rfl

def drainingPort : State := spanor { unacked with st := .draining } { watch := 40000 }
theorem witness_LinkEvents_drained :
    23 < 24 ∧ (drainingPort.port 23).st = PortSt.draining ∧
    ((drainingPort.port 23).kept = [] ∨ (drainingPort.port 23).since + 40000 ≤ drainingPort.watch) :=
  by and_intros <;> first | decide +kernel | rfl

def swapping : State := { serving { gts := 9 } with link := { swap := some 9 } }
theorem witness_LinkEvents_swap :
    23 < 24 ∧ swapping.link.swap = some 9 ∧ 9 ≤ swapping.gts :=
  by and_intros <;> first | decide +kernel | rfl

def heard (p : Packet) : State := { command saggar {} [] with link := { guilds := [(5, { saggar := 1, rank := 0, n := 2, members := [0, 2 ^ 48] })], inbound := [(9, (0, p))] } }
theorem witness_LinkEvents_data :
    23 < 24 ∧
    (heard { dest := 0, src := 1, kind := 4, guild := 5 : Packet }).link.inbound.find 9 =
      some (0, { dest := 0, src := 1, kind := 4, guild := 5 : Packet }) ∧
    memRuns (heard { dest := 0, src := 1, kind := 4, guild := 5 : Packet }) = true ∧
    { dest := 0, src := 1, kind := 4, guild := 5 : Packet }.kind = 4 ∧ { dest := 0, src := 1, kind := 4, guild := 5 : Packet }.op ≤ 1 :=
  by and_intros <;> first | decide +kernel | rfl

theorem witness_LinkEvents_check :
    23 < 24 ∧
    (heard { dest := 0, src := 1, kind := 5, guild := 5, count := 1 : Packet }).link.inbound.find 9 =
      some (0, { dest := 0, src := 1, kind := 5, guild := 5, count := 1 : Packet }) ∧
    memRuns (heard { dest := 0, src := 1, kind := 5, guild := 5, count := 1 : Packet }) = true ∧
    { dest := 0, src := 1, kind := 5, guild := 5, count := 1 : Packet }.kind = 5 ∧
    { dest := 0, src := 1, kind := 5, guild := 5, count := 1 : Packet }.count ≤ 1 :=
  by and_intros <;> first | decide +kernel | rfl

theorem witness_LinkEvents_commit :
    23 < 24 ∧
    (heard { dest := 0, src := 1, kind := 5, guild := 5, v := 8, count := 2 : Packet }).link.inbound.find 9 =
      some (0, { dest := 0, src := 1, kind := 5, guild := 5, v := 8, count := 2 : Packet }) ∧
    memRuns (heard { dest := 0, src := 1, kind := 5, guild := 5, v := 8, count := 2 : Packet }) = true ∧
    { dest := 0, src := 1, kind := 5, guild := 5, v := 8, count := 2 : Packet }.kind = 5 ∧
    { dest := 0, src := 1, kind := 5, guild := 5, v := 8, count := 2 : Packet }.count = 2 ∧
    (heard { dest := 0, src := 1, kind := 5, guild := 5, v := 8, count := 2 : Packet }).guild?
        { dest := 0, src := 1, kind := 5, guild := 5, v := 8, count := 2 : Packet }.guild =
      some { saggar := 1, rank := 0, n := 2, members := [0, 2 ^ 48] : Guild } ∧
    ((heard { dest := 0, src := 1, kind := 5, guild := 5, v := 8, count := 2 : Packet }).saggar
            { saggar := 1, rank := 0, n := 2, members := [0, 2 ^ 48] : Guild }.saggar).sec.lost =
      [] :=
  by and_intros <;> first | decide +kernel | rfl

/-- Ethernet port 7 (link port 31) of a module whose ID is 0. -/
def ethernet (p : Port) (c : Tab Conn) (t : TimeUnit) : State := { serving t with link := { ports := [(31, p)], conns := c } }
def datagram : Datagram := { module := 65535, seq := 1, pkt := some { dest := 0, src := 65535, kind := 1, addr := 64 } }
theorem witness_EthernetAndCartridges_bad :
    24 ≤ 31 ∧ 31 < 32 ∧ portUp ((ethernet { st := PortSt.on : Port } [] { : TimeUnit }).port 31) = true ∧
    { module := datagram.module, seq := datagram.seq, ack := datagram.ack, sack := datagram.sack, notice := datagram.notice,
          ce := datagram.ce, fcsOk := false, pkt := datagram.pkt : Datagram }.fcsOk =
      false :=
  by and_intros <;> first | decide +kernel | rfl

theorem witness_EthernetAndCartridges_ack :
    24 ≤ 31 ∧ 31 < 32 ∧
    portUp
        ((ethernet { st := PortSt.on : Port }
              [(65535, { kept := [{ seq := 1, pkt := { dest := 65535, src := 0, kind := 1 : Packet } : Sent }] : Conn })]
              { : TimeUnit }).port
          31) =
      true ∧
    { module := datagram.module, seq := datagram.seq, ack := 1, sack := datagram.sack, notice := true, ce := datagram.ce,
          fcsOk := datagram.fcsOk : Datagram }.fcsOk =
      true ∧
    { module := datagram.module, seq := datagram.seq, ack := 1, sack := datagram.sack, notice := true, ce := datagram.ce,
          fcsOk := datagram.fcsOk : Datagram }.ce =
      false ∧
    { module := datagram.module, seq := datagram.seq, ack := 1, sack := datagram.sack, notice := true, ce := datagram.ce,
          fcsOk := datagram.fcsOk : Datagram }.pkt =
      none :=
  by and_intros <;> first | decide +kernel | rfl

theorem witness_EthernetAndCartridges_datagram :
    24 ≤ 31 ∧ 31 < 32 ∧ portUp ((ethernet { st := PortSt.on : Port } [] { : TimeUnit }).port 31) = true ∧ datagram.fcsOk = true ∧
    datagram.pkt = some { dest := 0, src := 65535, kind := 1, addr := 64 : Packet } ∧
    (connOf (ethernet { st := PortSt.on : Port } [] { : TimeUnit }) datagram.module).stash = [] ∧
    datagram.seq = (connOf (ethernet { st := PortSt.on : Port } [] { : TimeUnit }) datagram.module).rxSeq + 1 ∧
    (ethernet { st := PortSt.on : Port } [] { : TimeUnit }).frozen = false ∧
    { dest := 0, src := 65535, kind := 1, addr := 64 : Packet }.dest =
      (ethernet { st := PortSt.on : Port } [] { : TimeUnit }).link.fabricId :=
  by and_intros <;> first | decide +kernel | rfl

def unansweredD (n : Nat) : Sent := { seq := 1, pkt := { dest := 65535, src := 0, kind := 1 }, sends := n, at_ := 0 }
theorem witness_EthernetAndCartridges_resend :
    65535 < 65536 ∧
    (List.find?
         (fun k =>
           decide
             (k.at_ + resendWait k.sends ≤
               (ethernet { st := PortSt.on : Port } [(65535, { kept := [unansweredD 7] : Conn })]
                   { watch := 1280000 : TimeUnit }).watch))
         (connOf (ethernet { st := PortSt.on : Port } [(65535, { kept := [unansweredD 7] : Conn })] { watch := 1280000 : TimeUnit })
             65535).kept =
       some (unansweredD 7)) ∧
    (unansweredD 7).sends < 8 :=
  by and_intros <;> first | decide +kernel | rfl

theorem witness_EthernetAndCartridges_fails :
    65535 < 65536 ∧
    (List.find?
         (fun k =>
           decide
             (k.at_ + resendWait k.sends ≤
               (ethernet { st := PortSt.on : Port } [(65535, { kept := [unansweredD 8] : Conn })]
                   { watch := 2560000 : TimeUnit }).watch))
         (connOf (ethernet { st := PortSt.on : Port } [(65535, { kept := [unansweredD 8] : Conn })] { watch := 2560000 : TimeUnit })
             65535).kept =
       some (unansweredD 8)) ∧
    8 ≤ (unansweredD 8).sends :=
  by and_intros <;> first | decide +kernel | rfl

theorem witness_EthernetAndCartridges_raise :
    65535 < 65536 ∧
    (connOf (ethernet { st := PortSt.on : Port } [(65535, { rate := 61440, noticed := some 5 : Conn })] { watch := 20005 : TimeUnit })
          65535).noticed =
      some 5 ∧
    5 + 20000 ≤
      (ethernet { st := PortSt.on : Port } [(65535, { rate := 61440, noticed := some 5 : Conn })] { watch := 20005 : TimeUnit }).watch :=
  by and_intros <;> first | decide +kernel | rfl

theorem witness_EthernetAndCartridges_raised :
    65535 < 65536 ∧
    (connOf
          {
            pending :=
              (ethernet { st := PortSt.on : Port } [(65535, { rate := 61440, noticed := some 5 : Conn })]
                  { watch := 20005 : TimeUnit }).pending,
            freeCtr :=
              (ethernet { st := PortSt.on : Port } [(65535, { rate := 61440, noticed := some 5 : Conn })]
                  { watch := 20005 : TimeUnit }).freeCtr,
            nextId :=
              (ethernet { st := PortSt.on : Port } [(65535, { rate := 61440, noticed := some 5 : Conn })]
                  { watch := 20005 : TimeUnit }).nextId,
            outbox :=
              (ethernet { st := PortSt.on : Port } [(65535, { rate := 61440, noticed := some 5 : Conn })]
                  { watch := 20005 : TimeUnit }).outbox,
            fuse :=
              (ethernet { st := PortSt.on : Port } [(65535, { rate := 61440, noticed := some 5 : Conn })]
                  { watch := 20005 : TimeUnit }).fuse,
            hub :=
              (ethernet { st := PortSt.on : Port } [(65535, { rate := 61440, noticed := some 5 : Conn })]
                  { watch := 20005 : TimeUnit }).hub,
            oob :=
              (ethernet { st := PortSt.on : Port } [(65535, { rate := 61440, noticed := some 5 : Conn })]
                  { watch := 20005 : TimeUnit }).oob,
            flash :=
              (ethernet { st := PortSt.on : Port } [(65535, { rate := 61440, noticed := some 5 : Conn })]
                  { watch := 20005 : TimeUnit }).flash,
            time :=
              (ethernet { st := PortSt.on : Port } [(65535, { rate := 61440, noticed := some 5 : Conn })]
                  { watch := 20005 : TimeUnit }).time,
            wheels :=
              (ethernet { st := PortSt.on : Port } [(65535, { rate := 61440, noticed := some 5 : Conn })]
                  { watch := 20005 : TimeUnit }).wheels,
            ms :=
              (ethernet { st := PortSt.on : Port } [(65535, { rate := 61440, noticed := some 5 : Conn })]
                  { watch := 20005 : TimeUnit }).ms,
            crier :=
              (ethernet { st := PortSt.on : Port } [(65535, { rate := 61440, noticed := some 5 : Conn })]
                  { watch := 20005 : TimeUnit }).crier,
            front :=
              (ethernet { st := PortSt.on : Port } [(65535, { rate := 61440, noticed := some 5 : Conn })]
                  { watch := 20005 : TimeUnit }).front,
            rve :=
              (ethernet { st := PortSt.on : Port } [(65535, { rate := 61440, noticed := some 5 : Conn })]
                  { watch := 20005 : TimeUnit }).rve,
            dbg :=
              (ethernet { st := PortSt.on : Port } [(65535, { rate := 61440, noticed := some 5 : Conn })]
                  { watch := 20005 : TimeUnit }).dbg,
            host :=
              (ethernet { st := PortSt.on : Port } [(65535, { rate := 61440, noticed := some 5 : Conn })]
                  { watch := 20005 : TimeUnit }).host,
            link :=
              (ethernet { st := PortSt.on : Port } [(65535, { rate := 61440, noticed := some 5 : Conn })]
                  { watch := 20005 : TimeUnit }).link,
            frm :=
              (ethernet { st := PortSt.on : Port } [(65535, { rate := 61440, noticed := some 5 : Conn })]
                  { watch := 20005 : TimeUnit }).frm,
            fen :=
              (ethernet { st := PortSt.on : Port } [(65535, { rate := 61440, noticed := some 5 : Conn })]
                  { watch := 20005 : TimeUnit }).fen :
            State }
          65535).noticed =
      some 5 ∧
    5 + 20000 ≤
      {
          pending :=
            (ethernet { st := PortSt.on : Port } [(65535, { rate := 61440, noticed := some 5 : Conn })]
                { watch := 20005 : TimeUnit }).pending,
          freeCtr :=
            (ethernet { st := PortSt.on : Port } [(65535, { rate := 61440, noticed := some 5 : Conn })]
                { watch := 20005 : TimeUnit }).freeCtr,
          nextId :=
            (ethernet { st := PortSt.on : Port } [(65535, { rate := 61440, noticed := some 5 : Conn })]
                { watch := 20005 : TimeUnit }).nextId,
          outbox :=
            (ethernet { st := PortSt.on : Port } [(65535, { rate := 61440, noticed := some 5 : Conn })]
                { watch := 20005 : TimeUnit }).outbox,
          fuse :=
            (ethernet { st := PortSt.on : Port } [(65535, { rate := 61440, noticed := some 5 : Conn })]
                { watch := 20005 : TimeUnit }).fuse,
          hub :=
            (ethernet { st := PortSt.on : Port } [(65535, { rate := 61440, noticed := some 5 : Conn })]
                { watch := 20005 : TimeUnit }).hub,
          oob :=
            (ethernet { st := PortSt.on : Port } [(65535, { rate := 61440, noticed := some 5 : Conn })]
                { watch := 20005 : TimeUnit }).oob,
          flash :=
            (ethernet { st := PortSt.on : Port } [(65535, { rate := 61440, noticed := some 5 : Conn })]
                { watch := 20005 : TimeUnit }).flash,
          time :=
            (ethernet { st := PortSt.on : Port } [(65535, { rate := 61440, noticed := some 5 : Conn })]
                { watch := 20005 : TimeUnit }).time,
          wheels :=
            (ethernet { st := PortSt.on : Port } [(65535, { rate := 61440, noticed := some 5 : Conn })]
                { watch := 20005 : TimeUnit }).wheels,
          ms :=
            (ethernet { st := PortSt.on : Port } [(65535, { rate := 61440, noticed := some 5 : Conn })]
                { watch := 20005 : TimeUnit }).ms,
          crier :=
            (ethernet { st := PortSt.on : Port } [(65535, { rate := 61440, noticed := some 5 : Conn })]
                { watch := 20005 : TimeUnit }).crier,
          front :=
            (ethernet { st := PortSt.on : Port } [(65535, { rate := 61440, noticed := some 5 : Conn })]
                { watch := 20005 : TimeUnit }).front,
          rve :=
            (ethernet { st := PortSt.on : Port } [(65535, { rate := 61440, noticed := some 5 : Conn })]
                { watch := 20005 : TimeUnit }).rve,
          dbg :=
            (ethernet { st := PortSt.on : Port } [(65535, { rate := 61440, noticed := some 5 : Conn })]
                { watch := 20005 : TimeUnit }).dbg,
          host :=
            (ethernet { st := PortSt.on : Port } [(65535, { rate := 61440, noticed := some 5 : Conn })]
                { watch := 20005 : TimeUnit }).host,
          link :=
            (ethernet { st := PortSt.on : Port } [(65535, { rate := 61440, noticed := some 5 : Conn })]
                { watch := 20005 : TimeUnit }).link,
          frm :=
            (ethernet { st := PortSt.on : Port } [(65535, { rate := 61440, noticed := some 5 : Conn })]
                { watch := 20005 : TimeUnit }).frm,
          fen :=
            (ethernet { st := PortSt.on : Port } [(65535, { rate := 61440, noticed := some 5 : Conn })]
                { watch := 20005 : TimeUnit }).fen :
          State }.watch ∧
    (∀ (n : Nat),
       ethPort
             {
               pending :=
                 (ethernet { st := PortSt.on : Port } [(65535, { rate := 61440, noticed := some 5 : Conn })]
                     { watch := 20005 : TimeUnit }).pending,
               freeCtr :=
                 (ethernet { st := PortSt.on : Port } [(65535, { rate := 61440, noticed := some 5 : Conn })]
                     { watch := 20005 : TimeUnit }).freeCtr,
               nextId :=
                 (ethernet { st := PortSt.on : Port } [(65535, { rate := 61440, noticed := some 5 : Conn })]
                     { watch := 20005 : TimeUnit }).nextId,
               outbox :=
                 (ethernet { st := PortSt.on : Port } [(65535, { rate := 61440, noticed := some 5 : Conn })]
                     { watch := 20005 : TimeUnit }).outbox,
               fuse :=
                 (ethernet { st := PortSt.on : Port } [(65535, { rate := 61440, noticed := some 5 : Conn })]
                     { watch := 20005 : TimeUnit }).fuse,
               hub :=
                 (ethernet { st := PortSt.on : Port } [(65535, { rate := 61440, noticed := some 5 : Conn })]
                     { watch := 20005 : TimeUnit }).hub,
               oob :=
                 (ethernet { st := PortSt.on : Port } [(65535, { rate := 61440, noticed := some 5 : Conn })]
                     { watch := 20005 : TimeUnit }).oob,
               flash :=
                 (ethernet { st := PortSt.on : Port } [(65535, { rate := 61440, noticed := some 5 : Conn })]
                     { watch := 20005 : TimeUnit }).flash,
               time :=
                 (ethernet { st := PortSt.on : Port } [(65535, { rate := 61440, noticed := some 5 : Conn })]
                     { watch := 20005 : TimeUnit }).time,
               wheels :=
                 (ethernet { st := PortSt.on : Port } [(65535, { rate := 61440, noticed := some 5 : Conn })]
                     { watch := 20005 : TimeUnit }).wheels,
               ms :=
                 (ethernet { st := PortSt.on : Port } [(65535, { rate := 61440, noticed := some 5 : Conn })]
                     { watch := 20005 : TimeUnit }).ms,
               crier :=
                 (ethernet { st := PortSt.on : Port } [(65535, { rate := 61440, noticed := some 5 : Conn })]
                     { watch := 20005 : TimeUnit }).crier,
               front :=
                 (ethernet { st := PortSt.on : Port } [(65535, { rate := 61440, noticed := some 5 : Conn })]
                     { watch := 20005 : TimeUnit }).front,
               rve :=
                 (ethernet { st := PortSt.on : Port } [(65535, { rate := 61440, noticed := some 5 : Conn })]
                     { watch := 20005 : TimeUnit }).rve,
               dbg :=
                 (ethernet { st := PortSt.on : Port } [(65535, { rate := 61440, noticed := some 5 : Conn })]
                     { watch := 20005 : TimeUnit }).dbg,
               host :=
                 (ethernet { st := PortSt.on : Port } [(65535, { rate := 61440, noticed := some 5 : Conn })]
                     { watch := 20005 : TimeUnit }).host,
               link :=
                 (ethernet { st := PortSt.on : Port } [(65535, { rate := 61440, noticed := some 5 : Conn })]
                     { watch := 20005 : TimeUnit }).link,
               frm :=
                 (ethernet { st := PortSt.on : Port } [(65535, { rate := 61440, noticed := some 5 : Conn })]
                     { watch := 20005 : TimeUnit }).frm,
               fen :=
                 (ethernet { st := PortSt.on : Port } [(65535, { rate := 61440, noticed := some 5 : Conn })]
                     { watch := 20005 : TimeUnit }).fen :
               State }
             65535 =
           some n →
         ({
                   pending :=
                     (ethernet { st := PortSt.on : Port } [(65535, { rate := 61440, noticed := some 5 : Conn })]
                         { watch := 20005 : TimeUnit }).pending,
                   freeCtr :=
                     (ethernet { st := PortSt.on : Port } [(65535, { rate := 61440, noticed := some 5 : Conn })]
                         { watch := 20005 : TimeUnit }).freeCtr,
                   nextId :=
                     (ethernet { st := PortSt.on : Port } [(65535, { rate := 61440, noticed := some 5 : Conn })]
                         { watch := 20005 : TimeUnit }).nextId,
                   outbox :=
                     (ethernet { st := PortSt.on : Port } [(65535, { rate := 61440, noticed := some 5 : Conn })]
                         { watch := 20005 : TimeUnit }).outbox,
                   fuse :=
                     (ethernet { st := PortSt.on : Port } [(65535, { rate := 61440, noticed := some 5 : Conn })]
                         { watch := 20005 : TimeUnit }).fuse,
                   hub :=
                     (ethernet { st := PortSt.on : Port } [(65535, { rate := 61440, noticed := some 5 : Conn })]
                         { watch := 20005 : TimeUnit }).hub,
                   oob :=
                     (ethernet { st := PortSt.on : Port } [(65535, { rate := 61440, noticed := some 5 : Conn })]
                         { watch := 20005 : TimeUnit }).oob,
                   flash :=
                     (ethernet { st := PortSt.on : Port } [(65535, { rate := 61440, noticed := some 5 : Conn })]
                         { watch := 20005 : TimeUnit }).flash,
                   time :=
                     (ethernet { st := PortSt.on : Port } [(65535, { rate := 61440, noticed := some 5 : Conn })]
                         { watch := 20005 : TimeUnit }).time,
                   wheels :=
                     (ethernet { st := PortSt.on : Port } [(65535, { rate := 61440, noticed := some 5 : Conn })]
                         { watch := 20005 : TimeUnit }).wheels,
                   ms :=
                     (ethernet { st := PortSt.on : Port } [(65535, { rate := 61440, noticed := some 5 : Conn })]
                         { watch := 20005 : TimeUnit }).ms,
                   crier :=
                     (ethernet { st := PortSt.on : Port } [(65535, { rate := 61440, noticed := some 5 : Conn })]
                         { watch := 20005 : TimeUnit }).crier,
                   front :=
                     (ethernet { st := PortSt.on : Port } [(65535, { rate := 61440, noticed := some 5 : Conn })]
                         { watch := 20005 : TimeUnit }).front,
                   rve :=
                     (ethernet { st := PortSt.on : Port } [(65535, { rate := 61440, noticed := some 5 : Conn })]
                         { watch := 20005 : TimeUnit }).rve,
                   dbg :=
                     (ethernet { st := PortSt.on : Port } [(65535, { rate := 61440, noticed := some 5 : Conn })]
                         { watch := 20005 : TimeUnit }).dbg,
                   host :=
                     (ethernet { st := PortSt.on : Port } [(65535, { rate := 61440, noticed := some 5 : Conn })]
                         { watch := 20005 : TimeUnit }).host,
                   link :=
                     (ethernet { st := PortSt.on : Port } [(65535, { rate := 61440, noticed := some 5 : Conn })]
                         { watch := 20005 : TimeUnit }).link,
                   frm :=
                     (ethernet { st := PortSt.on : Port } [(65535, { rate := 61440, noticed := some 5 : Conn })]
                         { watch := 20005 : TimeUnit }).frm,
                   fen :=
                     (ethernet { st := PortSt.on : Port } [(65535, { rate := 61440, noticed := some 5 : Conn })]
                         { watch := 20005 : TimeUnit }).fen :
                   State }.port
               n).txq =
           []) :=
  ⟨by first | decide +kernel | rfl, by first | decide +kernel | rfl, by first | decide +kernel | rfl, nofun⟩

/-- Cage position 7. -/
def cage (c : Ctg) (p : Port) : State := { serving {} with link := { ports := [(31, p)], ctgs := [(7, c)] } }
def pages : CtgPages := { serial := 9, cone := coneBytes { n := 6, b := 7, th := 8 } }
theorem witness_EthernetAndCartridges_insert :
    7 < 8 ∧ hostUp (cage { : Ctg } { : Port }) = true ∧ ((cage { : Ctg } { : Port }).ctg 7).present = false ∧ pages.answers = true ∧
    coneOk pages.cone = true ∧ ((cage { : Ctg } { : Port }).ctg 7).held = [] :=
  by and_intros <;> first | decide +kernel | rfl

theorem witness_EthernetAndCartridges_remove :
    7 < 8 ∧ hostUp (cage { present := true, ready := true : Ctg } { : Port }) = true ∧
    ((cage { present := true, ready := true : Ctg } { : Port }).ctg 7).present = true ∧
    portUp ((cage { present := true, ready := true : Ctg } { : Port }).port (24 + 7)) = false :=
  by and_intros <;> first | decide +kernel | rfl

theorem witness_EthernetAndCartridges_pulled :
    7 < 8 ∧ hostUp (cage { present := true, ready := true : Ctg } { st := PortSt.on : Port }) = true ∧
    ((cage { present := true, ready := true : Ctg } { st := PortSt.on : Port }).ctg 7).present = true ∧
    portUp ((cage { present := true, ready := true : Ctg } { st := PortSt.on : Port }).port (24 + 7)) = true :=
  by and_intros <;> first | decide +kernel | rfl

theorem witness_EthernetAndCartridges_fault :
    7 < 8 ∧ hostUp (cage { present := true, ready := true : Ctg } { st := PortSt.on : Port }) = true ∧
    ((cage { present := true, ready := true : Ctg } { st := PortSt.on : Port }).ctg 7).present = true ∧
    down (cage { present := true, ready := true : Ctg } { st := PortSt.on : Port }) 9 7 = false ∧
    ((cage { present := true, ready := true : Ctg } { st := PortSt.on : Port }).port (24 + 7)).st ≠ PortSt.fenced :=
  by and_intros <;> first | decide +kernel | rfl

theorem witness_EthernetAndCartridges_window :
    7 < 8 ∧
    hostUp
        { pending := (cage { present := true, ready := true : Ctg } { : Port }).pending,
          freeCtr := (cage { present := true, ready := true : Ctg } { : Port }).freeCtr,
          nextId := (cage { present := true, ready := true : Ctg } { : Port }).nextId,
          outbox := (cage { present := true, ready := true : Ctg } { : Port }).outbox,
          fuse := (cage { present := true, ready := true : Ctg } { : Port }).fuse,
          hub := (cage { present := true, ready := true : Ctg } { : Port }).hub,
          oob := (cage { present := true, ready := true : Ctg } { : Port }).oob,
          img := (cage { present := true, ready := true : Ctg } { : Port }).img,
          flash := (cage { present := true, ready := true : Ctg } { : Port }).flash,
          time := { locked := true, watch := 400000000 : TimeUnit },
          wheels := (cage { present := true, ready := true : Ctg } { : Port }).wheels,
          ms := (cage { present := true, ready := true : Ctg } { : Port }).ms,
          crier := (cage { present := true, ready := true : Ctg } { : Port }).crier,
          front := (cage { present := true, ready := true : Ctg } { : Port }).front,
          rve := (cage { present := true, ready := true : Ctg } { : Port }).rve,
          dbg := (cage { present := true, ready := true : Ctg } { : Port }).dbg,
          host := (cage { present := true, ready := true : Ctg } { : Port }).host,
          link := (cage { present := true, ready := true : Ctg } { : Port }).link,
          frm := (cage { present := true, ready := true : Ctg } { : Port }).frm,
          fen := (cage { present := true, ready := true : Ctg } { : Port }).fen : State } =
      true ∧
    { pending := (cage { present := true, ready := true : Ctg } { : Port }).pending,
          freeCtr := (cage { present := true, ready := true : Ctg } { : Port }).freeCtr,
          nextId := (cage { present := true, ready := true : Ctg } { : Port }).nextId,
          outbox := (cage { present := true, ready := true : Ctg } { : Port }).outbox,
          fuse := (cage { present := true, ready := true : Ctg } { : Port }).fuse,
          hub := (cage { present := true, ready := true : Ctg } { : Port }).hub,
          oob := (cage { present := true, ready := true : Ctg } { : Port }).oob,
          img := (cage { present := true, ready := true : Ctg } { : Port }).img,
          flash := (cage { present := true, ready := true : Ctg } { : Port }).flash,
          time := { locked := true, watch := 400000000 : TimeUnit },
          wheels := (cage { present := true, ready := true : Ctg } { : Port }).wheels,
          ms := (cage { present := true, ready := true : Ctg } { : Port }).ms,
          crier := (cage { present := true, ready := true : Ctg } { : Port }).crier,
          front := (cage { present := true, ready := true : Ctg } { : Port }).front,
          rve := (cage { present := true, ready := true : Ctg } { : Port }).rve,
          dbg := (cage { present := true, ready := true : Ctg } { : Port }).dbg,
          host := (cage { present := true, ready := true : Ctg } { : Port }).host,
          link := (cage { present := true, ready := true : Ctg } { : Port }).link,
          frm := (cage { present := true, ready := true : Ctg } { : Port }).frm,
          fen := (cage { present := true, ready := true : Ctg } { : Port }).fen : State }.frozen =
      false ∧
    ({ pending := (cage { present := true, ready := true : Ctg } { : Port }).pending,
              freeCtr := (cage { present := true, ready := true : Ctg } { : Port }).freeCtr,
              nextId := (cage { present := true, ready := true : Ctg } { : Port }).nextId,
              outbox := (cage { present := true, ready := true : Ctg } { : Port }).outbox,
              fuse := (cage { present := true, ready := true : Ctg } { : Port }).fuse,
              hub := (cage { present := true, ready := true : Ctg } { : Port }).hub,
              oob := (cage { present := true, ready := true : Ctg } { : Port }).oob,
              img := (cage { present := true, ready := true : Ctg } { : Port }).img,
              flash := (cage { present := true, ready := true : Ctg } { : Port }).flash,
              time := { locked := true, watch := 400000000 : TimeUnit },
              wheels := (cage { present := true, ready := true : Ctg } { : Port }).wheels,
              ms := (cage { present := true, ready := true : Ctg } { : Port }).ms,
              crier := (cage { present := true, ready := true : Ctg } { : Port }).crier,
              front := (cage { present := true, ready := true : Ctg } { : Port }).front,
              rve := (cage { present := true, ready := true : Ctg } { : Port }).rve,
              dbg := (cage { present := true, ready := true : Ctg } { : Port }).dbg,
              host := (cage { present := true, ready := true : Ctg } { : Port }).host,
              link := (cage { present := true, ready := true : Ctg } { : Port }).link,
              frm := (cage { present := true, ready := true : Ctg } { : Port }).frm,
              fen := (cage { present := true, ready := true : Ctg } { : Port }).fen : State }.ctg
          7).present =
      true ∧
    { pending := (cage { present := true, ready := true : Ctg } { : Port }).pending,
            freeCtr := (cage { present := true, ready := true : Ctg } { : Port }).freeCtr,
            nextId := (cage { present := true, ready := true : Ctg } { : Port }).nextId,
            outbox := (cage { present := true, ready := true : Ctg } { : Port }).outbox,
            fuse := (cage { present := true, ready := true : Ctg } { : Port }).fuse,
            hub := (cage { present := true, ready := true : Ctg } { : Port }).hub,
            oob := (cage { present := true, ready := true : Ctg } { : Port }).oob,
            img := (cage { present := true, ready := true : Ctg } { : Port }).img,
            flash := (cage { present := true, ready := true : Ctg } { : Port }).flash,
            time := { locked := true, watch := 400000000 : TimeUnit },
            wheels := (cage { present := true, ready := true : Ctg } { : Port }).wheels,
            ms := (cage { present := true, ready := true : Ctg } { : Port }).ms,
            crier := (cage { present := true, ready := true : Ctg } { : Port }).crier,
            front := (cage { present := true, ready := true : Ctg } { : Port }).front,
            rve := (cage { present := true, ready := true : Ctg } { : Port }).rve,
            dbg := (cage { present := true, ready := true : Ctg } { : Port }).dbg,
            host := (cage { present := true, ready := true : Ctg } { : Port }).host,
            link := (cage { present := true, ready := true : Ctg } { : Port }).link,
            frm := (cage { present := true, ready := true : Ctg } { : Port }).frm,
            fen := (cage { present := true, ready := true : Ctg } { : Port }).fen : State }.windowEnds
        400000000
        ({ pending := (cage { present := true, ready := true : Ctg } { : Port }).pending,
                freeCtr := (cage { present := true, ready := true : Ctg } { : Port }).freeCtr,
                nextId := (cage { present := true, ready := true : Ctg } { : Port }).nextId,
                outbox := (cage { present := true, ready := true : Ctg } { : Port }).outbox,
                fuse := (cage { present := true, ready := true : Ctg } { : Port }).fuse,
                hub := (cage { present := true, ready := true : Ctg } { : Port }).hub,
                oob := (cage { present := true, ready := true : Ctg } { : Port }).oob,
                img := (cage { present := true, ready := true : Ctg } { : Port }).img,
                flash := (cage { present := true, ready := true : Ctg } { : Port }).flash,
                time := { locked := true, watch := 400000000 : TimeUnit },
                wheels := (cage { present := true, ready := true : Ctg } { : Port }).wheels,
                ms := (cage { present := true, ready := true : Ctg } { : Port }).ms,
                crier := (cage { present := true, ready := true : Ctg } { : Port }).crier,
                front := (cage { present := true, ready := true : Ctg } { : Port }).front,
                rve := (cage { present := true, ready := true : Ctg } { : Port }).rve,
                dbg := (cage { present := true, ready := true : Ctg } { : Port }).dbg,
                host := (cage { present := true, ready := true : Ctg } { : Port }).host,
                link := (cage { present := true, ready := true : Ctg } { : Port }).link,
                frm := (cage { present := true, ready := true : Ctg } { : Port }).frm,
                fen := (cage { present := true, ready := true : Ctg } { : Port }).fen : State }.ctg
            7).win =
      true :=
  by and_intros <;> first | decide +kernel | rfl

theorem witness_EthernetAndCartridges_write :
    7 < 8 ∧ hostUp (cage { present := true, writes := 65535, windows := 3600 : Ctg } { : Port }) = true ∧
    ((cage { present := true, writes := 65535, windows := 3600 : Ctg } { : Port }).ctg 7).present = true ∧
    ((cage { present := true, writes := 65535, windows := 3600 : Ctg } { : Port }).ctg 7).wrote + 3600 ≤
      ((cage { present := true, writes := 65535, windows := 3600 : Ctg } { : Port }).ctg 7).windows :=
  by and_intros <;> first | decide +kernel | rfl

theorem witness_EthernetAndCartridges_wear :
    7 < 8 ∧ hostUp (cage { present := true, windows := 3600 : Ctg } { : Port }) = true ∧
    ((cage { present := true, windows := 3600 : Ctg } { : Port }).ctg 7).present = true ∧
    (Option.map Prod.fst ((cage { present := true, windows := 3600 : Ctg } { : Port }).ctg 7).hours.head?).getD 0 + 3600 ≤
      ((cage { present := true, windows := 3600 : Ctg } { : Port }).ctg 7).windows ∧
    bits (BitVec.toNat (cage { present := true, windows := 3600 : Ctg } { : Port }).img.ctgLim1) 16 16 ≤
      ((cage { present := true, windows := 3600 : Ctg } { : Port }).ctg 7).n :=
  by and_intros <;> first | decide +kernel | rfl

/-- One permit of the reeve under the default image. -/
def reeve (l : Tab Permit) (t : TimeUnit) : State :=
  { serving t with img := { rve := [0x17700708, 0x18020000, 0x1003E803, 0x62000000], charges := [20, 8, 24, 24, 40, 2] }, rve := { permits := l, bEff := 6000 } }
def permit : Permit := { kind := 3, unit := 791, full := 2400, pend := 1 }
theorem witness_ReeveEvents_request :
    (reeve [(1, permit)] { : TimeUnit }).frozen = false ∧ (reeve [(1, permit)] { : TimeUnit }).serving = true ∧
    (reeve [(1, permit)] { : TimeUnit }).rve.permits.find 1 = some permit ∧ permit.pend ≠ 0 ∧ permit.arrived = none :=
  by and_intros <;> first | decide +kernel | rfl

def arrived : Permit := { permit with arrived := some 0 }
theorem witness_ReeveEvents_wait :
    (reeve [(1, arrived)] { : TimeUnit }).frozen = false ∧ (reeve [(1, arrived)] { : TimeUnit }).serving = true ∧
    (reeve [(1, arrived)] { : TimeUnit }).rve.permits.find 1 = some arrived ∧ arrived.held = 0 ∧ arrived.pend ≠ 0 ∧ arrived.arrived ≠ none ∧
    arrived.waited = false :=
  by and_intros <;> first | decide +kernel | rfl

def heldPermit : Permit := { permit with pend := 0, held := 2400 }
def asking : State := { reeve [(1, heldPermit)] {} with link := { ports := [(23, { asked := true, enable := true })] } }
theorem witness_ReeveEvents_answer :
    asking.frozen = false ∧ asking.serving = true ∧ asking.rve.permits.find 1 = some heldPermit ∧ heldPermit.held ≠ 0 :=
  by and_intros <;> first | decide +kernel | rfl

def matrixLeave : Permit := { kind := 0, unit := 191, full := 2000, held := 2000, known := 2 }
theorem witness_ReeveEvents_renew :
    (reeve [(1, matrixLeave)] { watch := 400000 : TimeUnit }).frozen = false ∧
    (reeve [(1, matrixLeave)] { watch := 400000 : TimeUnit }).serving = true ∧
    (reeve [(1, matrixLeave)] { watch := 400000 : TimeUnit }).rve.permits.find 1 = some matrixLeave ∧ matrixLeave.held ≠ 0 ∧
    matrixLeave.kind ≤ 2 ∧ matrixLeave.releasing = false ∧ matrixLeave.renew = none ∧
    matrixLeave.since + rveTerm (reeve [(1, matrixLeave)] { watch := 400000 : TimeUnit }) ≤
      (reeve [(1, matrixLeave)] { watch := 400000 : TimeUnit }).watch :=
  by and_intros <;> first | decide +kernel | rfl

theorem witness_ReeveEvents_idle :
    (reeve [] { : TimeUnit }).frozen = false ∧ (reeve [] { : TimeUnit }).serving = true ∧ (reeve [] { : TimeUnit }).rve.permits = [] ∧
    (reeve [] { : TimeUnit }).rve.clamp = false ∧ (reeve [] { : TimeUnit }).rve.cycle ≠ (reeve [] { : TimeUnit }).watch / 8 + 1 :=
  by and_intros <;> first | decide +kernel | rfl

def emitAsk : Permit := { kind := 5, unit := 543, full := 200, pend := 1, arrived := some 0 }
theorem witness_ReeveEvents_grant :
    (reeve [(1, emitAsk)] { : TimeUnit }).frozen = false ∧ (reeve [(1, emitAsk)] { : TimeUnit }).serving = true ∧
    (reeve [(1, emitAsk)] { : TimeUnit }).rve.clamp = false ∧ (reeve [(1, emitAsk)] { : TimeUnit }).rve.permits = [(1, emitAsk)] ∧
    emitAsk.kind = 5 ∧ emitAsk.held = 0 ∧ emitAsk.pend = 1 ∧ emitAsk.arrived ≠ none ∧ emitAsk.renew = none ∧ emitAsk.releasing = false ∧
    0 < emitAsk.full ∧ (reeve [(1, emitAsk)] { : TimeUnit }).rve.cycle ≠ (reeve [(1, emitAsk)] { : TimeUnit }).watch / 8 + 1 :=
  by and_intros <;> first | decide +kernel | rfl

def lingering : State := { reeve [(1, matrixLeave)] { watch := 128 } with wheels := [(191, { eng := { lingerSince := some 0 } })] }
theorem witness_ReeveEvents_linger :
    lingering.frozen = false ∧ lingering.present 191 = true ∧ lingering.serving = true ∧ permitOf lingering 0 191 0 = some (1, matrixLeave) ∧
    (lingering.wheel 191).eng.mxq = [] ∧ matrixLeave.releasing = false ∧ matrixLeave.held ≠ 0 ∧ (lingering.wheel 191).eng.lingerSince = some 0 ∧
    0 + rveLinger lingering ≤ lingering.watch :=
  by and_intros <;> first | decide +kernel | rfl

theorem witness_ReeveEvents_power :
    (reeve [(1, matrixLeave)] { watch := 800 : TimeUnit }).frozen = false ∧
    (reeve [(1, matrixLeave)] { watch := 800 : TimeUnit }).time.locked = true ∧
    (reeve [(1, matrixLeave)] { watch := 800 : TimeUnit }).watch % 800 = 0 ∧
    (reeve [(1, matrixLeave)] { watch := 800 : TimeUnit }).rve.powerWin ≠ (reeve [(1, matrixLeave)] { watch := 800 : TimeUnit }).watch :=
  by and_intros <;> first | decide +kernel | rfl

theorem witness_ReeveEvents_powerUnder :
    (reeve [(1, matrixLeave)] { watch := 800 : TimeUnit }).frozen = false ∧
    (reeve [(1, matrixLeave)] { watch := 800 : TimeUnit }).time.locked = true ∧
    (reeve [(1, matrixLeave)] { watch := 800 : TimeUnit }).watch % 800 = 0 ∧
    (reeve [(1, matrixLeave)] { watch := 800 : TimeUnit }).rve.powerWin ≠ (reeve [(1, matrixLeave)] { watch := 800 : TimeUnit }).watch :=
  by and_intros <;> first | decide +kernel | rfl

def clamped : State := { reeve [(1, matrixLeave)] { watch := 800 } with rve := { permits := [(1, matrixLeave)], bEff := 6000, clamp := true, clampM := 7000 } }
theorem witness_ReeveEvents_clampEnd :
    clamped.frozen = false ∧ clamped.time.locked = true ∧ clamped.watch % 800 = 0 ∧ clamped.rve.powerWin ≠ clamped.watch :=
  by and_intros <;> first | decide +kernel | rfl

def throttled : State := { reeve [] {} with rve := { bEff := 5000, throttle := true } }
theorem witness_ReeveEvents_hottest :
    throttled.frozen = false ∧ throttled.serving = true ∧ throttled.rve.thermWin ≠ throttled.watch / 400000 + 1 :=
  by and_intros <;> first | decide +kernel | rfl

theorem witness_ReeveEvents_cool :
    throttled.frozen = false ∧ throttled.serving = true ∧ throttled.rve.thermWin ≠ throttled.watch / 400000 + 1 ∧
    (hottestDie 95 94 93).snd + 3 ≤ rveThrottleT throttled ∧ (hottestDie 95 94 93).snd < 110 ∧ throttled.rve.bEff < rveBudget throttled :=
  by and_intros <;> first | decide +kernel | rfl

theorem witness_ReeveEvents_hot :
    throttled.frozen = false ∧ throttled.serving = true ∧ throttled.rve.thermWin ≠ throttled.watch / 400000 + 1 ∧
    rveThrottleT throttled ≤ (hottestDie 97 98 109).snd ∧ (hottestDie 97 98 109).snd < 110 :=
  by and_intros <;> first | decide +kernel | rfl

theorem witness_ReeveEvents_tooHot :
    throttled.frozen = false ∧ throttled.serving = true ∧ throttled.rve.thermWin ≠ throttled.watch / 400000 + 1 ∧
    110 ≤ (hottestDie 97 110 90).snd :=
  by and_intros <;> first | decide +kernel | rfl

theorem witness_ReeveEvents_trip :
    throttled.frozen = false ∧ 2 < 3 ∧ throttled.serving = true :=
  by and_intros <;> first | decide +kernel | rfl

theorem witness_PowerAndStart_auxOn :
    { hub := { state := ModSt.off : Hub } : State }.hub.state = ModSt.off :=
  by decide +kernel

theorem witness_PowerAndStart_auxLoss :
    (serving { : TimeUnit }).hub.state ≠ ModSt.off ∧ (serving { : TimeUnit }).hub.flashJobs = [] :=
  by and_intros <;> first | decide +kernel | rfl

theorem witness_PowerAndStart_good :
    State.reset.hub.pwrGood = false :=
  by decide +kernel

def powered : State := { reeve [(1, matrixLeave)] {} with hub := { state := .ready, pwrGood := true } }
theorem witness_PowerAndStart_down :
    powered.hub.pwrGood = true ∧ powered.serving = true :=
  by and_intros <;> first | decide +kernel | rfl

theorem witness_PowerAndStart_downEnd :
    { hub := { state := ModSt.ready, powerDown := true : Hub } : State }.hub.powerDown = true ∧
    { hub := { state := ModSt.ready, powerDown := true : Hub } : State }.rve.permits = [] :=
  by and_intros <;> first | decide +kernel | rfl

theorem witness_PowerAndStart_fault :
    powered.serving = true ∧ powered.hub.pwrGood = true ∧ (45999 < 46000 ∨ 58000 < 45999) :=
  by and_intros <;> first | decide +kernel | rfl

theorem witness_PowerAndStart_faultHigh :
    powered.serving = true ∧ powered.hub.pwrGood = true ∧ (58001 < 46000 ∨ 58000 < 58001) :=
  by and_intros <;> first | decide +kernel | rfl

theorem witness_PowerAndStart_reset :
    powered.hub.pwrGood = true ∧ powered.hub.resetHeld = false ∧ powered.serving = true ∧ powered.hub.flashJobs = [] :=
  by and_intros <;> first | decide +kernel | rfl

theorem witness_PowerAndStart_released :
    7 < 8 ∧
    { hub := { state := ModSt.ready, resetHeld := true, halted := true, pwrGood := true : Hub },
            time := { locked := true : TimeUnit } : State }.hub.resetHeld =
      true ∧
    { hub := { state := ModSt.ready, resetHeld := true, halted := true, pwrGood := true : Hub },
            time := { locked := true : TimeUnit } : State }.hub.halted =
      true ∧
    { hub := { state := ModSt.ready, resetHeld := true, halted := true, pwrGood := true : Hub },
            time := { locked := true : TimeUnit } : State }.hub.state ≠
      ModSt.failed :=
  by and_intros <;> first | decide +kernel | rfl

theorem witness_PowerAndStart_again :
    7 < 8 ∧
    { hub := { state := ModSt.failed, resetHeld := true, halted := true, pwrGood := true : Hub },
            time := { locked := true : TimeUnit } : State }.hub.resetHeld =
      true ∧
    { hub := { state := ModSt.failed, resetHeld := true, halted := true, pwrGood := true : Hub },
            time := { locked := true : TimeUnit } : State }.hub.halted =
      true ∧
    { hub := { state := ModSt.failed, resetHeld := true, halted := true, pwrGood := true : Hub },
            time := { locked := true : TimeUnit } : State }.hub.state =
      ModSt.failed :=
  by and_intros <;> first | decide +kernel | rfl

def powering (k : Bool) : State := { hub := { state := .powering, pwrGood := true }, time := { locked := k } }
theorem witness_PowerAndStart_powered :
    7 < 8 ∧ (powering true).hub.state = ModSt.powering ∧ (powering true).awake = true ∧ (powering true).time.locked = true ∧
    (powering true).hub.resetHeld = false :=
  by and_intros <;> first | decide +kernel | rfl

theorem witness_PowerAndStart_unpowered :
    7 < 8 ∧ (powering true).hub.state = ModSt.powering ∧ (powering true).awake = true :=
  by and_intros <;> first | decide +kernel | rfl

theorem witness_PowerAndStart_unlocked :
    7 < 8 ∧ (powering false).hub.state = ModSt.powering ∧ (powering false).awake = true ∧ (powering false).time.locked = false :=
  by and_intros <;> first | decide +kernel | rfl

def starting' (st : ModSt) : State := { hub := { state := st, pwrGood := true }, time := { locked := true } }
theorem witness_PowerAndStart_empty :
    (starting' ModSt.loading).hub.state = ModSt.loading ∧ (starting' ModSt.loading).awake = true ∧ { : LoadFacts }.flashOk = true ∧
    (chooseSlot (starting' ModSt.loading) { : LoadFacts } (slotOrder (dirNow (starting' ModSt.loading)))).fst = none :=
  by and_intros <;> first | decide +kernel | rfl

theorem witness_PowerAndStart_flash :
    (starting' ModSt.loading).hub.state = ModSt.loading ∧ (starting' ModSt.loading).awake = true ∧
    { flashOk := false : LoadFacts }.flashOk = false :=
  by and_intros <;> first | decide +kernel | rfl

theorem witness_PowerAndStart_trained :
    (starting' ModSt.training).awake = true ∧ (starting' ModSt.training).hub.state = ModSt.training :=
  by and_intros <;> first | decide +kernel | rfl

theorem witness_PowerAndStart_tested :
    (starting' ModSt.selfTest).awake = true ∧ (starting' ModSt.selfTest).hub.state = ModSt.selfTest ∧
    (starting' ModSt.selfTest).hub.fromTry = false :=
  by and_intros <;> first | decide +kernel | rfl

def overrunning : State := { starting' .loading with time := { locked := true, watch := 400000000 } }
theorem witness_PowerAndStart_overrun :
    starting overrunning = true ∧ overrunning.hub.entered + stateBound overrunning ≤ overrunning.watch :=
  by and_intros <;> first | decide +kernel | rfl

/-- A module that serves, with this debug unit. -/
def debugging (d : Debug) : State := { serving { gts := 1000, watch := 2 ^ 26 } with dbg := d }
def capturing : Tally := { cfg := 0xE0000010, value := 5 }
theorem witness_DebugAndSecuringEvents_tallyWrite :
    hasTally (debugging { : Debug }) 191 31 = true ∧ hostUp (debugging { : Debug }) = true :=
  by and_intros <;> first | decide +kernel | rfl

theorem witness_DebugAndSecuringEvents_tallyWrap :
    hasTally (debugging { gtallies := [(63, capturing)] : Debug }) 192 63 = true ∧
    (debugging { gtallies := [(63, capturing)] : Debug }).serving = true ∧
    (debugging { gtallies := [(63, capturing)] : Debug }).frozen = false ∧
    BitVec.getLsbD (tallyOf (debugging { gtallies := [(63, capturing)] : Debug }) 192 63).cfg 31 = true :=
  by and_intros <;> first | decide +kernel | rfl

theorem witness_DebugAndSecuringEvents_sample :
    (debugging { sampleOn := true, gtallies := [(63, capturing)] : Debug }).serving = true ∧
    (debugging { sampleOn := true, gtallies := [(63, capturing)] : Debug }).frozen = false ∧
    (debugging { sampleOn := true, gtallies := [(63, capturing)] : Debug }).dbg.sampleOn = true ∧
    (debugging { sampleOn := true, gtallies := [(63, capturing)] : Debug }).watch %
        2 ^ (debugging { sampleOn := true, gtallies := [(63, capturing)] : Debug }).dbg.interval =
      0 ∧
    (debugging { sampleOn := true, gtallies := [(63, capturing)] : Debug }).dbg.sampled ≠
      (debugging { sampleOn := true, gtallies := [(63, capturing)] : Debug }).watch ∧
    (debugging { sampleOn := true, gtallies := [(63, capturing)] : Debug }).wheels = [] ∧
    (debugging { sampleOn := true, gtallies := [(63, capturing)] : Debug }).dbg.queue = [] ∧
    (debugging { sampleOn := true, gtallies := [(63, capturing)] : Debug }).dbg.gtallies = [(63, capturing)] ∧
    BitVec.getLsbD capturing.cfg 31 = true ∧ BitVec.getLsbD capturing.cfg 30 = true :=
  by and_intros <;> first | decide +kernel | rfl

def aRecord : Rec := { gts := 9, type := 0xE3, source := 554, mod := true }
theorem witness_DebugAndSecuringEvents_ledger :
    (debugging { mledCount := 524287, queue := [aRecord] : Debug }).serving = true ∧
    (debugging { mledCount := 524287, queue := [aRecord] : Debug }).front.saggars = [] ∧
    (debugging { mledCount := 524287, queue := [aRecord] : Debug }).dbg.gtallies = [] ∧
    (debugging { mledCount := 524287, queue := [aRecord] : Debug }).dbg.queue = [aRecord] ∧ aRecord.mod = true ∧ aRecord.dests = [] :=
  by and_intros <;> first | decide +kernel | rfl

theorem witness_DebugAndSecuringEvents_arm :
    hostUp (debugging { t := 1256 : Debug }) = true ∧ (debugging { t := 1256 : Debug }).serving = true ∧
    (debugging { t := 1256 : Debug }).dbg.stop < 2 ∧
    (debugging { t := 1256 : Debug }).gts + 256 ≤ BitVec.toNat (debugging { t := 1256 : Debug }).dbg.t ∧
    (∀ (f : Nat), f < 8 → ((debugging { t := 1256 : Debug }).flow f).st = 0) :=
  by and_intros <;> first | decide +kernel | rfl

theorem witness_DebugAndSecuringEvents_armLate :
    hostUp (debugging { t := 1255 : Debug }) = true ∧
    BitVec.toNat (debugging { t := 1255 : Debug }).dbg.t < (debugging { t := 1255 : Debug }).gts + 256 :=
  by and_intros <;> first | decide +kernel | rfl

theorem witness_DebugAndSecuringEvents_cancel :
    hostUp (debugging { stop := 1 : Debug }) = true ∧ (debugging { stop := 1 : Debug }).dbg.stop = 1 :=
  by and_intros <;> first | decide +kernel | rfl

theorem witness_DebugAndSecuringEvents_resume :
    hostUp (debugging { stop := 3, u := 1256 : Debug }) = true ∧ (debugging { stop := 3, u := 1256 : Debug }).dbg.stop = 3 ∧
    (debugging { stop := 3, u := 1256 : Debug }).gts + 256 ≤ BitVec.toNat (debugging { stop := 3, u := 1256 : Debug }).dbg.u :=
  by and_intros <;> first | decide +kernel | rfl

theorem witness_DebugAndSecuringEvents_stop :
    (debugging { stop := 1, t := 1000 : Debug }).serving = true ∧ (debugging { stop := 1, t := 1000 : Debug }).dbg.stop = 1 ∧
    BitVec.toNat (debugging { stop := 1, t := 1000 : Debug }).dbg.t ≤ (debugging { stop := 1, t := 1000 : Debug }).gts :=
  by and_intros <;> first | decide +kernel | rfl

theorem witness_DebugAndSecuringEvents_stopped :
    (debugging { stop := 2, t := 1000 : Debug }).serving = true ∧ (debugging { stop := 2, t := 1000 : Debug }).dbg.stop = 2 ∧
    stopQuiet (debugging { stop := 2, t := 1000 : Debug }) = true :=
  by and_intros <;> first | decide +kernel | rfl

theorem witness_DebugAndSecuringEvents_resumed :
    (debugging { stop := 4, u := 1000 : Debug }).serving = true ∧ (debugging { stop := 4, u := 1000 : Debug }).dbg.stop = 4 ∧
    BitVec.toNat (debugging { stop := 4, u := 1000 : Debug }).dbg.u ≤ (debugging { stop := 4, u := 1000 : Debug }).gts ∧
    (∀ (n : Nat), n < 32 → ((debugging { stop := 4, u := 1000 : Debug }).port n).held = []) :=
  by and_intros <;> first | decide +kernel | rfl

def member : Guild := { saggar := 1, rank := 0, n := 2, members := [0, 2 ^ 48] }
def securing (x : Securing) (l : Tab (Nat × Packet)) : State :=
  { command { saggar with cfg := { secMode := 1, secGuild := some 5 }, sec := x } {} [] with link := { guilds := [(5, member)], inbound := l } }
theorem witness_DebugAndSecuringEvents_commit :
    memRuns (securing { points := [4, 2], armed := some 8, reported := [(0, 8), (1, 8)] : Securing } []) = true ∧ 1 < 4096 ∧
    secGuildOf (securing { points := [4, 2], armed := some 8, reported := [(0, 8), (1, 8)] : Securing } []) 1 = some (5, member) ∧
    ((securing { points := [4, 2], armed := some 8, reported := [(0, 8), (1, 8)] : Securing } []).saggar 1).sec.armed = some 8 ∧
    ((securing { points := [4, 2], armed := some 8, reported := [(0, 8), (1, 8)] : Securing } []).saggar 1).sec.lost = [] ∧
    (∀ (q : Nat),
       q < member.n →
         (q, 8) ∈ ((securing { points := [4, 2], armed := some 8, reported := [(0, 8), (1, 8)] : Securing } []).saggar 1).sec.reported) ∧
    ((securing { points := [4, 2], armed := some 8, reported := [(0, 8), (1, 8)] : Securing } []).saggar 1).sec.stallCmd = none :=
  by and_intros <;> first | decide +kernel | rfl

def halfPiece : Packet := { dest := 0, src := 1, kind := 6, guild := 5, v := 8, addr := 65536, data := [7] }
theorem witness_DebugAndSecuringEvents_half :
    memRuns
        { pending := (securing { : Securing } [(9, 0, halfPiece)]).pending,
          freeCtr := (securing { : Securing } [(9, 0, halfPiece)]).freeCtr,
          nextId := (securing { : Securing } [(9, 0, halfPiece)]).nextId,
          outbox := (securing { : Securing } [(9, 0, halfPiece)]).outbox, fuse := (securing { : Securing } [(9, 0, halfPiece)]).fuse,
          hub := (securing { : Securing } [(9, 0, halfPiece)]).hub, oob := (securing { : Securing } [(9, 0, halfPiece)]).oob,
          img := (securing { : Securing } [(9, 0, halfPiece)]).img, flash := (securing { : Securing } [(9, 0, halfPiece)]).flash,
          time := (securing { : Securing } [(9, 0, halfPiece)]).time, wheels := (securing { : Securing } [(9, 0, halfPiece)]).wheels,
          ms := (securing { : Securing } [(9, 0, halfPiece)]).ms, crier := (securing { : Securing } [(9, 0, halfPiece)]).crier,
          front := (securing { : Securing } [(9, 0, halfPiece)]).front,
          rve := { permits := [(1, { kind := 2, unit := 552, full := 2400, held := 2400, known := 2 : Permit })] : Reeve },
          dbg := (securing { : Securing } [(9, 0, halfPiece)]).dbg, host := (securing { : Securing } [(9, 0, halfPiece)]).host,
          link := (securing { : Securing } [(9, 0, halfPiece)]).link, frm := (securing { : Securing } [(9, 0, halfPiece)]).frm,
          fen := (securing { : Securing } [(9, 0, halfPiece)]).fen : State } =
      true ∧
    { pending := (securing { : Securing } [(9, 0, halfPiece)]).pending,
                freeCtr := (securing { : Securing } [(9, 0, halfPiece)]).freeCtr,
                nextId := (securing { : Securing } [(9, 0, halfPiece)]).nextId,
                outbox := (securing { : Securing } [(9, 0, halfPiece)]).outbox,
                fuse := (securing { : Securing } [(9, 0, halfPiece)]).fuse, hub := (securing { : Securing } [(9, 0, halfPiece)]).hub,
                oob := (securing { : Securing } [(9, 0, halfPiece)]).oob, img := (securing { : Securing } [(9, 0, halfPiece)]).img,
                flash := (securing { : Securing } [(9, 0, halfPiece)]).flash,
                time := (securing { : Securing } [(9, 0, halfPiece)]).time,
                wheels := (securing { : Securing } [(9, 0, halfPiece)]).wheels,
                ms := (securing { : Securing } [(9, 0, halfPiece)]).ms, crier := (securing { : Securing } [(9, 0, halfPiece)]).crier,
                front := (securing { : Securing } [(9, 0, halfPiece)]).front,
                rve := { permits := [(1, { kind := 2, unit := 552, full := 2400, held := 2400, known := 2 : Permit })] : Reeve },
                dbg := (securing { : Securing } [(9, 0, halfPiece)]).dbg, host := (securing { : Securing } [(9, 0, halfPiece)]).host,
                link := (securing { : Securing } [(9, 0, halfPiece)]).link, frm := (securing { : Securing } [(9, 0, halfPiece)]).frm,
                fen := (securing { : Securing } [(9, 0, halfPiece)]).fen : State }.link.inbound.find
        9 =
      some (0, halfPiece) ∧
    halfPiece.kind = 6 ∧
    { pending := (securing { : Securing } [(9, 0, halfPiece)]).pending,
            freeCtr := (securing { : Securing } [(9, 0, halfPiece)]).freeCtr,
            nextId := (securing { : Securing } [(9, 0, halfPiece)]).nextId,
            outbox := (securing { : Securing } [(9, 0, halfPiece)]).outbox,
            fuse := (securing { : Securing } [(9, 0, halfPiece)]).fuse, hub := (securing { : Securing } [(9, 0, halfPiece)]).hub,
            oob := (securing { : Securing } [(9, 0, halfPiece)]).oob, img := (securing { : Securing } [(9, 0, halfPiece)]).img,
            flash := (securing { : Securing } [(9, 0, halfPiece)]).flash, time := (securing { : Securing } [(9, 0, halfPiece)]).time,
            wheels := (securing { : Securing } [(9, 0, halfPiece)]).wheels, ms := (securing { : Securing } [(9, 0, halfPiece)]).ms,
            crier := (securing { : Securing } [(9, 0, halfPiece)]).crier,
            front := (securing { : Securing } [(9, 0, halfPiece)]).front,
            rve := { permits := [(1, { kind := 2, unit := 552, full := 2400, held := 2400, known := 2 : Permit })] : Reeve },
            dbg := (securing { : Securing } [(9, 0, halfPiece)]).dbg, host := (securing { : Securing } [(9, 0, halfPiece)]).host,
            link := (securing { : Securing } [(9, 0, halfPiece)]).link, frm := (securing { : Securing } [(9, 0, halfPiece)]).frm,
            fen := (securing { : Securing } [(9, 0, halfPiece)]).fen : State }.guild?
        halfPiece.guild =
      some member ∧
    halfPiece.op = 0 ∧
    leaveKnown
        { pending := (securing { : Securing } [(9, 0, halfPiece)]).pending,
          freeCtr := (securing { : Securing } [(9, 0, halfPiece)]).freeCtr,
          nextId := (securing { : Securing } [(9, 0, halfPiece)]).nextId,
          outbox := (securing { : Securing } [(9, 0, halfPiece)]).outbox, fuse := (securing { : Securing } [(9, 0, halfPiece)]).fuse,
          hub := (securing { : Securing } [(9, 0, halfPiece)]).hub, oob := (securing { : Securing } [(9, 0, halfPiece)]).oob,
          img := (securing { : Securing } [(9, 0, halfPiece)]).img, flash := (securing { : Securing } [(9, 0, halfPiece)]).flash,
          time := (securing { : Securing } [(9, 0, halfPiece)]).time, wheels := (securing { : Securing } [(9, 0, halfPiece)]).wheels,
          ms := (securing { : Securing } [(9, 0, halfPiece)]).ms, crier := (securing { : Securing } [(9, 0, halfPiece)]).crier,
          front := (securing { : Securing } [(9, 0, halfPiece)]).front,
          rve := { permits := [(1, { kind := 2, unit := 552, full := 2400, held := 2400, known := 2 : Permit })] : Reeve },
          dbg := (securing { : Securing } [(9, 0, halfPiece)]).dbg, host := (securing { : Securing } [(9, 0, halfPiece)]).host,
          link := (securing { : Securing } [(9, 0, halfPiece)]).link, frm := (securing { : Securing } [(9, 0, halfPiece)]).frm,
          fen := (securing { : Securing } [(9, 0, halfPiece)]).fen : State }
        2 552 0 ≠
      0 :=
  by and_intros <;> first | decide +kernel | rfl

def attachedSignal : Packet := { dest := 0, src := 1, kind := 6, guild := 5, op := 2, v := 8, count := 1 }
theorem witness_DebugAndSecuringEvents_signal :
    memRuns
        (securing { journal := [{ rank := 1, step := 8, va := 65536, data := [7] : HeldPiece }] : Securing }
          [(9, 0, attachedSignal)]) =
      true ∧
    (securing { journal := [{ rank := 1, step := 8, va := 65536, data := [7] : HeldPiece }] : Securing }
                [(9, 0, attachedSignal)]).link.inbound.find
        9 =
      some (0, attachedSignal) ∧
    attachedSignal.kind = 6 ∧
    (securing { journal := [{ rank := 1, step := 8, va := 65536, data := [7] : HeldPiece }] : Securing }
            [(9, 0, attachedSignal)]).guild?
        attachedSignal.guild =
      some member ∧
    attachedSignal.op = 2 ∧
    (attachedSignal.count ≤
       (List.filter (fun e => e.rank == rankOf member attachedSignal.src && e.step == attachedSignal.v)
           ((securing { journal := [{ rank := 1, step := 8, va := 65536, data := [7] : HeldPiece }] : Securing }
                     [(9, 0, attachedSignal)]).saggar
                 member.saggar).sec.journal).length) :=
  by and_intros <;> first | decide +kernel | rfl

def manifest : PointSave := { point := 8 }
def restoring : RestoreJob := { fn := 0, req := 9, point := 8, rebuilt := true, manifest := some manifest }
theorem witness_DebugAndSecuringEvents_restored :
    memRuns (securing { state := 4, lost := [1], restore := some restoring, restored := [0, 1] : Securing } []) = true ∧ 1 < 4096 ∧
    secGuildOf (securing { state := 4, lost := [1], restore := some restoring, restored := [0, 1] : Securing } []) 1 =
      some (5, member) ∧
    ((securing { state := 4, lost := [1], restore := some restoring, restored := [0, 1] : Securing } []).saggar 1).sec.restore =
      some restoring ∧
    restoring.manifest = some manifest ∧ restoring.rebuilt = true ∧
    (∀ (q : Nat),
       q < member.n →
         q ∈
           ((securing { state := 4, lost := [1], restore := some restoring, restored := [0, 1] : Securing } []).saggar 1).sec.restored) :=
  by and_intros <;> first | decide +kernel | rfl

def snapping (size : Nat) : State :=
  command { saggar with cfg := { secMode := 2, dunobSize := size }, step := 6, sec := { dunob := some { stream := last, pos := 0, n := 7 } } } {} []
theorem witness_DebugAndSecuringEvents_snapshotFull :
    memRuns (snapping (mib + 1)) = true ∧ 1 < 4096 ∧ (snapping (mib + 1)).frozen = false ∧
    ((snapping (mib + 1)).saggar 1).sec.dunob = some { stream := last, pos := 0, n := 7 : DunobJob } ∧
    (∀ (e : Nat × Stream),
       e ∈ streamsOf (snapping (mib + 1)) 1 → e.fst = { stream := last, pos := 0, n := 7 : DunobJob }.stream ∨ allDone e.snd = true) ∧
    (((snapping (mib + 1)).saggar 1).cfg.dunobSize / 2 <
       (1 + (List.map (fun e => e.snd.snd.fst) (dunobPlan 1 ((snapping (mib + 1)).saggar 1).sec.table)).sum) * mib) :=
  by and_intros <;> first | decide +kernel | rfl

theorem witness_DebugAndSecuringEvents_snapshot :
    memRuns (snapping (2 * mib)) = true ∧ 1 < 4096 ∧ (snapping (2 * mib)).frozen = false ∧
    ((snapping (2 * mib)).saggar 1).sec.dunob = some { stream := last, pos := 0, n := 7 : DunobJob } ∧
    (∀ (e : Nat × Stream),
       e ∈ streamsOf (snapping (2 * mib)) 1 → e.fst = { stream := last, pos := 0, n := 7 : DunobJob }.stream ∨ allDone e.snd = true) ∧
    ((snapping (2 * mib)).saggar 1).sec.table = [] ∧ 2 * mib ≤ ((snapping (2 * mib)).saggar 1).cfg.dunobSize ∧
    ((snapping (2 * mib)).saggar 1).cfg.secMode = 2 ∧
    ((snapping (2 * mib)).stream { stream := last, pos := 0, n := 7 : DunobJob }.stream).saggar = 1 :=
  by and_intros <;> first | decide +kernel | rfl

/-- Request 9 of a function, first in its mailbox: a code, and the other bytes that are not zero. -/
def ask (code : Byte) (l : Tab Byte) : Req := { n := 9, body := (List.range 64).map fun i => Tab.get 0 ((0, code) :: l) i }
def asking' (fn : Nat) (r : Req) (s : State) : State := { s with host := { s.host with mbx := [(fn, { inflight := [r] })] } }
def plain : State := command { saggar with cfg := { saggar.cfg with fn := 255 } } {} []
/-- A descriptor of saggar 4095: function 0, both dies' wheel 191 only, one layer, a save area. -/
def descriptor : List Byte := leBytes 2 4095 ++ leBytes 26 (2 * 2 ^ 8) ++ leBytes 4 1 ++ List.replicate 40 0 ++ leBytes 8 65536 ++ List.replicate 96 0 ++ leBytes 24 (2 ^ 191) ++ List.replicate 568 0
def creating : Req := { ask 0x10 [(9, 16)] with data := some descriptor }
theorem witness_MailboxSaggarCommands_create :
    MbxBegins (asking' 0 creating plain) 0 9 16 creating ∧ reqData creating ≠ 0 ∧ creating.noHost = false ∧ creating.data = some descriptor ∧
    ((asking' 0 creating plain).saggar (df descriptor 0 0 12)).st ≠ SagSt.draining :=
  by unfold MbxBegins; and_intros <;> first | decide +kernel | rfl

theorem witness_MailboxSaggarCommands_created :
    MbxBegins (asking' 0 creating plain) 0 9 16 creating ∧ reqData creating ≠ 0 ∧ creating.noHost = false ∧ creating.data = some descriptor ∧
    ((asking' 0 creating plain).saggar (df descriptor 0 0 12)).st ≠ SagSt.draining ∧ createRefusal (asking' 0 creating plain) descriptor = none :=
  by unfold MbxBegins; and_intros <;> first | decide +kernel | rfl

def named (code : Byte) (l : Tab Byte) : Req := ask code ((16, 1) :: l)
theorem witness_MailboxSaggarCommands_destroy :
    MbxBegins (asking' 255 (named 17 []) plain) 255 9 17 (named 17 []) ∧
    ((asking' 255 (named 17 []) plain).saggar (reqSag (named 17 []))).st = SagSt.on :=
  by unfold MbxBegins; and_intros <;> first | decide +kernel | rfl

theorem witness_MailboxSaggarCommands_query :
    MbxBegins (asking' 255 (named 18 []) plain) 255 9 18 (named 18 []) :=
  by unfold MbxBegins; and_intros <;> first | decide +kernel | rfl

theorem witness_MailboxSaggarCommands_scale :
    MbxBegins (asking' 255 (named 19 []) plain) 255 9 19 (named 19 []) :=
  by unfold MbxBegins; and_intros <;> first | decide +kernel | rfl

def newStream : Req := named 0x18 [(20, 255), (21, 255), (22, 255), (23, 255), (24, 4), (33, 16), (41, 32)]
theorem witness_MailboxSaggarCommands_stream :
    MbxBegins (asking' 255 newStream plain) 255 9 24 newStream ∧ streamInvalid newStream.body = false ∧
    (rf newStream 20 0 32 = 4294967295 ∨ ((asking' 255 newStream plain).stream (rf newStream 20 0 32)).st ≠ 3) :=
  by unfold MbxBegins; and_intros <;> first | decide +kernel | rfl

/-- Stream 2^20 − 1 named in a request. -/
def ofLast (code : Byte) (l : Tab Byte) : Req := named code ([(20, 255), (21, 255), (22, 15)] ++ l)
theorem witness_MailboxSaggarCommands_streamDestroy :
    MbxBegins (asking' 255 (ofLast 25 []) plain) 255 9 25 (ofLast 25 []) ∧ rf (ofLast 25 []) 24 0 8 = 0 ∧
    ((asking' 255 (ofLast 25 []) plain).stream (rf (ofLast 25 []) 20 0 32)).st = 1 ∧
    ((asking' 255 (ofLast 25 []) plain).stream (rf (ofLast 25 []) 20 0 32)).saggar = reqSag (ofLast 25 []) :=
  by unfold MbxBegins; and_intros <;> first | decide +kernel | rfl

def faultedStream : State := { plain with front := { plain.front with streams := [(last, { stream { tail := 3, faultCode := 2, layerOpen := true } with st := 2, tail := 3 })] } }
theorem witness_MailboxSaggarCommands_streamReset :
    MbxBegins (asking' 255 (ofLast 26 []) faultedStream) 255 9 26 (ofLast 26 []) ∧
    ((asking' 255 (ofLast 26 []) faultedStream).stream (rf (ofLast 26 []) 20 0 32)).st = 2 ∧
    ((asking' 255 (ofLast 26 []) faultedStream).stream (rf (ofLast 26 []) 20 0 32)).saggar = reqSag (ofLast 26 []) ∧
    ((asking' 255 (ofLast 26 []) faultedStream).stream (rf (ofLast 26 []) 20 0 32)).headWord = 0 :=
  by unfold MbxBegins; and_intros <;> first | decide +kernel | rfl

def mastering : State := { plain with hub := { plain.hub with numVfs := 255 }, host := { fns := [(255, { bme := true })] } }
def fns255 (r : Req) : State := let s := asking' 255 r plain; { s with host := { s.host with fns := [(255, { bme := true })] } }
theorem witness_MailboxSaggarCommands_streamQuery :
    MbxBegins (fns255 (ofLast 27 [(9, 16)])) 255 9 27 (ofLast 27 [(9, 16)]) ∧ rf (ofLast 27 [(9, 16)]) 20 0 32 < 2 ^ 20 ∧
    ((fns255 (ofLast 27 [(9, 16)])).stream (rf (ofLast 27 [(9, 16)]) 20 0 32)).saggar = reqSag (ofLast 27 [(9, 16)]) ∧
    reqData (ofLast 27 [(9, 16)]) ≠ 0 ∧ fnOpen (fns255 (ofLast 27 [(9, 16)])) 255 = true :=
  by unfold MbxBegins; and_intros <;> first | decide +kernel | rfl

def assigning : Req := named 0x20 [(28, 4), (32, 2)]
def nearTierOf (l : Tab Frame) (s : State) : State := { s with img := { modGib := 1 }, ms := { s.ms with frames := l } }
theorem witness_MailboxSaggarCommands_assign :
    MbxBegins (nearTierOf [] (asking' 0 assigning plain)) 0 9 32 assigning ∧
    assignRefusal (nearTierOf [] (asking' 0 assigning plain)) (reqSag assigning) (rf assigning 24 0 64) (rf assigning 32 0 64) = none :=
  by unfold MbxBegins; and_intros <;> first | decide +kernel | rfl

theorem witness_MailboxSaggarCommands_assignRefused :
    MbxBegins (nearTierOf [(2 ^ 18 + 1, { st := FrameSt.owned, owner := 1 : Frame })] (asking' 0 assigning plain)) 0 9 32 assigning ∧
    assignRefusal (nearTierOf [(2 ^ 18 + 1, { st := FrameSt.owned, owner := 1 : Frame })] (asking' 0 assigning plain))
        (reqSag assigning) (rf assigning 24 0 64) (rf assigning 32 0 64) =
      some stNotOwner :=
  by unfold MbxBegins; and_intros <;> first | decide +kernel | rfl

def mapping : Req := named 0x21 [(18, 4), (26, 2), (36, 4), (40, 1)]
def ownFrame (s : State) : State := nearTierOf [(2 ^ 18, { st := .owned, owner := 1 })] s
theorem witness_MailboxSaggarCommands_map :
    MbxBegins (ownFrame (asking' 255 mapping plain)) 255 9 33 mapping ∧
    mapRefusal (ownFrame (asking' 255 mapping plain)) mapping (mapReq mapping) = none :=
  by unfold MbxBegins; and_intros <;> first | decide +kernel | rfl

def unmapping' : Req := named 0x22 [(26, 1), (40, 1)]
theorem witness_MailboxSaggarCommands_unmap :
    MbxBegins (asking' 255 unmapping' plain) 255 9 34 unmapping' ∧ rf unmapping' 40 0 64 ≠ 0 ∧
    leavesFrom ((asking' 255 unmapping' plain).saggar (reqSag unmapping')).maps (rf unmapping' 24 0 64) (rf unmapping' 40 0 64)
        (List.length ((asking' 255 unmapping' plain).saggar (reqSag unmapping')).maps + 1) =
      some
        [(65536,
            { size := page.size, pa := 65536, write := page.write, exec := page.exec, home := page.home, going := page.going :
              Mapping })] ∧
    (∀ (e : Nat × Mapping),
       e ∈
           [(65536,
               { size := page.size, pa := 65536, write := page.write, exec := page.exec, home := page.home, going := page.going :
                 Mapping })] →
         ∀ (b : Nat × Nat),
           b ∈ boundRanges (asking' 255 unmapping' plain) (reqSag unmapping') → ¬(e.fst < b.fst + b.snd ∧ b.fst < e.fst + e.snd.size)) :=
  by unfold MbxBegins; and_intros <;> first | decide +kernel | rfl

def releasing' : Req := named 0x23 [(28, 4), (32, 1)]
theorem witness_MailboxSaggarCommands_release :
    MbxBegins (ownFrame (asking' 255 releasing' plain)) 255 9 35 releasing' ∧
    releaseRefusal (ownFrame (asking' 255 releasing' plain)) (reqSag releasing') (rf releasing' 24 0 64) (rf releasing' 32 0 64) =
      none :=
  by unfold MbxBegins; and_intros <;> first | decide +kernel | rfl

def binding : Req := named 0x28 [(18, 63), (21, 1), (26, 1), (32, 64), (40, 68), (48, 255), (49, 255), (52, 1)]
theorem witness_MailboxSaggarCommands_collector :
    MbxBegins (asking' 255 binding plain) 255 9 40 binding ∧ collRefusal (asking' 255 binding plain) binding = none :=
  by unfold MbxBegins; and_intros <;> first | decide +kernel | rfl

def unbinding' : Req := named 0x29 [(18, 63)]
def collecting' : State := { plain with crier := { colls := [(63, { bound := true, saggar := 1 })] } }
theorem witness_MailboxSaggarCommands_collectorUnbind :
    MbxBegins (asking' 255 unbinding' collecting') 255 9 41 unbinding' ∧ rf unbinding' 18 0 8 < 64 ∧
    ((asking' 255 unbinding' collecting').coll (rf unbinding' 18 0 8)).bound = true ∧
    ((asking' 255 unbinding' collecting').coll (rf unbinding' 18 0 8)).saggar = reqSag unbinding' ∧
    ((asking' 255 unbinding' collecting').coll (rf unbinding' 18 0 8)).unbinding = none :=
  by unfold MbxBegins; and_intros <;> first | decide +kernel | rfl

def ledgering : Req := named 0x2A [(19, 3), (21, 4), (26, 1), (32, 64)]
theorem witness_MailboxSaggarCommands_ledger :
    MbxBegins (asking' 255 ledgering plain) 255 9 42 ledgering ∧ ledgerRefusal (asking' 255 ledgering plain) ledgering = none :=
  by unfold MbxBegins; and_intros <;> first | decide +kernel | rfl

theorem witness_MailboxSaggarCommands_ledgerUnbind :
    MbxBegins (asking' 255 (named 43 []) plain) 255 9 43 (named 43 []) :=
  by unfold MbxBegins; and_intros <;> first | decide +kernel | rfl

def tallied : Req := named 0x2C [(18, 191), (20, 31)]
theorem witness_MailboxSaggarCommands_tally :
    MbxBegins (asking' 0 tallied plain) 0 9 44 tallied ∧ 0 = 0 ∧ rf tallied 18 0 16 < 192 ∧
    (asking' 0 tallied plain).present (rf tallied 18 0 16) = true ∧ rf tallied 20 0 8 < 32 :=
  by unfold MbxBegins; and_intros <;> first | decide +kernel | rfl

def watching : Req := named 0x2D [(18, 63), (20, 1), (30, 1), (38, 1), (32, 9)]
theorem witness_MailboxSaggarCommands_watch :
    MbxBegins (asking' 0 watching plain) 0 9 45 watching ∧ 0 = 0 ∧ rf watching 18 0 8 < 64 :=
  by unfold MbxBegins; and_intros <;> first | decide +kernel | rfl

theorem witness_MailboxModuleCommands_identity :
    MbxBegins (asking' 255 (ask 1 []) plain) 255 9 1 (ask 1 []) ∧ reqData (ask 1 []) = 0 :=
  by unfold MbxBegins; and_intros <;> first | decide +kernel | rfl

theorem witness_MailboxModuleCommands_identityTo :
    MbxBegins (fns255 (ask 1 [(9, 16)])) 255 9 1 (ask 1 [(9, 16)]) ∧ reqData (ask 1 [(9, 16)]) ≠ 0 ∧
    fnOpen (fns255 (ask 1 [(9, 16)])) 255 = true :=
  by unfold MbxBegins; and_intros <;> first | decide +kernel | rfl

theorem witness_MailboxModuleCommands_identityRefused :
    MbxBegins (asking' 255 (ask 1 [(9, 16)]) plain) 255 9 1 (ask 1 [(9, 16)]) ∧ reqData (ask 1 [(9, 16)]) ≠ 0 ∧
    fnOpen (asking' 255 (ask 1 [(9, 16)]) plain) 255 = false :=
  by unfold MbxBegins; and_intros <;> first | decide +kernel | rfl

def guilding : Req := named 0x30 [(18, 6), (20, 1), (24, 2), (33, 16)]
/-- The member list of a guild of modules 7 and 0 at 0x1000. -/
def listing (s : State) : State := { s with ms := { s.ms with mem := [(0x1006, 7)] } }
theorem witness_MailboxModuleCommands_bind :
    MbxBegins (asking' 255 guilding (listing plain)) 255 9 48 guilding ∧
    (asking' 255 guilding (listing plain)).guild? (rf guilding 18 0 16) = none :=
  by unfold MbxBegins; and_intros <;> first | decide +kernel | rfl

theorem witness_MailboxModuleCommands_bound :
    MbxBegins (asking' 255 guilding (listing plain)) 255 9 48 guilding ∧
    (asking' 255 guilding (listing plain)).guild? (rf guilding 18 0 16) = none ∧
    (bindGuild (asking' 255 guilding (listing plain)) guilding.body).fst = stOk :=
  by unfold MbxBegins; and_intros <;> first | decide +kernel | rfl

def leaving' : Req := named 0x31 [(18, 5)]
theorem witness_MailboxModuleCommands_unbind :
    MbxBegins (asking' 255 leaving' plain) 255 9 49 leaving' ∧
    (asking' 255 leaving' plain).guild? (rf leaving' 18 0 16) = some { saggar := 1, rank := 0, n := 2, members := [0, 1] : Guild } ∧
    { saggar := 1, rank := 0, n := 2, members := [0, 1] : Guild }.saggar = reqSag leaving' ∧
    { saggar := 1, rank := 0, n := 2, members := [0, 1] : Guild }.latched = none :=
  by unfold MbxBegins; and_intros <;> first | decide +kernel | rfl

theorem witness_MailboxModuleCommands_setId :
    MbxBegins (asking' 0 (ask 52 [(17, 255)]) plain) 0 9 52 (ask 52 [(17, 255)]) ∧
    (∀ (p : Nat), p < 32 → ((asking' 0 (ask 52 [(17, 255)]) plain).port p).st = PortSt.off) :=
  by unfold MbxBegins; and_intros <;> first | decide +kernel | rfl

def loading' : Req := { ask 0x35 [(9, 16), (16, 1)] with data := some (leBytes 2 65534 ++ List.replicate 14 0) }
theorem witness_MailboxModuleCommands_route :
    MbxBegins (asking' 0 loading' plain) 0 9 53 loading' ∧ rf loading' 16 0 32 = 1 ∧ reqData loading' ≠ 0 ∧ loading'.noHost = false ∧
    loading'.data = some (leBytes 2 65534 ++ List.replicate 14 0) ∧
    routeEntries 1 (leBytes 2 65534 ++ List.replicate 14 0) = [(65534, 0, true)] ∧ (65534, 0, true).snd.snd = true :=
  by unfold MbxBegins; and_intros <;> first | decide +kernel | rfl

theorem witness_MailboxModuleCommands_swap :
    MbxBegins (asking' 0 (ask 54 [(25, 1)]) plain) 0 9 54 (ask 54 [(25, 1)]) ∧
    (asking' 0 (ask 54 [(25, 1)]) plain).gts + 256 ≤ rf (ask 54 [(25, 1)]) 24 0 64 :=
  by unfold MbxBegins; and_intros <;> first | decide +kernel | rfl

def frameBuffers : Req := named 0x38 [(18, 7), (19, 2), (20, 0xC0), (21, 0x12), (34, 128), (44, 32), (48, 4), (52, 32)]
def buffered (s : State) : State := { s with img := (framing {} {}).img, front := { s.front with saggars := [(1, { st := .on, cfg := { fn := 0, rights := BitVec.allOnes 192 }, maps := [(0, { size := 2 ^ 30, pa := 0, write := true }), (2 ^ 37, page)] })] } }
theorem witness_MailboxModuleCommands_flow :
    MbxBegins (buffered (asking' 0 frameBuffers plain)) 0 9 56 frameBuffers ∧ rf frameBuffers 18 0 8 < 8 ∧
    bindRefusal (buffered (asking' 0 frameBuffers plain)) (reqSag frameBuffers) (rf frameBuffers 18 0 8)
        { saggar := reqSag frameBuffers, base := rAddr frameBuffers 24, nbuf := rf frameBuffers 19 0 8,
          bufStride := rAddr frameBuffers 32, lineStride := rf frameBuffers 20 0 32, ready := rAddr frameBuffers 40,
          free := rAddr frameBuffers 48 : FlowBind } =
      none :=
  by unfold MbxBegins; and_intros <;> first | decide +kernel | rfl

theorem witness_MailboxModuleCommands_flowRefused :
    MbxBegins (asking' 0 frameBuffers plain) 0 9 56 frameBuffers ∧ rf frameBuffers 18 0 8 < 8 ∧
    bindRefusal (asking' 0 frameBuffers plain) (reqSag frameBuffers) (rf frameBuffers 18 0 8)
        { saggar := reqSag frameBuffers, base := rAddr frameBuffers 24, nbuf := rf frameBuffers 19 0 8,
          bufStride := rAddr frameBuffers 32, lineStride := rf frameBuffers 20 0 32, ready := rAddr frameBuffers 40,
          free := rAddr frameBuffers 48 : FlowBind } =
      some stInvalid :=
  by unfold MbxBegins; and_intros <;> first | decide +kernel | rfl

theorem witness_MailboxModuleCommands_flowUnbind :
    MbxBegins (asking' 0 (ask 57 [(18, 7)]) plain) 0 9 57 (ask 57 [(18, 7)]) ∧ rf (ask 57 [(18, 7)]) 18 0 8 < 8 ∧
    ((asking' 0 (ask 57 [(18, 7)]) plain).flow (rf (ask 57 [(18, 7)]) 18 0 8)).st = 0 :=
  by unfold MbxBegins; and_intros <;> first | decide +kernel | rfl

def restoreReq : Req := named 0x40 [(18, 255), (19, 255), (20, 255), (21, 255), (22, 255), (23, 255)]
theorem witness_MailboxModuleCommands_restore :
    MbxBegins (asking' 0 restoreReq (securing { state := 3, points := [8, 4], saved := [{ point := 8 : PointSave }] : Securing } []))
      0 9 64 restoreReq ∧
    ((asking' 0 restoreReq (securing { state := 3, points := [8, 4], saved := [{ point := 8 : PointSave }] : Securing } [])).saggar
            (reqSag restoreReq)).cfg.secMode =
      1 ∧
    rf restoreReq 26 0 8 = 0 ∧ (∀ (i : Nat), i < 4 → rf restoreReq (32 + 8 * i) 0 64 = 0) ∧ rf restoreReq 18 0 16 = 65535 ∧
    rf restoreReq 20 0 32 = 4294967295 ∧
    ((asking' 0 restoreReq (securing { state := 3, points := [8, 4], saved := [{ point := 8 : PointSave }] : Securing } [])).saggar
              (reqSag restoreReq)).sec.points.head? =
      some 8 ∧
    restoreRefusal
        (asking' 0 restoreReq (securing { state := 3, points := [8, 4], saved := [{ point := 8 : PointSave }] : Securing } []))
        (reqSag restoreReq) (some 8) [] =
      none :=
  by unfold MbxBegins; and_intros <;> first | decide +kernel | rfl

def downReq : Req := named 0x41 [(18, 1)]
theorem witness_MailboxModuleCommands_down :
    MbxBegins (asking' 0 downReq (securing { state := 2 : Securing } [])) 0 9 65 downReq ∧
    secGuildOf (asking' 0 downReq (securing { state := 2 : Securing } [])) (reqSag downReq) = some (5, member) ∧
    ((asking' 0 downReq (securing { state := 2 : Securing } [])).saggar (reqSag downReq)).cfg.secMode = 1 ∧ rf downReq 18 0 16 < member.n ∧
    rf downReq 18 0 16 ≠ member.rank :=
  by unfold MbxBegins; and_intros <;> first | decide +kernel | rfl

/-- Slot 0 of the snapshot region holds the header of snapshot 5, with no entries. -/
def snapped : State := { plain with
  front := { plain.front with saggars := [(1, { saggar with cfg := { saggar.cfg with fn := 255, secMode := 2 } })] }
  ms := { mem := [(0, 0x31), (1, 0x42), (2, 0x4E), (3, 0x44), (4, 5)] } }
def loadReq : Req := named 0x42 []
theorem witness_MailboxModuleCommands_snapshot :
    MbxBegins (asking' 255 loadReq snapped) 255 9 66 loadReq ∧ ((asking' 255 loadReq snapped).saggar (reqSag loadReq)).cfg.secMode = 2 ∧
    rf loadReq 18 0 8 ≤ 1 ∧ (∀ (e : Nat × Stream), e ∈ streamsOf (asking' 255 loadReq snapped) (reqSag loadReq) → allDone e.snd = true) ∧
    dunobHeader (asking' 255 loadReq snapped) (reqSag loadReq) (rf loadReq 18 0 8) = some (5, []) :=
  by unfold MbxBegins; and_intros <;> first | decide +kernel | rfl

theorem witness_MailboxModuleCommands_reset :
    MbxBegins (asking' 0 (ask 72 []) plain) 0 9 72 (ask 72 []) ∧ (asking' 0 (ask 72 []) plain).hub.flashJobs = [] ∧
    (asking' 0 (ask 72 []) plain).hub.resetHeld = false :=
  by unfold MbxBegins; and_intros <;> first | decide +kernel | rfl

def revoking' (j : Byte) : Req := ask 0x49 [(16, j)]
theorem witness_MailboxModuleCommands_revoke :
    MbxBegins (asking' 0 (revoking' 3) plain) 0 9 73 (revoking' 3) ∧
    revokeStatus (asking' 0 (revoking' 3) plain) (rf (revoking' 3) 16 0 8) = stOk :=
  by unfold MbxBegins; and_intros <;> first | decide +kernel | rfl

theorem witness_MailboxModuleCommands_revokeRefused :
    MbxBegins (asking' 0 (revoking' 4) plain) 0 9 73 (revoking' 4) ∧
    revokeStatus (asking' 0 (revoking' 4) plain) (rf (revoking' 4) 16 0 8) ≠ stOk :=
  by unfold MbxBegins; and_intros <;> first | decide +kernel | rfl

def newer : State := { plain with hub := { plain.hub with svn := 65 } }
theorem witness_MailboxModuleCommands_svn :
    MbxBegins (asking' 0 (ask 74 []) newer) 0 9 74 (ask 74 []) :=
  by unfold MbxBegins; and_intros <;> first | decide +kernel | rfl

def unitBytes : List Byte := List.replicate 65536 7
def writing (slot : Byte) : Req := { ask 0x4B [(9, 16), (16, slot), (26, 1)] with data := some unitBytes }
theorem unit_length : unitBytes.length = 65536 := List.length_replicate ..
theorem begins_first {m : MbxSpec} {s : State} {fn n : Nat} {r : Req} (hf : ((s.mbx fn).inflight.find? fun r => !r.begun) = some r)
    (hc : (!hostUp s || r.n != n || reqCode r != m.code || (s.frozen && !m.query) || (mbxRefusal s fn r m).isSome) = false) :
    begins m s fn n = some r := by
  unfold begins
  rw [hf]
  simp only [hc, Bool.false_eq_true, if_false]
theorem writing_begins (slot : Byte) (h : slot = 1 ∨ slot = 2) : MbxBegins (asking' 0 (writing slot) plain) 0 9 0x4B (writing slot) :=
  And.intro (by decide) (begins_first (by rcases h with h | h <;> subst h <;> rfl) (by rcases h with h | h <;> subst h <;> decide +kernel))
theorem write_taken (slot : Byte) (h : slot = 1 ∨ slot = 2) : ((unitBytes).take (rf (writing slot) 24 0 32)).length = 65536 := by
  have e : rf (writing slot) 24 0 32 = 65536 := by rcases h with h | h <;> subst h <;> decide +kernel
  rw [List.length_take, unit_length, e]; rfl
theorem witness_MailboxModuleCommands_write :
    (asking' 0 (writing 1) plain).hub.flashJobs = [] ∧ MbxBegins (asking' 0 (writing 1) plain) 0 9 75 (writing 1) ∧ reqData (writing 1) ≠ 0 ∧
    (writing 1).noHost = false ∧ (writing 1).data = some unitBytes ∧
    flashRefusal (asking' 0 (writing 1) plain)
        (FlashOp.write (rf (writing 1) 16 0 8) (rf (writing 1) 20 0 32) (List.take (rf (writing 1) 24 0 32) unitBytes) false) =
      none :=
  ⟨by first | decide +kernel | rfl, writing_begins 1 (Or.inl rfl), by first | decide +kernel | rfl, by first | decide +kernel | rfl, rfl, by simp only [flashRefusal, write_taken 1 (Or.inl rfl)]; decide +kernel⟩

theorem witness_MailboxModuleCommands_writeRefused :
    (asking' 0 (writing 2) plain).hub.flashJobs = [] ∧ MbxBegins (asking' 0 (writing 2) plain) 0 9 75 (writing 2) ∧ reqData (writing 2) ≠ 0 ∧
    (writing 2).noHost = false ∧ (writing 2).data = some unitBytes ∧
    flashRefusal (asking' 0 (writing 2) plain)
        (FlashOp.write (rf (writing 2) 16 0 8) (rf (writing 2) 20 0 32) (List.take (rf (writing 2) 24 0 32) unitBytes) false) ≠
      none :=
  ⟨by first | decide +kernel | rfl, writing_begins 2 (Or.inr rfl), by first | decide +kernel | rfl, by first | decide +kernel | rfl, rfl, by simp only [flashRefusal, write_taken 2 (Or.inr rfl)]; decide +kernel⟩

theorem witness_MailboxModuleCommands_select :
    (asking' 0 (ask 76 [(16, 1), (17, 1)]) plain).hub.flashJobs = [] ∧
    MbxBegins (asking' 0 (ask 76 [(16, 1), (17, 1)]) plain) 0 9 76 (ask 76 [(16, 1), (17, 1)]) ∧ rf (ask 76 [(16, 1), (17, 1)]) 17 0 8 ≤ 1 :=
  by unfold MbxBegins; and_intros <;> first | decide +kernel | rfl

theorem witness_MailboxModuleCommands_status :
    (asking' 0 (ask 77 []) plain).hub.flashJobs = [] ∧ MbxBegins (asking' 0 (ask 77 []) plain) 0 9 77 (ask 77 []) :=
  by unfold MbxBegins; and_intros <;> first | decide +kernel | rfl

theorem witness_MailboxModuleCommands_log :
    (asking' 0 (ask 78 [(16, 1), (20, 1)]) plain).hub.flashJobs = [] ∧
    MbxBegins (asking' 0 (ask 78 [(16, 1), (20, 1)]) plain) 0 9 78 (ask 78 [(16, 1), (20, 1)]) :=
  by unfold MbxBegins; and_intros <;> first | decide +kernel | rfl

def tails (h' t : Word) : State := { plain with hub := { plain.hub with numVfs := 255 }, host := { mbx := [(255, { reqHead := h', reqTail := t })] } }
theorem witness_RingsHostAndManagement_tail :
    hostUp (tails 4294967288 4294967295) = true ∧ 255 < 256 ∧ fnExists (tails 4294967288 4294967295) 255 = true ∧
    reached 8 ((tails 4294967288 4294967295).mbx 255).reqTail = true ∧ BitVec.toNat (8 - ((tails 4294967288 4294967295).mbx 255).reqHead) ≤ 16 :=
  by and_intros <;> first | decide +kernel | rfl

theorem witness_RingsHostAndManagement_tailBad :
    hostUp (tails 0 9) = true ∧ 255 < 256 ∧ fnExists (tails 0 9) 255 = true ∧ reached 8 ((tails 0 9).mbx 255).reqTail = false :=
  by and_intros <;> first | decide +kernel | rfl

theorem witness_RingsHostAndManagement_head :
    hostUp (tails 0 9) = true ∧ 255 < 256 ∧ fnExists (tails 0 9) 255 = true ∧ ((tails 0 9).mbx 255).cplWait = [] ∧
    ((tails 0 9).mbx 255).evWait = [] :=
  by and_intros <;> first | decide +kernel | rfl

theorem witness_RingsHostAndManagement_take :
    hostUp (tails 0 1) = true ∧ 255 < 256 ∧ fnExists (tails 0 1) 255 = true ∧ ((tails 0 1).mbx 255).reqHead ≠ ((tails 0 1).mbx 255).reqTail ∧
    ((tails 0 1).mbx 255).inflight = [] :=
  by and_intros <;> first | decide +kernel | rfl

theorem witness_RingsHostAndManagement_master :
    hostUp (tails 0 1) = true ∧ 255 < 256 ∧ fnExists (tails 0 1) 255 = true ∧
    [(255, { bme := true : PciFn })] = Tab.put { : PciFn } (tails 0 1).host.fns 255 { bme := true : PciFn } :=
  by and_intros <;> first | decide +kernel | rfl

def hostReading : HostRead := { id := 4, fn := 255, addr := 4096, len := 64, why := .ring last 0, sent := true }
def hostRead : State := { plain with host := { reads := [hostReading] } }
theorem witness_RingsHostAndManagement_read :
    (List.find? (fun r => r.id == 4 && r.sent) hostRead.host.reads = some hostReading) ∧ hostReading.why = HostReadFor.ring last 0 ∧
    (hostRead.stream last).st ≠ 0 ∧ (List.replicate 64 7).length = 64 :=
  by and_intros <;> first | decide +kernel | rfl

theorem witness_RingsHostAndManagement_unmask :
    2040 < 2041 ∧
    hostUp
        { pending := plain.pending, freeCtr := plain.freeCtr, nextId := plain.nextId, outbox := plain.outbox, fuse := plain.fuse,
          hub := plain.hub, oob := plain.oob, img := plain.img, flash := plain.flash, time := plain.time, wheels := plain.wheels,
          ms := plain.ms, crier := plain.crier, front := plain.front, rve := plain.rve, dbg := plain.dbg,
          host := { msix := [(2040, { masked := true, pending := true : Msix })] : HostPort }, link := plain.link, frm := plain.frm,
          fen := plain.fen : State } =
      true :=
  by and_intros <;> first | decide +kernel | rfl

theorem witness_RingsHostAndManagement_vfs :
    hostUp plain = true ∧ 0 < 255 ∧ 255 < 256 ∧ plain.hub.numVfs = 0 :=
  by and_intros <;> first | decide +kernel | rfl

theorem witness_RingsHostAndManagement_novfs :
    hostUp (tails 0 1) = true :=
  by decide +kernel

theorem witness_RingsHostAndManagement_flr :
    hostUp (tails 0 1) = true ∧ 0 < 255 ∧ 255 < 256 ∧ fnExists (tails 0 1) 255 = true :=
  by and_intros <;> first | decide +kernel | rfl

theorem witness_RingsHostAndManagement_pcie :
    hostUp (tails 0 1) = true :=
  by decide +kernel

def twoUnits : List Byte := List.replicate 131072 7
def programming : State := { plain with hub := { plain.hub with flashJobs := [{ op := .write 1 0 twoUnits true }] } }
theorem witness_RingsHostAndManagement_unit :
    programming.hub.flashJobs = [{ op := FlashOp.write 1 0 twoUnits true : FlashJob }] ∧ programming.hub.resetReq = none ∧
    65536 < twoUnits.length :=
  ⟨rfl, by first | decide +kernel | rfl, by unfold twoUnits; rw [List.length_replicate]; decide⟩

def trusted (o : Oob) : State := { hub := { state := .ready, measured := true }, time := { locked := true }, oob := o }
theorem witness_RingsHostAndManagement_entdaa :
    rotUp (trusted { : Oob }) = true ∧ 127 < 128 :=
  by and_intros <;> first | decide +kernel | rfl

theorem witness_RingsHostAndManagement_mctp :
    rotUp (trusted { : Oob }) = true ∧ 255 < 256 :=
  by and_intros <;> first | decide +kernel | rfl

theorem witness_RingsHostAndManagement_base :
    rotUp (trusted { : Oob }) = true :=
  by decide +kernel

theorem witness_RingsHostAndManagement_fru :
    rotUp (trusted { : Oob }) = true :=
  by decide +kernel

theorem witness_RingsHostAndManagement_state :
    rotUp (trusted { : Oob }) = true :=
  by decide +kernel

theorem witness_RingsHostAndManagement_sensor :
    rotUp (trusted { : Oob }) = true ∧ sensorsUp (trusted { : Oob }) = true :=
  by and_intros <;> first | decide +kernel | rfl

theorem witness_RingsHostAndManagement_noSensor :
    rotUp { : State } = true ∧ sensorsUp { : State } = false :=
  by and_intros <;> first | decide +kernel | rfl

theorem witness_RingsHostAndManagement_pdr :
    rotUp (trusted { : Oob }) = true ∧ 15 < 16 :=
  by and_intros <;> first | decide +kernel | rfl

theorem witness_RingsHostAndManagement_effecter :
    rotUp (trusted { : Oob }) = true :=
  by decide +kernel

theorem witness_RingsHostAndManagement_update :
    rotUp (trusted { : Oob }) = true ∧ 1 ≤ 2 ∧ 2 ≤ 2 ∧ 0 % 65536 = 0 ∧ 65536 % 65536 = 0 ∧ 0 < 65536 ∧ 65536 ≤ 2 ^ 20 ∧ 0 + 65536 ≤ slotBytes ∧
    (trusted { : Oob }).hub.state ≠ ModSt.loading ∧ slotInForce (trusted { : Oob }) ≠ some (2 - 1) :=
  by and_intros <;> first | decide +kernel | rfl

theorem witness_RingsHostAndManagement_transfer :
    rotUp (trusted { update := some (1, 0, 65536) : Oob }) = true ∧
    (trusted { update := some (1, 0, 65536) : Oob }).oob.update = some (1, 0, unitBytes.length) ∧
    (trusted { update := some (1, 0, 65536) : Oob }).hub.flashJobs = [] ∧
    flashRefusal (trusted { update := some (1, 0, 65536) : Oob }) (FlashOp.write 1 0 unitBytes false) = none :=
  ⟨by first | decide +kernel | rfl, by rw [unit_length]; decide +kernel, by first | decide +kernel | rfl, by simp only [flashRefusal, unit_length]; decide +kernel⟩

theorem witness_RingsHostAndManagement_activate :
    rotUp (trusted { updated := some 1 : Oob }) = true ∧ (trusted { updated := some 1 : Oob }).oob.updated = some 1 ∧ 1 ≤ 1 ∧
    (trusted { updated := some 1 : Oob }).hub.state ≠ ModSt.loading ∧ (trusted { updated := some 1 : Oob }).hub.flashJobs = [] :=
  by and_intros <;> first | decide +kernel | rfl

theorem witness_RingsHostAndManagement_version :
    rotUp (trusted { : Oob }) = true :=
  by decide +kernel

theorem witness_RingsHostAndManagement_algorithms :
    rotUp (trusted { : Oob }) = true :=
  by decide +kernel

theorem witness_RingsHostAndManagement_capabilities :
    rotUp (trusted { : Oob }) = true :=
  by decide +kernel

theorem witness_RingsHostAndManagement_digests :
    rotUp (trusted { : Oob }) = true :=
  by decide +kernel

theorem witness_RingsHostAndManagement_certificate :
    rotUp (trusted { : Oob }) = true :=
  by decide +kernel

theorem witness_RingsHostAndManagement_challenge :
    rotUp (trusted { : Oob }) = true :=
  by decide +kernel

theorem witness_RingsHostAndManagement_measure :
    rotUp (trusted { : Oob }) = true ∧ 1 ≤ 5 ∧ 5 ≤ 5 ∧ (trusted { : Oob }).hub.measured = true :=
  by and_intros <;> first | decide +kernel | rfl

theorem witness_RegisterWrites_scratch :
    hostUp plain = true ∧ 3 < 4 :=
  by and_intros <;> first | decide +kernel | rfl

theorem witness_RegisterWrites_hole :
    hostUp plain = true ∧ 262143 < 262144 :=
  by and_intros <;> first | decide +kernel | rfl

theorem witness_RegisterWrites_int :
    hostUp
        { pending := plain.pending, freeCtr := plain.freeCtr, nextId := plain.nextId, outbox := plain.outbox, fuse := plain.fuse,
          hub := plain.hub, oob := plain.oob, img := plain.img, flash := plain.flash, time := plain.time, wheels := plain.wheels,
          ms := plain.ms, crier := plain.crier, front := plain.front, rve := plain.rve, dbg := plain.dbg, host := plain.host,
          link := plain.link, frm := plain.frm, fen := { intStatus := 15 : FenceCtl } : State } =
      true :=
  by decide +kernel

theorem witness_RegisterWrites_enable :
    hostUp plain = true :=
  by decide +kernel

theorem witness_RegisterWrites_recover :
    hostUp plain = true :=
  by decide +kernel

theorem witness_RegisterWrites_port :
    hostUp plain = true ∧ 31 < 32 :=
  by and_intros <;> first | decide +kernel | rfl

theorem witness_RegisterWrites_flow :
    hostUp plain = true ∧ 7 < 8 :=
  by and_intros <;> first | decide +kernel | rfl

theorem witness_RegisterWrites_granary :
    hostUp plain = true ∧ hasGrn plain 3 = true :=
  by and_intros <;> first | decide +kernel | rfl

def five : DWord := 5
theorem witness_RegisterWrites_wheel :
    hostUp plain = true ∧ 191 < 192 ∧ plain.present 191 = true ∧ BitVec.getLsbD five 1 = false :=
  by and_intros <;> first | decide +kernel | rfl

theorem witness_RegisterWrites_absent :
    hostUp
        { pending := plain.pending, freeCtr := plain.freeCtr, nextId := plain.nextId, outbox := plain.outbox,
          fuse := { absent := BitVec.ofNat 192 (2 ^ 191) : Fuse }, hub := plain.hub, oob := plain.oob, img := plain.img,
          flash := plain.flash, time := plain.time, wheels := plain.wheels, ms := plain.ms, crier := plain.crier,
          front := plain.front, rve := plain.rve, dbg := plain.dbg, host := plain.host, link := plain.link, frm := plain.frm,
          fen := plain.fen : State } =
      true ∧
    191 < 192 ∧
    { pending := plain.pending, freeCtr := plain.freeCtr, nextId := plain.nextId, outbox := plain.outbox,
            fuse := { absent := BitVec.ofNat 192 (2 ^ 191) : Fuse }, hub := plain.hub, oob := plain.oob, img := plain.img,
            flash := plain.flash, time := plain.time, wheels := plain.wheels, ms := plain.ms, crier := plain.crier,
            front := plain.front, rve := plain.rve, dbg := plain.dbg, host := plain.host, link := plain.link, frm := plain.frm,
            fen := plain.fen : State }.present
        191 =
      false ∧
    65532 < 65536 ∧ 65532 % 4 = 0 :=
  by and_intros <;> first | decide +kernel | rfl

theorem witness_RegisterWrites_tally :
    hostUp plain = true ∧ 63 < 64 :=
  by and_intros <;> first | decide +kernel | rfl

theorem witness_RegisterWrites_stopAt :
    hostUp plain = true :=
  by decide +kernel

theorem witness_RegisterWrites_vf :
    hostUp plain = true ∧ 0 < 255 ∧ 255 < 256 ∧ 528 % 4 = 0 :=
  by and_intros <;> first | decide +kernel | rfl

theorem witness_RegisterWrites_reqTail :
    hostUp (tails 0 0) = true ∧ 255 < 256 ∧ fnExists (tails 0 0) 255 = true :=
  by and_intros <;> first | decide +kernel | rfl

theorem witness_RegisterWrites_cplHead :
    hostUp (tails 0 0) = true ∧ 255 < 256 ∧ fnExists (tails 0 0) 255 = true :=
  by and_intros <;> first | decide +kernel | rfl

theorem witness_RegisterWrites_doorbell :
    hostUp (tails 0 0) = true ∧ 255 < 256 ∧ fnExists (tails 0 0) 255 = true ∧ 262079 < 262080 :=
  by and_intros <;> first | decide +kernel | rfl

theorem witness_RegisterWrites_slots :
    hostUp (tails 0 0) = true ∧ 255 < 256 ∧ fnExists (tails 0 0) 255 = true ∧ 511 < 512 :=
  by and_intros <;> first | decide +kernel | rfl

def four : DWord := 4
theorem witness_RegisterWrites_msix :
    hostUp plain = true ∧ 255 < 256 ∧ BitVec.getLsbD four 0 = false :=
  by and_intros <;> first | decide +kernel | rfl

/-- Bytes listed from an address on. -/
def run : Nat → List Byte → Tab Byte
  | _, [] => []
  | a, b :: l => (a, b) :: run (a + 1) l

theorem get_run (d : Byte) (l : List Byte) : ∀ (a k : Nat), k < l.length → Tab.get d (run a l) (a + k) = l.getD k d := by
  induction l with
  | nil => intro a k h; simp at h
  | cons b l ih =>
    intro a k h
    cases k with
    | zero => simp [run, Tab.get, Tab.find]
    | succ k =>
      have e := ih (a + 1) k (by simpa using h)
      rw [show a + 1 + k = a + (k + 1) by omega] at e
      simp only [run, Tab.get, Tab.find] at e ⊢
      rw [if_neg (by omega)]
      simpa using e

theorem flashBytes_run {s : State} {a : Nat} {l : List Byte} (hs : s.flash = run a l) :
    ∀ (n k : Nat), k + n ≤ l.length → flashBytes s (a + k) n = (l.drop k).take n := by
  intro n
  induction n with
  | zero => intro k _; simp [flashBytes]
  | succ n ih =>
    intro k h
    rw [flashBytes, hs, get_run _ _ _ _ (by omega), Nat.add_assoc, ih (k + 1) (by omega)]
    conv => rhs; rw [List.drop_eq_getElem_cons (by omega : k < l.length), List.take_succ_cons]
    simp [List.getD, List.getElem?_eq_getElem (by omega : k < l.length)]

theorem get_below (d : Byte) (l : List Byte) : ∀ (a k : Nat), k < a → Tab.get d (run a l) k = d := by
  induction l with
  | nil => intro a k _; rfl
  | cons b l ih =>
    intro a k h
    have e := ih (a + 1) k (by omega)
    simp only [run, Tab.get, Tab.find] at e ⊢
    rw [if_neg (by omega)]
    exact e

theorem flashBytes_below {s : State} {a : Nat} {l : List Byte} (hs : s.flash = run a l) :
    ∀ (n k : Nat), k + n ≤ a → flashBytes s k n = List.replicate n 0xFF := by
  intro n
  induction n with
  | zero => intro k _; rfl
  | succ n ih =>
    intro k h
    rw [flashBytes, hs, get_below _ _ _ _ (by omega), ih (k + 1) (by omega)]
    rfl

/-- An image in slot 0: a header with the sections MODULE and HUB_CODE, and the MODULE section. -/
def imageBytes : List Byte :=
  leBytes 4 0x4F5A5849 ++ leBytes 2 1 ++ leBytes 2 2 ++ leBytes 4 67776 ++ leBytes 4 3 ++ List.replicate 8 0 ++ [1] ++ List.replicate 103 0 ++
  leBytes 4 1 ++ leBytes 4 2048 ++ leBytes 4 64 ++ leBytes 4 0 ++ leBytes 4 10 ++ leBytes 4 2112 ++ leBytes 4 65536 ++ leBytes 4 0 ++
  List.replicate 1888 0 ++
  leBytes 4 0x100 ++ leBytes 4 0 ++ leBytes 4 256 ++ leBytes 4 64 ++ leBytes 4 4000 ++ [26, 0, 1, 0, 0, 0, 1, 0, 8, 2] ++ List.replicate 34 0 ++
  leBytes 8 77

def image : State :=
  { hub := { state := .loading, pwrGood := true }, time := { locked := true }, fuse := { provisioned := 1 }, flash := run 0x100000 imageBytes }

theorem image_flash : image.flash = run (slotBase 0) imageBytes := id rfl
theorem image_header : flashBytes image (slotBase 0) 2048 = imageBytes.take 2048 := by
  have h := flashBytes_run image_flash 2048 0 (by decide +kernel)
  rw [Nat.add_zero, List.drop_zero] at h
  exact h
theorem image_module : flashBytes image (slotBase 0 + 2048) 64 = (imageBytes.drop 2048).take 64 := flashBytes_run image_flash 64 2048 (by decide +kernel)
theorem image_hub : flashBytes image (slotBase 0 + 2112) 8 = (imageBytes.drop 2112).take 8 := flashBytes_run image_flash 8 2112 (by decide +kernel)

theorem erased_crc : crc32 ((List.replicate 64 (0xFF : Byte)).take 60) ≠ lf (List.replicate 64 0xFF) 60 4 := by decide +kernel
theorem image_dir0 : dirBytes image 0 = List.replicate 64 0xFF := by
  unfold dirBytes
  exact flashBytes_below image_flash _ _ (by decide)
theorem image_dir1 : dirBytes image 1 = List.replicate 64 0xFF := by
  unfold dirBytes
  exact flashBytes_below image_flash _ _ (by decide)
theorem no_copy {s : State} {n : Nat} (h : dirBytes s n = List.replicate 64 0xFF) : dirCopy s n = none := by
  unfold dirCopy
  rw [h]
  exact if_pos erased_crc
theorem dir_lost {s : State} (h : dirCopy s 0 = none) (k : dirCopy s 1 = none) : dirNow s = { lost := true } := by
  unfold dirNow
  rw [h, k]
theorem image_dir : dirNow image = { lost := true } := dir_lost (no_copy image_dir0) (no_copy image_dir1)

theorem image_table : (List.range (lf (imageBytes.take 2048) 6 2)).map (sectionEntry (imageBytes.take 2048)) =
    [(1, 2048, 64, true), (10, 2112, 65536, true)] := by decide +kernel
theorem image_sections : sectionsOf image 0 =
    { module := (imageBytes.drop 2048).take 64, reeve := reeveDefault, time := none, links := linksDefault, eth := [], routes := [], flows := []
      res := [], groups := [], hubCode := (imageBytes.drop 2112).take 8 } := by
  simp only [sectionsOf, sectionOf, image_header, image_table, List.find?, Nat.reduceBEq, Option.map_some, Option.map_none, Nat.reduceEqDiff,
    if_false, if_true, image_module, image_hub]
  rfl
theorem image_check : checkSlot image 0 {} = 0 := by
  unfold checkSlot
  rw [image_sections, image_header]
  decide +kernel
theorem image_chosen : (chooseSlot image {} (slotOrder (dirNow image))).1 = some 0 := by
  rw [image_dir]
  simp only [slotOrder, chooseSlot, Bool.false_eq_true, if_false, if_true, image_check]

theorem chosen_pair {s : State} {f : LoadFacts} {l : List Nat} {n : Nat} (h : (chooseSlot s f l).1 = some n) :
    chooseSlot s f l = (some n, (chooseSlot s f l).2) := by
  rw [← h]
theorem no_try {s : State} {d : Dir} (h : dirNow s = d) (k : d.tryValid = false := by rfl) : (dirNow s).tryValid = false := by rw [h, k]
theorem witness_PowerAndStart_loaded :
    image.hub.state = .loading ∧ image.awake = true ∧ ({} : LoadFacts).flashOk = true ∧
    chooseSlot image {} (slotOrder (dirNow image)) = (some 0, (chooseSlot image {} (slotOrder (dirNow image))).2) ∧
    (dirNow image).tryValid = false :=
  ⟨rfl, by decide +kernel, rfl, chosen_pair image_chosen, no_try image_dir⟩

/-! ### Every check of `wellFormed` refuses a term that breaks it -/

theorem test_wf_issueWheel : wellFormed (.add { ins 0 0 0 0 with wheel := 192 }) = false := by decide
theorem test_wf_issueSlot : wellFormed (.trav { ins 0 0 0 0 with slot := 64 }) = false := by decide
theorem test_wf_issuePath : wellFormed (.nop { ins 0 0 0 0 with path := 32 }) = false := by decide
theorem test_wf_stream : wellFormed (.launch 1048576) = false := by decide
theorem test_wf_wheel : wellFormed (.crewStart 192) = false := by decide
theorem test_wf_droopPeriod : wellFormed (.droop 0 3) = false ∧ wellFormed (.droop 0 17) = false := by decide
theorem test_wf_bell : wellFormed (.bellTimeout 0 0 4) = false ∧ wellFormed (.bellTimeout 0 64 0) = false := by decide
theorem test_wf_convergence : wellFormed (.mxConvergenceTimeout 0 64) = false := by decide
theorem test_wf_gbell : wellFormed (.gbellTimeout 4096 0) = false ∧ wellFormed (.gbellTimeout 0 4096) = false := by decide
theorem test_wf_collector : wellFormed (.collectorCycle 64) = false := by decide
theorem test_wf_doorbell : wellFormed (.doorbellWrite 256 0 0 false) = false ∧ wellFormed (.doorbellWrite 0 262080 0 false) = false := by decide
theorem test_wf_saggar : wellFormed (.saggarDrainEnd 4096) = false := by decide
theorem test_wf_gatherSlot : wellFormed (.gatherRelease 1048576) = false ∧ wellFormed (.gatherReleaseEffect 0 5) = false := by decide
theorem test_wf_guild : wellFormed (.guildDrainEnd 65536) = false := by decide
theorem test_wf_hbmStack : wellFormed (.hbmScrub 8 []) = false := by decide
theorem test_wf_errorUnit : wellFormed (.errorWindowEnd 13 0) = false ∧ wellFormed (.errorWindowEnd 0 4096) = false := by decide
theorem test_wf_pc : wellFormed (.pcMigrationEnd 512 []) = false := by decide
theorem test_wf_slice : wellFormed (.sliceTransferEnd 128 []) = false := by decide
theorem test_wf_granary : wellFormed (.grnPortEnable 4) = false := by decide
theorem test_wf_flow : wellFormed (.frameEdge 8) = false := by decide
theorem test_wf_reservation : wellFormed (.reservationStart 16) = false := by decide
theorem test_wf_flit : wellFormed (.flitReceive 24 {}) = false ∧ wellFormed (.flitReceive 0 { seq := 4096 }) = false ∧
    wellFormed (.flitReceive 0 { ackSeq := 4096 }) = false := by decide
theorem test_wf_port : wellFormed (.lnkPortEnable 32) = false := by decide
theorem test_wf_datagram : wellFormed (.ethDatagramReceive 23 datagram) = false ∧ wellFormed (.ethDatagramReceive 31 { datagram with module := 65536 }) = false := by decide
theorem test_wf_module : wellFormed (.congestionRaise 65536) = false := by decide
theorem test_wf_cartridge : wellFormed (.coneWrite 8) = false ∧ wellFormed (.cmisFault 0 256 0) = false := by decide
theorem test_wf_power : wellFormed (.powerWindow 65536 0) = false ∧ wellFormed (.mainInputFault 65536) = false := by decide
theorem test_wf_thermal : wellFormed (.thermalWindow 256 0 0 0) = false ∧ wellFormed (.thermalTrip 3 0) = false := by decide
theorem test_wf_strap : wellFormed (.modResetRelease 8) = false := by decide
theorem test_wf_report : wellFormed (.errorReport { kind := 13, index := 0, etype := 0 }) = false := by decide
theorem test_wf_tally : wellFormed (.tallyWrite 193 0 0) = false ∧ wellFormed (.tallyWrite 191 32 0) = false ∧ wellFormed (.tallyWrite 192 64 0) = false := by decide
theorem test_wf_fn : wellFormed (.mbxTake 256) = false := by decide
theorem test_wf_vfs : wellFormed (.vfEnableSet 0) = false ∧ wellFormed (.vfEnableSet 256) = false := by decide
theorem test_wf_vector : wellFormed (.msixUnmask 2041) = false := by decide
theorem test_wf_management : wellFormed (.mctpSetEndpointId 256) = false ∧ wellFormed (.entdaa 128) = false ∧ wellFormed (.pldmGetPdr 16) = false ∧
    wellFormed (.pldmGetSensorReading 0) = false ∧ wellFormed (.getMeasurements 256) = false := by decide
theorem test_wf_register : wellFormed (.registerWrite 1 0 0 false 0) = false ∧ wellFormed (.registerWrite 0 0 67108864 false 0) = false ∧
    wellFormed (.registerWrite 0 0 4 true 0) = false := by decide
theorem test_wf_ok : wellFormed (.add (ins 255 255 255 0xFFFFFF)) = true ∧ wellFormed (.tallyWrite 192 63 0) = true := by decide

/-! ### Results, from the spec's own words or by hand from them -/

/-- The state a command leaves. -/
def after (o : Host.Outcome State Fault Refusal) : State :=
  match o with
  | .next t => t
  | _ => {}
/-- Register `r` of thread 31 of the crew once an instruction has run with these registers. -/
def result (k : Instr) (rs : Tab Word) (r : Nat) : Word :=
  (((after (exec k (module (crew (rs.map fun e => (31 * 256 + e.1, e.2)))))).crew? 191 63).map fun c => reg c 31 r).getD 0

/-- 03: 32-bit results wrap. -/
theorem test_add_wraps : result (.add (ins 3 1 2 0)) [(1, 0xFFFFFFFF), (2, 2)] 3 = 1 := by decide +kernel
/-- 03: MUL.HI is signed, MUL.HIU is not. -/
theorem test_mulHi : result (.mulHi (ins 3 1 2 0)) [(1, 0xFFFFFFFF), (2, 2)] 3 = 0xFFFFFFFF := by decide +kernel
theorem test_mulHiu : result (.mulHiu (ins 3 1 2 0)) [(1, 0xFFFFFFFF), (2, 2)] 3 = 1 := by decide +kernel
/-- 03: a divisor of zero gives 0xFFFF_FFFF, −2^31 / −1 gives 0x8000_0000, the quotient truncates toward zero. -/
theorem test_div_zero : result (.div (ins 3 1 2 0)) [(1, 7)] 3 = 0xFFFFFFFF := by decide +kernel
theorem test_div_truncates : result (.div (ins 3 1 2 0)) [(1, 0xFFFFFFF9), (2, 2)] 3 = 0xFFFFFFFD := by decide +kernel
/-- Destination and source may be one register. -/
theorem test_sub_inPlace : result (.sub (ins 1 1 2 0)) [(1, 3), (2, 5)] 1 = 0xFFFFFFFE := by decide +kernel
theorem test_clz_zero : result (.clz (ins 3 1 0 0)) [] 3 = 32 := by decide +kernel
theorem test_popc : result (.popc (ins 3 1 0 0)) [(1, 0xF000000F)] 3 = 8 := by decide +kernel
/-- 1.0 + 2.0 = 3.0, and 1.0 × 2.0 + 3.0 = 5.0 in FP32. -/
theorem test_fadd : result (.fadd (ins 3 1 2 0)) [(1, 0x3F800000), (2, 0x40000000)] 3 = 0x40400000 := by decide +kernel
/-- A NaN result is the canonical one. -/
theorem test_fsub_nan : result (.fsub (ins 3 1 2 0)) [(1, 0x7F800000), (2, 0x7F800000)] 3 = 0x7FC00000 := by decide +kernel
/-- 1.0 in FP32 is 0x38 in FP8 E4M3: exponent 7, fraction 0. -/
theorem test_cvt_e4m3 : result (.cvt (ins 3 1 0 (1 * 2 ^ 18 + 6 * 2 ^ 12))) [(1, 0x3F800000)] 3 % 256 = 0x38 := by decide +kernel
/-- 20 R622 ff.: the scratch registers keep what was written, holes read nothing in. -/
theorem test_scratch : (after (exec (.registerWrite 0 0 0x210 false 0x1234) plain)).hub.scratch = [(0, 0x1234)] := by decide +kernel
theorem test_hole : exec (.registerWrite 0 0 0x1FFFFC false 1) plain = .next plain := by rfl
/-- 02: one tick advances GTS by one. -/
theorem test_tick : (after (step (serving {}))).time.gts = 1 := by decide +kernel
/-- A wheel that the module does not have does nothing. -/
theorem test_missingWheel : exec (.crewStart 192) plain = .next plain := by rfl

/-! ### Instruction words, field by field from the tables of 03 R122 to R124 and R103, 04 R162, 05 R214, 06 R253, 07 R288, 10 R392 -/

/-- A path's instruction with the fields of the words below: guard p5 negated, DA 131, SA 66, SB 36, X 0xABCDE1. -/
def field : Issue := { ins 131 66 36 0xABCDE1 with pg := 5, pn := true }
theorem test_word_sel : wordCommand 191 63 31 0b0000000100111011100000110100001000100100101010111100110111100001 = some (.sel field) := by decide +kernel
theorem test_word_ori : wordCommand 191 63 31 0b0000010000101011100000110100001000100100101010111100110111100001 = some (.ori field) := by decide +kernel
theorem test_word_ffma : wordCommand 191 63 31 0b0000100001011011100000110100001000100100101010111100110111100001 = some (.ffma field) := by decide +kernel
theorem test_word_dfma : wordCommand 191 63 31 0b0000110000101011100000110100001000100100101010111100110111100001 = some (.dfma field) := by decide +kernel
theorem test_word_fsetp : wordCommand 191 63 31 0b0001000000011011100000110100001000100100101010111100110111100001 = some (.fsetp field) := by decide +kernel
theorem test_word_call : wordCommand 191 63 31 0b0001010000101011100000110100001000100100101010111100110111100001 = some (.call field) := by decide +kernel
theorem test_word_ld : wordCommand 191 63 31 0b0001100000001011100000110100001000100100101010111100110111100001 = some (.ld field) := by decide +kernel
theorem test_word_atomCas : wordCommand 191 63 31 0b0001110001111011100000110100001000100100101010111100110111100001 = some (.atomCas field) := by decide +kernel
theorem test_word_cvt : wordCommand 191 63 31 0b0010000000001011100000110100001000100100101010111100110111100001 = some (.cvt field) := by decide +kernel
theorem test_word_sreg : wordCommand 191 63 31 0b0010010000011011100000110100001000100100101010111100110111100001 = some (.sreg field) := by decide +kernel
theorem test_word_mxh : wordCommand 191 63 31 0b0100000000011011100000110100001000100100101010111100110111100001 = some (.mxh field) := by decide +kernel
theorem test_word_tzero : wordCommand 191 63 31 0b0100010000101011100000110100001000100100101010111100110111100001 = some (.tzero field) := by decide +kernel
theorem test_word_accRed : wordCommand 191 63 31 0b0100100001001011100000110100001000100100101010111100110111100001 = some (.accRed field) := by decide +kernel
theorem test_word_vgetvl : wordCommand 191 63 31 0b0110000000011011100000110100001000100100101010111100110111100001 = some (.vgetvl field) := by decide +kernel
theorem test_word_vchain : wordCommand 191 63 31 0b0110010000001011100000110100001000100100101010111100110111100001 = some (.vchain field) := by decide +kernel
theorem test_word_vred : wordCommand 191 63 31 0b0110100000001011100000110100001000100100101010111100110111100001 = some (.vred field) := by decide +kernel
theorem test_word_trav : wordCommand 191 63 31 0b0111000000001011100000110100001000100100101010111100110111100001 = some (.trav field) := by decide +kernel
theorem test_word_acread : wordCommand 191 63 31 0b1000000000111011100000110100001000100100101010111100110111100001 = some (.acread field) := by decide +kernel
theorem test_word_sigw : wordCommand 191 63 31 0b1000010000011011100000110100001000100100101010111100110111100001 = some (.sigw field) := by decide +kernel
theorem test_word_bellGwait : wordCommand 191 63 31 0b1000100101001011100000110100001000100100101010111100110111100001 = some (.bellGwait field) := by decide +kernel
theorem test_word_opt : wordCommand 191 63 31 0b1001000000001011100000110100001000100100101010111100110111100001 = some (.opt field) := by decide +kernel
theorem test_word_gacc : wordCommand 191 63 31 0b1001010000001011100000110100001000100100101010111100110111100001 = some (.gacc field) := by decide +kernel
theorem test_word_uscaleSet : wordCommand 191 63 31 0b1001100000011011100000110100001000100100101010111100110111100001 = some (.uscaleSet field) := by decide +kernel
/-- Class 0x27, and OP 0x3F of class 0x00, name no instruction. -/
theorem test_word_unassigned : wordCommand 191 63 31 (0x27#6 ++ 0#58) = none ∧ wordCommand 191 63 31 (0x00#6 ++ 0x3F#6 ++ 0#52) = none := by decide +kernel

end Sys2Proof.Tests
end

section
/-! ## What every command does: it answers a next state, leaves the queue alone and undoes no fuse (00 R5, 15 R536, R537) -/
namespace Sys2Proof.Machine

theorem fuseKept_refl (a : Fuse) : fuseKept a a := ⟨rfl, rfl, rfl, rfl, BitVec.and_self, Nat.le_refl _⟩

theorem fuseKept_trans {a b c : Fuse} (h : fuseKept a b) (g : fuseKept b c) : fuseKept a c := by
  obtain ⟨h1, h2, h3, h4, h5, h6⟩ := h
  obtain ⟨g1, g2, g3, g4, g5, g6⟩ := g
  refine ⟨g1.trans h1, g2.trans h2, g3.trans h3, g4.trans h4, ?_, Nat.le_trans h6 g6⟩
  calc a.revoked &&& c.revoked = a.revoked &&& (b.revoked &&& c.revoked) := by rw [← BitVec.and_assoc, h5]
    _ = a.revoked := by rw [g5, h5]

/-- KEY_REVOKE only blows revocation fuses (15 R536). -/
theorem fuseKept_revokedFuse (s : State) (fn req : Nat) : fuseKept s.fuse (revokedFuse s fn req) := by
  have blown (m : BitVec 4) : fuseKept s.fuse { s.fuse with revoked := s.fuse.revoked ||| m } := by
    refine ⟨rfl, rfl, rfl, rfl, ?_, Nat.le_refl _⟩
    ext j hj
    simp only [BitVec.getElem_and, BitVec.getElem_or]
    cases s.fuse.revoked[j] <;> rfl
  unfold revokedFuse
  split
  · split
    · exact blown _
    · exact fuseKept_refl _
  · exact fuseKept_refl _

/-- CONFIG_COMMIT_SVN only raises the minimum (15 R537). -/
theorem fuseKept_committedFuse (s : State) (fn req : Nat) : fuseKept s.fuse (committedFuse s fn req) := by
  unfold committedFuse
  split
  · exact ⟨rfl, rfl, rfl, rfl, BitVec.and_self, Nat.le_max_left _ _⟩
  · exact fuseKept_refl _

/-- `o` is a next state, with the waiting commands of `s`, in which no fuse of `s` is undone. -/
def Runs (s : State) (o : Out) : Prop := ∃ t, o = .next t ∧ t.pending = s.pending ∧ fuseKept s.fuse t.fuse

theorem commit_runs (s t : State) : Runs s (commit s t) := ⟨_, rfl, rfl, fuseKept_refl _⟩

theorem Runs.thenDo {s : State} {o : Out} {f : State → Out} (h : Runs s o) (hf : ∀ t, Runs t (f t)) : Runs s (thenDo o f) := by
  obtain ⟨t, rfl, hp, hk⟩ := h
  obtain ⟨u, hu, hq, hl⟩ := hf t
  exact ⟨u, hu, hq.trans hp, fuseKept_trans hk hl⟩

/-- Both ways of a choice run. -/
theorem runs_ite {s : State} {p : Prop} [Decidable p] {a b : Out} (ha : Runs s a) (hb : Runs s b) : Runs s (if p then a else b) := by
  split
  · exact ha
  · exact hb

theorem execKeyRevoke_runs (fn req : Nat) (s : State) : Runs s (execKeyRevoke fn req s) :=
  runs_ite ⟨_, rfl, rfl, fuseKept_revokedFuse s fn req⟩ (commit_runs _ _)

theorem execConfigCommitSvn_runs (fn req : Nat) (s : State) : Runs s (execConfigCommitSvn fn req s) :=
  runs_ite ⟨_, rfl, rfl, fuseKept_committedFuse s fn req⟩ (commit_runs _ _)

theorem execIllegalInstruction_runs (i : Issue) (cls op : BitVec 6) (s : State) : Runs s (execIllegalInstruction i cls op s) :=
  runs_ite (commit_runs _ _) (commit_runs _ _)

/-! ### Register writes (19 R629 to R631): each block runs single operations, in order -/

section
variable (off : Nat) (w64 : Bool) (v : DWord) (s : State)

theorem writeHub_runs : Runs s (writeHub off w64 v s) := runs_ite (commit_runs _ _) (commit_runs _ _)

theorem writeTim_runs : Runs s (writeTim off w64 v s) :=
  runs_ite (Runs.thenDo (commit_runs _ _) fun _ => runs_ite (commit_runs _ _) (commit_runs _ _)) (commit_runs _ _)

theorem writeFen_runs : Runs s (writeFen off w64 v s) :=
  runs_ite (commit_runs _ _) <| runs_ite (commit_runs _ _) <| runs_ite (commit_runs _ _) <| runs_ite (commit_runs _ _) (commit_runs _ _)

theorem writeLnk_runs : Runs s (writeLnk off w64 v s) :=
  runs_ite (commit_runs _ _) <| runs_ite (commit_runs _ _) (commit_runs _ _)

theorem writeCtg_runs : Runs s (writeCtg off w64 v s) := runs_ite (commit_runs _ _) (commit_runs _ _)

theorem writeFrm_runs : Runs s (writeFrm off w64 v s) :=
  runs_ite (commit_runs _ _) <| runs_ite (commit_runs _ _) (commit_runs _ _)

theorem writeGrn_runs : Runs s (writeGrn off w64 v s) :=
  runs_ite (commit_runs _ _) <| runs_ite (runs_ite (commit_runs _ _) (commit_runs _ _)) <| runs_ite (commit_runs _ _) (commit_runs _ _)

theorem writeTallyAt_runs (w i : Nat) : Runs s (writeTallyAt w i off w64 v s) := by
  refine runs_ite (commit_runs _ _) <| runs_ite (commit_runs _ _) <| runs_ite (commit_runs _ _) ?_
  split <;> exact commit_runs _ _

theorem writeWhl_runs (w : Nat) : Runs s (writeWhl w off w64 v s) :=
  runs_ite (commit_runs _ _) <|
  runs_ite (Runs.thenDo (runs_ite (commit_runs _ _) (commit_runs _ _)) fun _ => runs_ite (commit_runs _ _) (commit_runs _ _)) <|
  runs_ite (commit_runs _ _) <| runs_ite (writeTallyAt_runs ..) (commit_runs _ _)

theorem writeStopCtl_runs : Runs s (writeStopCtl v s) :=
  Runs.thenDo (commit_runs _ _) fun _ => Runs.thenDo (runs_ite (commit_runs _ _) (commit_runs _ _)) fun _ =>
    Runs.thenDo (runs_ite (commit_runs _ _) (commit_runs _ _)) fun _ => runs_ite (commit_runs _ _) (commit_runs _ _)

theorem writeWide_runs (old : State → DWord) (set : State → DWord → State) (base : Nat) : Runs s (writeWide old set off base w64 v s) := by
  unfold writeWide
  split <;> exact commit_runs _ _

theorem writeWatch_runs (i : Nat) : Runs s (writeWatch i off w64 v s) :=
  runs_ite (commit_runs _ _) <| runs_ite (writeWide_runs ..) (writeWide_runs ..)

theorem writeDbg_runs : Runs s (writeDbg off w64 v s) :=
  runs_ite (writeWatch_runs ..) <| runs_ite (writeTallyAt_runs ..) <| runs_ite (writeStopCtl_runs ..) <| runs_ite (commit_runs _ _) <|
  runs_ite (writeWide_runs ..) <| runs_ite (writeWide_runs ..) <| runs_ite (commit_runs _ _) <| runs_ite (writeWide_runs ..) <|
  runs_ite (commit_runs _ _) <| runs_ite (commit_runs _ _) (commit_runs _ _)

theorem writeBar0_runs (addr : Nat) : Runs s (writeBar0 addr w64 v s) :=
  runs_ite (writeHub_runs ..) <| runs_ite (commit_runs _ _) <| runs_ite (writeTim_runs ..) <| runs_ite (writeFen_runs ..) <|
  runs_ite (commit_runs _ _) <| runs_ite (writeLnk_runs ..) <| runs_ite (writeCtg_runs ..) <| runs_ite (writeFrm_runs ..) <|
  runs_ite (writeDbg_runs ..) <| runs_ite (writeWhl_runs ..) <| runs_ite (writeGrn_runs ..) (commit_runs _ _)

theorem writeBar2_runs (fn addr : Nat) : Runs s (writeBar2 fn addr w64 v s) :=
  runs_ite (runs_ite (commit_runs _ _) (commit_runs _ _)) <| runs_ite (commit_runs _ _) <| runs_ite (commit_runs _ _) <|
  runs_ite (commit_runs _ _) <| runs_ite (commit_runs _ _) (commit_runs _ _)

theorem writeMsixWord_runs (vec word : Nat) (v : Word) : Runs s (writeMsixWord vec word v s) :=
  runs_ite (commit_runs _ _) <| runs_ite (commit_runs _ _) <| runs_ite (commit_runs _ _) <| runs_ite (commit_runs _ _) (commit_runs _ _)

theorem writeBar4_runs (fn addr : Nat) : Runs s (writeBar4 fn addr w64 v s) :=
  runs_ite (Runs.thenDo (writeMsixWord_runs ..) fun _ => runs_ite (writeMsixWord_runs ..) (commit_runs _ _)) (commit_runs _ _)

theorem execRegisterWrite_runs (bar fn addr : Nat) : Runs s (execRegisterWrite bar fn addr w64 v s) :=
  runs_ite (commit_runs _ _) <| runs_ite (writeBar0_runs ..) <| runs_ite (writeBar2_runs ..) <| runs_ite (writeBar4_runs ..) (commit_runs _ _)

end

/-- Every command is one operation that `commit` ends, but for the two that blow a fuse, the register write, which runs the operation of
the field it reaches, and the illegal word, which is one or none. -/
theorem exec_runs (c : Instr) (s : State) : Runs s (exec c s) := by
  cases c
  case keyRevoke => exact execKeyRevoke_runs ..
  case configCommitSvn => exact execConfigCommitSvn_runs ..
  case registerWrite => exact execRegisterWrite_runs ..
  case illegalInstruction => exact execIllegalInstruction_runs ..
  all_goals exact commit_runs _ _

theorem timeTick_fuse (s : State) : (timeTick s).fuse = s.fuse := by
  unfold timeTick
  split <;> rfl

end Sys2Proof.Machine

open Sys2Proof Sys2Proof.Machine

/-- Settles O3: a step is a TIME tick, which touches no fuse, or a command, which undoes none (`exec_runs`). -/
theorem fusesOneWay : Obligations.FusesOneWay := by
  intro s t h
  obtain ⟨-, hs⟩ | ⟨c, rest, -, hs⟩ := step_cases s
  · have ht : timeTick s = t := Host.Outcome.next.inj (hs.symm.trans h)
    rw [← ht, timeTick_fuse]
    exact fuseKept_refl _
  · obtain ⟨u, hu, -, hk⟩ := exec_runs c { s with pending := rest }
    have ht : u = t := Host.Outcome.next.inj (hu.symm.trans (hs.symm.trans h))
    rw [← ht]
    exact hk

/-- Settles O4: the fuses at reset are those of the part taken (log entry 6). -/
theorem fusesAtReset : Obligations.FusesAtReset := ⟨fuseKept_refl _, rfl, rfl⟩

/-- Settles O6: no arm of `exec` faults or refuses (`exec_runs`). -/
theorem everyCommandRuns : Obligations.EveryCommandRuns := fun c s =>
  let ⟨t, ht, _⟩ := exec_runs c s
  ⟨t, ht⟩

end

section
/-! ## Register writes reach one field (19 R629 to R631, R639) -/
namespace Sys2Proof.Machine

/-! ### Which block an access reaches -/

theorem fnExists_zero (s : State) : fnExists s 0 = true := rfl

theorem thenDo_ignored (o : Out) : thenDo o ignored = o := by
  cases o <;> rfl

section
variable {s : State} {v : DWord}

/-- An aligned access of 32 bits reaches the bar's decoder, for a function the host port serves. -/
theorem registerWrite_word {bar fn a : Nat} (h : hostUp s = true) (hf : fn < 256) (hx : fnExists s fn = true) (ha : a % 4 = 0) :
    exec (.registerWrite bar fn a false v) s =
      if bar = 0 && fn = 0 && a < 2 ^ 26 then writeBar0 a false v s
      else if bar = 2 && a < 2 ^ 24 then writeBar2 fn a false v s
      else if bar = 4 && a < 2 ^ 16 then writeBar4 fn a false v s
      else ignored s := by
  refine if_neg ?_
  simp [h, hx, ha, Nat.not_le.mpr hf]

theorem bar0_word {a : Nat} (h : hostUp s = true) (ha : a % 4 = 0) (hl : a < 2 ^ 26) :
    exec (.registerWrite 0 0 a false v) s = writeBar0 a false v s := by
  rw [registerWrite_word h (by decide) (fnExists_zero s) ha]
  exact if_pos (by simpa using hl)

/-- As `bar0_word`, of 64 bits. -/
theorem bar0_dword {a : Nat} (h : hostUp s = true) (ha : a % 8 = 0) (hl : a < 2 ^ 26) :
    exec (.registerWrite 0 0 a true v) s = writeBar0 a true v s := by
  have h0 : ¬(decide (256 ≤ 0) || !hostUp s || !fnExists s 0 || a % (if true = true then 8 else 4) != 0) = true := by
    simp [h, fnExists_zero, ha]
  exact (if_neg h0).trans (if_pos (by simpa using hl))

theorem bar2_word {fn a : Nat} (h : hostUp s = true) (hf : fn < 256) (hx : fnExists s fn = true) (ha : a % 4 = 0) (hl : a < 2 ^ 24) :
    exec (.registerWrite 2 fn a false v) s = writeBar2 fn a false v s := by
  rw [registerWrite_word h hf hx ha, if_neg (by simp)]
  exact if_pos (by simpa using hl)

theorem bar4_word {a : Nat} (h : hostUp s = true) (ha : a % 4 = 0) (hl : a < 2 ^ 16) :
    exec (.registerWrite 4 0 a false v) s = writeBar4 0 a false v s := by
  rw [registerWrite_word h (by decide) (fnExists_zero s) ha, if_neg (by simp), if_neg (by simp)]
  exact if_pos (by simpa using hl)

/-- BAR_0 is the physical function's (19 R629). -/
theorem registerWrite_bar0_vf (s : State) (v : DWord) {fn a : Nat} (hf : fn ≠ 0) : exec (.registerWrite 0 fn a false v) s = .next s := by
  show execRegisterWrite 0 fn a false v s = _
  have h2 : (0 : Nat) ≠ 2 := by decide
  have h4 : (0 : Nat) ≠ 4 := by decide
  simp only [execRegisterWrite, hf, h2, h4, decide_false, Bool.and_false, Bool.false_and, Bool.false_eq_true, if_false, ite_self]
  rfl

variable {w64 : Bool} {o : Nat}

theorem writeBar0_hub (h : o < 0x100000) : writeBar0 o w64 v s = writeHub o w64 v s := if_pos h

theorem writeBar0_identity (h : 0x100000 ≤ o) (h' : o < 0x200000) : writeBar0 o w64 v s = .next s := by
  unfold writeBar0
  rw [if_neg (by omega), if_pos h']
  rfl

theorem writeBar0_fen (h : o < 0x100000) : writeBar0 (0x300000 + o) w64 v s = writeFen o w64 v s := by
  unfold writeBar0
  rw [if_neg (by omega), if_neg (by omega), if_neg (by omega), if_pos (by omega), Nat.add_sub_cancel_left]

theorem writeBar0_lnk (h : o < 0x100000) : writeBar0 (0x500000 + o) w64 v s = writeLnk o w64 v s := by
  unfold writeBar0
  rw [if_neg (by omega), if_neg (by omega), if_neg (by omega), if_neg (by omega), if_neg (by omega), if_pos (by omega),
    Nat.add_sub_cancel_left]

theorem writeBar0_frm (h : o < 0x100000) : writeBar0 (0x700000 + o) w64 v s = writeFrm o w64 v s := by
  unfold writeBar0
  rw [if_neg (by omega), if_neg (by omega), if_neg (by omega), if_neg (by omega), if_neg (by omega), if_neg (by omega),
    if_neg (by omega), if_pos (by omega), Nat.add_sub_cancel_left]

theorem writeBar0_dbg (h : o < 0x800000) : writeBar0 (0x800000 + o) w64 v s = writeDbg o w64 v s := by
  unfold writeBar0
  rw [if_neg (by omega), if_neg (by omega), if_neg (by omega), if_neg (by omega), if_neg (by omega), if_neg (by omega),
    if_neg (by omega), if_neg (by omega), if_pos (by omega), Nat.add_sub_cancel_left]

theorem writeBar0_whl {w : Nat} (hw : w < 192) (h : o < 0x10000) :
    writeBar0 (0x1000000 + 0x10000 * w + o) w64 v s = writeWhl w o w64 v s := by
  unfold writeBar0
  rw [if_neg (by omega), if_neg (by omega), if_neg (by omega), if_neg (by omega), if_neg (by omega), if_neg (by omega),
    if_neg (by omega), if_neg (by omega), if_neg (by omega), if_pos (by omega)]
  congr 1 <;> omega

theorem writeBar0_grn (h : o < 0x1000000) : writeBar0 (0x3000000 + o) w64 v s = writeGrn o w64 v s := by
  unfold writeBar0
  rw [if_neg (by omega), if_neg (by omega), if_neg (by omega), if_neg (by omega), if_neg (by omega), if_neg (by omega),
    if_neg (by omega), if_neg (by omega), if_neg (by omega), if_neg (by omega), if_pos (by simp; omega), Nat.add_sub_cancel_left]

end

/-! ### What the field does -/

section
variable (s : State) (v : DWord)

theorem writeHub_scratch {k : Nat} (h : k < 4) : writeHub (0x210 + 4 * k) false v s =
    .next { s with hub := { s.hub with scratch := Tab.put 0 s.hub.scratch k (v.setWidth 32) } } := by
  have hk : (0x210 + 4 * k - 0x210) / 4 = k := by omega
  unfold writeHub
  rw [if_pos (by simp; omega), hk]
  rfl

theorem writeLnk_portCtl {n : Nat} (h : n < 32) : writeLnk (0x1000 + 0x100 * n) false v s =
    exec (if v.getLsbD 0 then .lnkPortEnable n else .lnkPortDisable n) s := by
  have hn : (0x1000 + 0x100 * n - 0x1000) / 0x100 = n := by omega
  unfold writeLnk
  rw [if_neg (by simp; omega), hn]
  split <;> rfl

theorem writeFrm_flowCtl {f : Nat} (h : f < 8) : writeFrm (0x100 * f) false v s =
    exec (if v.getLsbD 0 then .frmFlowEnable f else .frmFlowDisable f) s := by
  have hf : 0x100 * f / 0x100 = f := by omega
  unfold writeFrm
  rw [if_neg (by simp; omega), hf]
  split <;> rfl

theorem hasGrn_lt {s : State} {n : Nat} (h : hasGrn s n = true) : n < 4 := by
  simp only [hasGrn, Bool.and_eq_true, decide_eq_true_eq] at h
  exact h.1

theorem writeGrn_portCtl {n : Nat} (h : hasGrn s n = true) : writeGrn (0x1000 + 0x100 * n) false v s =
    exec (if v.getLsbD 0 then .grnPortEnable n else .grnPortDisable n) s := by
  have hn : (0x1000 + 0x100 * n - 0x1000) / 0x100 = n := by omega
  have h4 : n < 4 := hasGrn_lt h
  unfold writeGrn
  simp only [hn]
  rw [if_neg (by simp [h]; omega), if_pos (by omega)]
  split <;> rfl

theorem writeWhl_ctl {w : Nat} (h : s.present w = true) (hv : v.getLsbD 1 = false) : writeWhl w 0 false v s =
    exec (if v.getLsbD 0 then .whlCtlEnable w else .whlCtlDisable w) s := by
  unfold writeWhl
  rw [if_neg (by simp [h]), if_pos (by simp)]
  simp only [hv, Bool.false_eq_true, if_false]
  refine (thenDo_ignored _).trans ?_
  split <;> rfl

theorem writeWhl_absent {w : Nat} (h : s.present w = false) (o : Nat) (w64 : Bool) : writeWhl w o w64 v s = .next s :=
  if_pos (by simp [h])

theorem writeDbg_tallyValue {i : Nat} (h : i < 64) : writeDbg (0x2010 + 0x20 * i) true v s = exec (.tallyWrite 192 i v) s := by
  have hi : (0x2010 + 0x20 * i - 0x2000) / 0x20 = i := by omega
  have ho : (0x2010 + 0x20 * i) % 0x20 = 0x10 := by omega
  unfold writeDbg
  rw [if_neg (by simp; omega), if_pos (by simp; omega), hi, ho]
  rfl

theorem writeDbg_stopAt : writeDbg 8 true v s = .next { s with dbg := { s.dbg with t := v } } := rfl

theorem writeBar2_doorbell {fn k : Nat} (h : k < 262080) : writeBar2 fn (64 * k) false v s = exec (.doorbellWrite fn k v false) s := by
  have hk : 64 * k / 64 = k := by omega
  unfold writeBar2
  rw [if_pos (by omega), if_pos (by omega), hk]
  rfl

theorem writeBar2_slots {fn k : Nat} (h : k < 512) : writeBar2 fn (0xFFF400 + 4 * k) false v s =
    .next (s.setMbx fn { s.mbx fn with slots := putBytes (s.mbx fn).slots (4 * k) (leBytes 4 v.toNat) }) := by
  have ho : 0xFFF400 + 4 * k - 0xFFF000 = 0x400 + 4 * k := by omega
  have hs : 0x400 + 4 * k - 0x400 = 4 * k := Nat.add_sub_cancel_left ..
  unfold writeBar2
  rw [if_neg (by omega)]
  simp only [ho, hs]
  rw [if_neg (by simp), if_neg (by simp; omega), if_neg (by simp; omega), if_pos (by simp; omega)]
  rfl

theorem writeBar4_unmask {i : Nat} (h : i < 256) (hv : v.getLsbD 0 = false) :
    writeBar4 0 (16 * i + 12) false v s = exec (.msixUnmask i) s := by
  have hi : fnVector 0 + (16 * i + 12) / 16 = i := by simp only [fnVector, if_true]; omega
  have hw : (16 * i + 12) % 16 / 4 = 3 := by omega
  have hm : writeMsixWord i 3 (v.setWidth 32) s = exec (.msixUnmask i) s := by
    unfold writeMsixWord
    simp only [BitVec.getLsbD_setWidth, hv]
    rfl
  unfold writeBar4
  rw [if_pos (by simp [fnVectors, fnVector]; omega)]
  simp only [hi, hw, hm]
  exact thenDo_ignored _

end

end Sys2Proof.Machine

open Sys2Proof Sys2Proof.Machine

/-- Settles O60: the address names the block (`bar0_word`, `writeBar0_hub` and the like) and the offset in it the field, whose write runs
the field's own command. -/
theorem registerWrites : Obligations.RegisterWrites := by
  intro s v hs w
  refine ⟨fun k hk => ?_, fun k hk => ?_, ?_, ?_, ?_, fun n hn => ?_, fun f hf => ?_, fun n hn => ?_, fun i hi hp hv => ?_,
    fun i hi hp o ho ha => ?_, fun i hi => ?_, ?_, fun fn a h0 hf ha => ?_, fun fn hf hx => ⟨?_, ?_, fun k hk => ?_, fun k hk => ?_⟩,
    fun i hi hv => ?_⟩
  · exact (bar0_word hs (by omega) (by omega)).trans ((writeBar0_hub (by omega)).trans (writeHub_scratch s v hk))
  · exact (bar0_word hs (by omega) (by omega)).trans (writeBar0_identity (by omega) (by omega))
  · exact (bar0_word hs (by decide) (by decide)).trans (writeBar0_fen (o := 4) (by decide))
  · exact (bar0_word hs (by decide) (by decide)).trans (writeBar0_fen (o := 8) (by decide))
  · exact (bar0_word hs (by decide) (by decide)).trans (writeBar0_fen (o := 0x100) (by decide))
  · have ha : 0x501000 + 0x100 * n = 0x500000 + (0x1000 + 0x100 * n) := by omega
    exact (bar0_word hs (by omega) (by omega)).trans (ha ▸ (writeBar0_lnk (by omega)).trans (writeLnk_portCtl s v hn))
  · exact (bar0_word hs (by omega) (by omega)).trans ((writeBar0_frm (by omega)).trans (writeFrm_flowCtl s v hf))
  · have h4 : n < 4 := hasGrn_lt hn
    have ha : 0x3001000 + 0x100 * n = 0x3000000 + (0x1000 + 0x100 * n) := by omega
    exact (bar0_word hs (by omega) (by omega)).trans (ha ▸ (writeBar0_grn (by omega)).trans (writeGrn_portCtl s v hn))
  · exact (bar0_word hs (by omega) (by omega)).trans ((writeBar0_whl (o := 0) hi (by decide)).trans (writeWhl_ctl s v hp hv))
  · exact (bar0_word hs (by omega) (by omega)).trans ((writeBar0_whl hi ho).trans (writeWhl_absent s v hp o false))
  · have ha : 0x802010 + 0x20 * i = 0x800000 + (0x2010 + 0x20 * i) := by omega
    exact (bar0_dword hs (by omega) (by omega)).trans (ha ▸ (writeBar0_dbg (by omega)).trans (writeDbg_tallyValue s v hi))
  · exact (bar0_dword hs (by decide) (by decide)).trans ((writeBar0_dbg (o := 8) (by decide)).trans (writeDbg_stopAt s v))
  · exact registerWrite_bar0_vf s v (by omega)
  · exact bar2_word hs hf hx (by decide) (by decide)
  · exact bar2_word hs hf hx (by decide) (by decide)
  · exact (bar2_word hs hf hx (by omega) (by omega)).trans (writeBar2_doorbell s v hk)
  · exact (bar2_word hs hf hx (by omega) (by omega)).trans (writeBar2_slots s v hk)
  · exact (bar4_word hs (by omega) (by omega)).trans (writeBar4_unmask s v hi hv)

end

section
/-! ## What an issue leaves as it was -/
namespace Sys2Proof.Machine

/-- `t` is `s` but for counters, records and values drawn: crews, engines, memory and the time unit are as they were. -/
structure Quiet (s t : State) : Prop where
  crew : ∀ w k, t.crew? w k = s.crew? w k
  eng : ∀ w, (t.wheel w).eng = (s.wheel w).eng
  ms : t.ms = s.ms
  time : t.time = s.time

theorem Quiet.refl (s : State) : Quiet s s := ⟨fun _ _ => rfl, fun _ => rfl, rfl, rfl⟩

theorem Quiet.trans {s t u : State} (h : Quiet s t) (g : Quiet t u) : Quiet s u :=
  ⟨fun w k => (g.crew w k).trans (h.crew w k), fun w => (g.eng w).trans (h.eng w), g.ms.trans h.ms, g.time.trans h.time⟩

theorem quiet_nextId (s : State) (n : Nat) : Quiet s { s with nextId := n } := ⟨fun _ _ => rfl, fun _ => rfl, rfl, rfl⟩

theorem quiet_fresh (s : State) : Quiet s s.fresh.2 := quiet_nextId s _

theorem quiet_free (s : State) : Quiet s s.free.2 := ⟨fun _ _ => rfl, fun _ => rfl, rfl, rfl⟩

theorem CountsOnly.time {s t : State} (h : CountsOnly s t) : t.time = s.time := by
  obtain ⟨⟨_, _, _, _, _, _, -, rfl⟩, -, -⟩ := h
  rfl

theorem CountsOnly.nextId {s t : State} (h : CountsOnly s t) : t.nextId = s.nextId := by
  obtain ⟨⟨_, _, _, _, _, _, -, rfl⟩, -, -⟩ := h
  rfl

theorem CountsOnly.quiet {s t : State} (h : CountsOnly s t) : Quiet s t := by
  refine ⟨h.crew, fun w => ?_, h.ms, h.time⟩
  obtain ⟨ts, n, -, ht⟩ := h.2.1 w
  rw [ht]

/-! ### The rest of the module -/

theorem Elsewhere.trans {i : Issue} {s t u : State} (h : Elsewhere i s t) (g : Elsewhere i t u) : Elsewhere i s u := by
  obtain ⟨h1, h2, h3⟩ := h
  obtain ⟨g1, g2, g3⟩ := g
  exact ⟨fun w k hw => (g1 w k hw).trans (h1 w k hw), fun a => (g2 a).trans (h2 a), g3.trans h3⟩

theorem Quiet.elsewhere {s t : State} (h : Quiet s t) (i : Issue) : Elsewhere i s t :=
  ⟨fun w k _ => h.crew w k, fun a => by unfold memByte; rw [h.ms], h.time⟩

theorem elsewhere_modWheel (i : Issue) (s : State) (f : Wheel → Wheel) : Elsewhere i s (s.modWheel i.wheel f) :=
  ⟨fun w k hw => by unfold State.crew?; rw [State.wheel_modWheel_other _ _ _ _ hw], fun _ => rfl, rfl⟩

theorem elsewhere_modCrew (i : Issue) (s : State) (f : Crew → Crew) : Elsewhere i s (s.modCrew i.wheel i.slot f) := elsewhere_modWheel ..

theorem modCrew_eng (s : State) (w k v : Nat) (f : Crew → Crew) : ((s.modCrew w k f).wheel v).eng = (s.wheel v).eng := by
  by_cases h : v = w
  · subst h; unfold State.modCrew; rw [State.wheel_modWheel_same]
  · unfold State.modCrew; rw [State.wheel_modWheel_other _ _ _ _ h]

/-! ### The issue's own bookkeeping -/

section
variable (s : State) (i : Issue) (c : Crew) (x : CPath)

/-- The issue counts and takes its turn: it touches wheels, records, tallies, ledgers and the free values alone. -/
theorem noteIssue_form : ∃ ws gs q l g n, noteIssue s i c x = { s with
    wheels := ws, dbg := { s.dbg with queue := q, lost := l, gtallies := g }, front := { s.front with saggars := gs }, freeCtr := n } := by
  obtain ⟨⟨ws, gs, q, l, g, n, -, h⟩, -, -⟩ := noteIssue_counts s i c x
  exact ⟨ws, gs, q, l, g, n, h⟩

theorem noteIssue_wheel (w : Nat) : ∃ cr sc ts ct, (noteIssue s i c x).wheel w =
    { s.wheel w with crews := cr, sched := sc, tallies := ts, ctl := ct } := by
  obtain ⟨ts, n, -, h⟩ := (noteIssue_counts s i c x).2.1 w
  rw [h]
  by_cases hw : w = i.wheel
  · subst hw
    simp only [State.setCrew, turn, State.wheel_modWheel_same]
    exact ⟨_, _, _, _, rfl⟩
  · simp only [State.setCrew, turn, State.wheel_modWheel_other _ _ _ _ hw]
    exact ⟨_, _, _, _, rfl⟩

theorem noteIssue_eng (w : Nat) : ((noteIssue s i c x).wheel w).eng = (s.wheel w).eng := by
  obtain ⟨_, _, _, _, h⟩ := noteIssue_wheel s i c x w
  rw [h]

theorem noteIssue_mem (w : Nat) : ((noteIssue s i c x).wheel w).mem = (s.wheel w).mem := by
  obtain ⟨_, _, _, _, h⟩ := noteIssue_wheel s i c x w
  rw [h]

theorem noteIssue_saggar (k : Nat) : ∃ l, (noteIssue s i c x).saggar k = { s.saggar k with ledger := l } :=
  (noteIssue_counts s i c x).2.2 k

theorem noteIssue_fuse : (noteIssue s i c x).fuse = s.fuse := by
  obtain ⟨_, _, _, _, _, _, h⟩ := noteIssue_form s i c x
  rw [h]

theorem noteIssue_nextId : (noteIssue s i c x).nextId = s.nextId := (noteIssue_counts s i c x).nextId

theorem noteIssue_elsewhere : Elsewhere i s (noteIssue s i c x) :=
  ((elsewhere_modWheel i s _).trans (elsewhere_modWheel i (turn s i c x) _)).trans ((noteIssue_counts s i c x).quiet.elsewhere i)

theorem layerOk_noteIssue (k layer : Nat) : layerOk (noteIssue s i c x) k layer = layerOk s k layer := by
  obtain ⟨l, h⟩ := noteIssue_saggar s i c x k
  unfold layerOk
  rw [h]

theorem translate_noteIssue (k : Nat) (va : DWord) : translate (noteIssue s i c x) k va = translate s k va := by
  obtain ⟨l, h⟩ := noteIssue_saggar s i c x k
  unfold translate
  rw [h]

theorem viewByte_noteIssue (w k : Nat) (va : DWord) : viewByte (noteIssue s i c x) w k va = viewByte s w k va := by
  have hl (pa : Nat) : l1Sector (noteIssue s i c x) w pa = l1Sector s w pa := by unfold l1Sector; rw [noteIssue_mem]
  have hb (pa : Nat) : lineBusy (noteIssue s i c x) pa = lineBusy s pa ∧ poisoned (noteIssue s i c x) pa = poisoned s pa ∧
      memByte (noteIssue s i c x) pa = memByte s pa := by
    obtain ⟨_, _, _, _, _, _, h⟩ := noteIssue_form s i c x
    rw [h]
    exact ⟨rfl, rfl, rfl⟩
  unfold viewByte
  simp only [translate_noteIssue, hl, noteIssue_mem, hb]

theorem viewBytes_noteIssue (w k n : Nat) : ∀ va, viewBytes (noteIssue s i c x) w k va n = viewBytes s w k va n := by
  induction n with
  | zero => exact fun _ => rfl
  | succ n ih =>
    intro va
    unfold viewBytes
    simp only [viewByte_noteIssue, ih]

end

/-! ### The path goes on -/

section
variable {s : State} {i : Issue} {c : Crew} {x : CPath}

/-- A crew whose paths are those of the noted crew behind the instruction has gone on. -/
theorem wentOn_of_paths {d : Crew} (h : path? c i.path = some x) (hp : d.paths = (pathNext (noted i c x) i.path).paths)
    (hl : d.lastPath = some i.path) : WentOn c d i.path x := by
  have hd (q : Nat) : path? d q = path? (pathNext (noted i c x) i.path) q := congrArg (Tab.find · q) hp
  have h0 : Tab.find c.paths i.path = some x := h
  refine ⟨?_, fun q hq => ?_, hl⟩
  · rw [hd]
    simp [path?, pathNext, noted, modPath, h0]
  · rw [hd]
    simp [path?, pathNext, noted, modPath, Tab.find_modify_other _ _ _ _ hq]

theorem wentOn_next (h : path? c i.path = some x) : WentOn c (pathNext (noted i c x) i.path) i.path x := wentOn_of_paths h rfl rfl

theorem path_noted (h : path? c i.path = some x) : path? (noted i c x) i.path = some { x with run := runOf i c x } := by
  have h0 : Tab.find c.paths i.path = some x := h
  simp [path?, noted, modPath, runOf, h0]

theorem path_waitPath {d : Crew} {p : Nat} {y : CPath} (h : path? d p = some y) (w : PathWait) :
    path? (waitPath d p w) p = some { y with wait := w } := by
  have h0 : Tab.find d.paths p = some y := h
  simp [path?, waitPath, modPath, h0]

theorem pathPc_noteIssue (h : path? c i.path = some x) : pathPc (noteIssue s i c x) i = x.pc := by
  unfold pathPc
  rw [noteIssue_crew]
  simp only [path_noted h]
  rfl

/-- Where the path of an issue stands, read off the crew. -/
theorem issueWait_of_crew {t : State} {d : Crew} {y : CPath} (ht : t.crew? i.wheel i.slot = some d) (hd : path? d i.path = some y) :
    issueWait i t = some y.wait := by
  simp [issueWait, ht, hd]

theorem pathPast_of_crew {t : State} {d : Crew} {y : CPath} (ht : t.crew? i.wheel i.slot = some d) (hd : path? d i.path = some y)
    (hy : y.pc = x.pc + 8) : PathPast i x t := by
  simp [PathPast, ht, hd, hy]

/-- An instruction that issues comes from a path of its crew that waits as `ok` says. -/
theorem issues_path {ok : PathWait → Bool} {f : Form} (h : Issues s i ok f c x) : path? c i.path = some x ∧ ok x.wait = true := by
  obtain ⟨-, h2, -, -, -⟩ := h
  refine ⟨(issuer_path h2).1, ?_⟩
  unfold issuer at h2
  split at h2
  case isFalse => cases h2
  split at h2
  case h_1 => cases h2
  split at h2
  case h_1 => cases h2
  dsimp only at h2
  split at h2
  case isFalse => cases h2
  case isTrue hok =>
    cases h2
    simp only [Bool.and_eq_true] at hok
    exact hok.1.1.1

theorem issues_ready {f : Form} (h : Issues s i isReady f c x) : x.wait = .ready := by simpa [isReady] using (issues_path h).2

end

end Sys2Proof.Machine
end

section
/-! ## Vector chains: VCHAIN and a VRED that waits join the queue (06 R222, R234, R241) -/
namespace Sys2Proof.Machine

theorem chainFault_congr {s t : State} {c : Crew} (h : layerOk t c.saggar c.layer = layerOk s c.saggar c.layer) (raw : List Byte)
    (d : ChainDesc) : chainFault t c raw d = chainFault s c raw d := by
  unfold chainFault
  rw [h]

theorem chainFault_noteIssue (s : State) (i : Issue) (c : Crew) (x : CPath) (raw : List Byte) (d : ChainDesc) :
    chainFault (noteIssue s i c x) (noted i c x) raw d = chainFault s c raw d :=
  chainFault_congr (c := c) (layerOk_noteIssue s i c x _ _) raw d

theorem readDesc_noteIssue (s : State) (i : Issue) (c : Crew) (x : CPath) (l : Nat) :
    readDesc (noteIssue s i c x) i (noted i c x) l = readDesc s i c l := by
  unfold readDesc
  simp only [viewBytes_noteIssue]
  rfl

/-! ### Joining the queue -/

section
variable (s : State) (w : Nat) (e : VecEntry)

theorem crew_joinVec (v k : Nat) : (joinVec s w e).crew? v k = s.crew? v k := by
  unfold joinVec State.crew?
  by_cases h : v = w
  · subst h; rw [State.wheel_modWheel_same]
  · rw [State.wheel_modWheel_other _ _ _ _ h]

theorem vecq_joinVec : ((joinVec s w e).wheel w).eng.vecq = (s.wheel w).eng.vecq ++ [e] := by
  unfold joinVec
  rw [State.wheel_modWheel_same]

end

/-- An entry joins the queue of the issuing wheel: nothing else of the module changes. -/
theorem elsewhere_joinVec {i : Issue} {s u : State} (h : Elsewhere i s u) (e : VecEntry) : Elsewhere i s (joinVec u i.wheel e) :=
  h.trans (elsewhere_modWheel i u _)

/-- What of a queue entry its instruction fixes. -/
def vecKey (e : VecEntry) : Nat × Nat × ChainDesc × Nat × Option (Issue × Word) := (e.uid, e.counter, e.desc, e.vl, e.vred)

section
variable {i : Issue} {s : State} {c : Crew} {x : CPath} {l : Nat} {raw : List Byte}
variable (h : Issues s i isReady (spaceForm (i.x.getLsbD 23)
  { guarded := true, reads := true, legal := i.da == 0 && i.sb == 0 && xf i 16 7 == 0 && xf i 0 12 == 0 } (sa i)) c x)
variable (hl : leadLane (guardMask c x i) = some l) (hr : readDesc s i c l = .ok raw)
variable (hf : chainFault s c raw (ChainDesc.of raw) = none) (hg : chainGo i s c x (guardMask c x i) = true)
include h hl hr hf hg

/-- VCHAIN on a descriptor without fault: counters move, values are drawn, its entry joins the queue and the path goes on. -/
theorem vchain_next : ∃ u e, exec (.vchain i) s = .next (kept s (next (joinVec u i.wheel e) i)) ∧ Quiet (noteIssue s i c x) u ∧
    vecKey e = (c.uid, xf i 12 4, ChainDesc.of raw, c.vl, none) := by
  have hx : exec (.vchain i) s = execVchain i s := rfl
  unfold execVchain issueStall at hx
  rw [issueIf_next h hg] at hx
  simp only [hl, readDesc_noteIssue, hr, chainFault_noteIssue, hf] at hx
  refine ⟨_, _, hx, ?_, rfl⟩
  have count (t : State) (n m : Nat) : Quiet t (tallyCrew t i.wheel (noted i c x) n m) := (tallyCrew_counts ..).quiet
  refine Quiet.trans ?_ (((quiet_fresh _).trans ((count _ _ _).trans (count _ _ _))).trans (count _ _ _))
  split
  · exact quiet_free _
  · exact Quiet.refl _

theorem vchain_joins : Goes (exec (.vchain i) s) fun t => Untouched i c s t ∧ PathPast i x t ∧ issueWait i t = some .ready ∧
    (t.wheel i.wheel).eng.vecq.map vecKey =
      (s.wheel i.wheel).eng.vecq.map vecKey ++ [(c.uid, xf i 12 4, ChainDesc.of raw, c.vl, none)] := by
  obtain ⟨u, e, hx, hu, he⟩ := vchain_next h hl hr hf hg
  have hd : (next (joinVec u i.wheel e) i).crew? i.wheel i.slot = some (pathNext (noted i c x) i.path) := by
    unfold next
    rw [State.crew_modCrew_same, crew_joinVec, hu.crew, noteIssue_crew]
    rfl
  have hy := (wentOn_next (issues_path h).1).1
  refine ⟨_, hx, ⟨⟨_, hd, rfl⟩, ?_⟩, pathPast_of_crew hd hy rfl, ?_, ?_⟩
  · exact (elsewhere_joinVec ((noteIssue_elsewhere s i c x).trans (hu.elsewhere i)) e).trans (elsewhere_modCrew i _ _)
  · exact (issueWait_of_crew hd hy).trans (by rw [issues_ready h])
  · show ((next (joinVec u i.wheel e) i).wheel i.wheel).eng.vecq.map vecKey = _
    unfold next
    rw [modCrew_eng, vecq_joinVec, hu.eng, noteIssue_eng, List.map_append, List.map_singleton, he]

end

/-! ### VRED -/

theorem predOf_setPred (c : Crew) (l k : Nat) {p q : Nat} (v : Bool) (hp : p < 8) (hq : q < 8) :
    predOf (setPred c l p v) k q = if k = l ∧ q = p ∧ p ≠ 7 then v else predOf c k q := by
  unfold setPred
  by_cases h7 : p = 7
  · subst h7; simp
  rw [if_neg (by omega)]
  unfold predOf
  by_cases hk : k = l
  · subst hk
    simp only [Tab.get_put_same, true_and, h7, ne_eq, not_false_eq_true, and_true]
    by_cases hqp : q = p
    · subst hqp
      cases v <;> simp [h7, hq]
    · have hb : ¬(p ≤ q ∧ q - p = 0) := by omega
      cases v <;> simp [hqp, hq] <;> grind
  · rw [Tab.get_put_other _ _ _ _ _ hk]
    simp [hk]

theorem reg_setPred (c : Crew) (l p k q : Nat) (v : Bool) : reg (setPred c l p v) k q = reg c k q := by
  unfold setPred
  split <;> rfl

/-- What a fold over lanes leaves of a datum that each step writes in its own lane alone. -/
theorem foldl_lane {α : Type} (get : Crew → Nat → α) (f : Crew → Nat → Crew) (v : Nat → α) (P : Nat → Prop) [DecidablePred P]
    (hf : ∀ d l k, get (f d l) k = if k = l ∧ P k then v k else get d k) :
    ∀ (ls : List Nat) (c : Crew) (k : Nat), get (ls.foldl f c) k = if k ∈ ls ∧ P k then v k else get c k := by
  intro ls
  induction ls with
  | nil => intro c k; simp
  | cons a ls ih =>
    intro c k
    rw [List.foldl_cons, ih, hf]
    by_cases h1 : k ∈ ls <;> by_cases h2 : P k <;> simp [h1, h2]

section
variable (i : Issue) (c : Crew) (vl : Nat) (f : Nat × Nat × Nat)

theorem reg_vredLane (d : Crew) (l k q : Nat) (hq : q < 256) : reg (vredLane i c vl f d l) k q =
    if k = l ∧ k < vredCount i f ∧ q = da i then BitVec.ofNat 32 (vredRes i c vl f k).1 else reg d k q := by
  unfold vredLane
  split
  · rw [reg_setPred, reg_setReg _ _ _ _ _ _ (by unfold da; omega) hq]
    grind
  · rw [reg_setPred]
    grind

theorem predOf_vredLane (d : Crew) (l k p : Nat) (hp : p < 8) : predOf (vredLane i c vl f d l) k p =
    if k = l ∧ p = xf i 13 3 ∧ p ≠ 7 then decide (k < vredCount i f) && (vredRes i c vl f k).2 else predOf d k p := by
  have hx : xf i 13 3 < 8 := Nat.mod_lt _ (by decide)
  unfold vredLane
  split
  · rw [predOf_setPred _ _ _ _ hx hp]
    grind [predOf, setReg]
  · rw [predOf_setPred _ _ _ _ hx hp]
    grind

/-- Registers and predicates are all that a lane of VRED changes. -/
theorem vredLane_only (d : Crew) (l : Nat) : ∃ r p, vredLane i c vl f d l = { d with regs := r, preds := p } := by
  have pred (d : Crew) (l p : Nat) (v : Bool) : ∃ q, setPred d l p v = { d with preds := q } := by
    unfold setPred
    split
    · exact ⟨d.preds, rfl⟩
    · exact ⟨_, rfl⟩
  unfold vredLane
  split
  · obtain ⟨q, h⟩ := pred (setReg d l (da i) (BitVec.ofNat 32 (vredRes i c vl f l).1)) l (xf i 13 3) (vredRes i c vl f l).2
    exact ⟨_, q, h⟩
  · obtain ⟨q, h⟩ := pred d l (xf i 13 3) false
    exact ⟨d.regs, q, h⟩

theorem foldl_vredLane_only : ∀ (ls : List Nat) (d : Crew), ∃ r p, ls.foldl (vredLane i c vl f) d = { d with regs := r, preds := p }
  | [], d => ⟨d.regs, d.preds, rfl⟩
  | l :: ls, d => by
    obtain ⟨r, p, h⟩ := vredLane_only i c vl f d l
    obtain ⟨r', p', h'⟩ := foldl_vredLane_only ls (vredLane i c vl f d l)
    exact ⟨r', p', by rw [List.foldl_cons, h', h]⟩

end

/-- The crew a VRED of an idle engine leaves. -/
def vredCrew (i : Issue) (c : Crew) (x : CPath) (f : Nat × Nat × Nat) : Crew :=
  pathNext ((lanesOf (guardMask c x i)).foldl (vredLane i c c.vl f) (noted i c x)) i.path

theorem vredCrew_only {i : Issue} {c : Crew} {x : CPath} {f : Nat × Nat × Nat} :
    vredCrew i c x f = { c with
      regs := (vredCrew i c x f).regs, preds := (vredCrew i c x f).preds
      paths := (pathNext (noted i c x) i.path).paths, lastPath := some i.path } := by
  obtain ⟨r, p, h⟩ := foldl_vredLane_only i c c.vl f (lanesOf (guardMask c x i)) (noted i c x)
  unfold vredCrew
  rw [h]
  rfl

theorem reg_vredCrew {i : Issue} {c : Crew} {x : CPath} {f : Nat × Nat × Nat} {lane q : Nat} (hl : lane < 32) (hq : q < 256) :
    reg (vredCrew i c x f) lane q = if (guardMask c x i).getLsbD lane ∧ lane < vredCount i f ∧ q = da i then
      BitVec.ofNat 32 (vredRes i c c.vl f lane).1 else reg c lane q := by
  have h := foldl_lane (fun d k => reg d k q) _ (fun k => BitVec.ofNat 32 (vredRes i c c.vl f k).1) (fun k => k < vredCount i f ∧ q = da i)
    (fun d l k => reg_vredLane i c c.vl f d l k q hq) (lanesOf (guardMask c x i)) (noted i c x) lane
  simp only [mem_lanesOf, hl, true_and] at h
  exact h

theorem predOf_vredCrew {i : Issue} {c : Crew} {x : CPath} {f : Nat × Nat × Nat} {lane p : Nat} (hl : lane < 32) (hp : p < 8) :
    predOf (vredCrew i c x f) lane p = if (guardMask c x i).getLsbD lane ∧ p = xf i 13 3 ∧ p ≠ 7 then
      (decide (lane < vredCount i f) && (vredRes i c c.vl f lane).2) else predOf c lane p := by
  have h := foldl_lane (fun d k => predOf d k p) _ (fun k => decide (k < vredCount i f) && (vredRes i c c.vl f k).2)
    (fun _ => p = xf i 13 3 ∧ p ≠ 7) (fun d l k => predOf_vredLane i c c.vl f d l k p hp) (lanesOf (guardMask c x i)) (noted i c x) lane
  simp only [mem_lanesOf, hl, true_and] at h
  exact h

section
variable {i : Issue} {s : State} {c : Crew} {x : CPath} {f : Nat × Nat × Nat}
variable (h : Issues s i isReady { guarded := true, legal := decide (sa i < 16) && decide (sb i < 16) && xf i 0 12 == 0, regs := [da i]
                                   tiles := sa i :: (if i.x.getLsbD 12 then [sb i] else []) } c x)
variable (hm : guardMask c x i ≠ 0) (hf : vredOf i = some f)
include h hm hf

/-- A VRED whose result is in range, on an idle engine, changes its crew and counters. -/
theorem vred_idle (hq : (s.wheel i.wheel).eng.vecq = []) (hb : vredBeyond i c c.vl f = false) :
    Goes (exec (.vred i) s) (BecomesCrew i c x (vredCrew i c x f) s) := by
  have hx : exec (.vred i) s = execVred i s := rfl
  unfold execVred issueStall at hx
  rw [issueIf_next h (by simp [hq])] at hx
  have hn : CountsOnly _ (tallyCrew (noteIssue s i c x) i.wheel (noted i c x) (0x084 + 8 * f.1)) :=
    (noteIssue_counts s i c x).trans (tallyCrew_counts ..)
  have he : ((tallyCrew (noteIssue s i c x) i.wheel (noted i c x) (0x084 + 8 * f.1)).wheel i.wheel).eng.vecq = [] := by
    rw [(tallyCrew_counts ..).quiet.eng, noteIssue_eng, hq]
  have hb' : vredBeyond i (noted i c x) (noted i c x).vl f = false := hb
  simp only [hm, if_false, hf, he, if_true, vredOver, hb', Bool.false_eq_true] at hx
  have hc := hn.setCrew (vredCrew i c x f)
  refine ⟨_, hx.trans (commit_counts (u := (turn s i c x).setCrew i.wheel i.slot (vredCrew i c x f)) rfl rfl hc), ?_,
    (hc.crew _ _).trans (State.crew_setCrew_same ..), hc⟩
  have hp := issues_path h
  exact wentOn_of_paths hp.1 (by rw [vredCrew_only]) (by rw [vredCrew_only])

/-- A VRED behind other work: counters move, its entry joins the queue, and its path waits for it. -/
theorem vred_waits (hq : (s.wheel i.wheel).eng.vecq ≠ []) (hr : (s.wheel i.wheel).eng.vecq.length < 8) :
    ∃ u e, exec (.vred i) s = .next (kept s (joinVec (u.modCrew i.wheel i.slot fun d => waitPath d i.path (.vec s.nextId)) i.wheel e)) ∧
      Quiet (noteIssue s i c x) u ∧ vecKey e = (c.uid, 0, { stages := [] }, c.vl, some (i, guardMask c x i)) := by
  have hx : exec (.vred i) s = execVred i s := rfl
  unfold execVred issueStall at hx
  rw [issueIf_next h (by simp [hr])] at hx
  have he : ((tallyCrew (noteIssue s i c x) i.wheel (noted i c x) (0x084 + 8 * f.1)).wheel i.wheel).eng.vecq ≠ [] := by
    rw [(tallyCrew_counts ..).quiet.eng, noteIssue_eng]
    exact hq
  have hid : (tallyCrew (noteIssue s i c x) i.wheel (noted i c x) (0x084 + 8 * f.1)).nextId = s.nextId := by
    rw [(tallyCrew_counts ..).nextId, noteIssue_nextId]
  simp only [hm, if_false, hf, he, State.fresh, hid] at hx
  exact ⟨_, _, hx, (tallyCrew_counts ..).quiet.trans (quiet_nextId _ _), rfl⟩

theorem vred_joins (hq : (s.wheel i.wheel).eng.vecq ≠ []) (hr : (s.wheel i.wheel).eng.vecq.length < 8) :
    Goes (exec (.vred i) s) fun t => Untouched i c s t ∧ issueWait i t = some (.vec s.nextId) ∧
      (t.wheel i.wheel).eng.vecq.map vecKey =
        (s.wheel i.wheel).eng.vecq.map vecKey ++ [(c.uid, 0, { stages := [] }, c.vl, some (i, guardMask c x i))] := by
  obtain ⟨u, e, hx, hu, he⟩ := vred_waits h hm hf hq hr
  have hd : (joinVec (u.modCrew i.wheel i.slot fun d => waitPath d i.path (.vec s.nextId)) i.wheel e).crew? i.wheel i.slot =
      some (waitPath (noted i c x) i.path (.vec s.nextId)) := by
    rw [crew_joinVec, State.crew_modCrew_same, hu.crew, noteIssue_crew]
    rfl
  refine ⟨_, hx, ⟨⟨_, hd, rfl⟩, ?_⟩, issueWait_of_crew hd (path_waitPath (path_noted (issues_path h).1) _), ?_⟩
  · exact elsewhere_joinVec (((noteIssue_elsewhere s i c x).trans (hu.elsewhere i)).trans (elsewhere_modCrew i _ _)) e
  · show ((joinVec (u.modCrew i.wheel i.slot _) i.wheel e).wheel i.wheel).eng.vecq.map vecKey = _
    rw [vecq_joinVec, modCrew_eng, hu.eng, noteIssue_eng, List.map_append, List.map_singleton, he]

end

end Sys2Proof.Machine
end

section
/-! ## TRAV: queries of the rays that can hit, results of those that miss at once (06 R242, R250) -/
namespace Sys2Proof.Machine

theorem Tab.modify_ins {α : Type} (t : Tab α) (k : Nat) (a : α) (f : α → α) : Tab.modify (Tab.ins t k a) k f = Tab.ins t k (f a) := by
  induction t with
  | nil => simp [Tab.ins, Tab.modify]
  | cons e t ih =>
    obtain ⟨j, b⟩ := e
    by_cases h1 : k < j
    · simp [Tab.ins, Tab.modify, h1]
    · by_cases h2 : k = j
      · subst h2; simp [Tab.ins, Tab.modify]
      · simp [Tab.ins, Tab.modify, h1, h2, Ne.symm h2, ih]

/-- Changing a crew after counting, where it had been set before. -/
theorem CountsOnly.modCrew {s t : State} {w k : Nat} {c : Crew} (h : CountsOnly (s.setCrew w k c) t) (g : Crew → Crew) :
    CountsOnly (s.setCrew w k (g c)) (t.modCrew w k g) := by
  have hs : t.modCrew w k g = t.setCrew w k (g c) := by
    obtain ⟨ts, m, -, ht⟩ := h.2.1 w
    have hc : (t.wheel w).crews = Tab.ins (s.wheel w).crews k c := by
      rw [ht]
      simp [State.setCrew]
    unfold State.modCrew State.setCrew State.modWheel
    simp only [hc, Tab.modify_ins, Tab.ins_ins]
  rw [hs]
  exact h.setCrew (g c)

theorem CountsOnly.foldl_modCrew {α : Type} (g : α → Crew → Crew) {s : State} {w k : Nat} : ∀ (ls : List α) {t : State} {c : Crew},
    CountsOnly (s.setCrew w k c) t →
      CountsOnly (s.setCrew w k (ls.foldl (fun d a => g a d) c)) (ls.foldl (fun t a => t.modCrew w k (g a)) t)
  | [], _, _, h => h
  | a :: ls, _, _, h => CountsOnly.foldl_modCrew g ls (h.modCrew (g a))

/-- The result of a ray that misses (R242). -/
def missResult : List Word := [0x7F800000, 0xFFFFFFFF, 0, 0]

theorem reg_putResult_miss (c : Crew) (l d k q : Nat) (hd : d + 4 ≤ 256) (hq : q < 256) : reg (putResult c l d missResult) k q =
    if k = l ∧ d ≤ q ∧ q < d + 4 then missResult.getD (q - d) 0 else reg c k q := by
  have hp : putResult c l d missResult =
      setReg (setReg (setReg (setReg c l (d + 0) 0x7F800000) l (d + 1) 0xFFFFFFFF) l (d + 2) 0) l (d + 3) 0 := rfl
  rw [hp, reg_setReg _ _ _ _ _ _ (by omega) hq, reg_setReg _ _ _ _ _ _ (by omega) hq, reg_setReg _ _ _ _ _ _ (by omega) hq,
    reg_setReg _ _ _ _ _ _ (by omega) hq]
  by_cases hk : k = l ∧ d ≤ q ∧ q < d + 4
  · obtain ⟨rfl, h1, h2⟩ := hk
    obtain ⟨j, rfl⟩ := Nat.exists_eq_add_of_le h1
    have hj : j = 0 ∨ j = 1 ∨ j = 2 ∨ j = 3 := by omega
    obtain rfl | rfl | rfl | rfl := hj <;> simp [missResult]
  · rw [if_neg (by omega), if_neg (by omega), if_neg (by omega), if_neg (by omega), if_neg hk]

/-- The crew a TRAV leaves whose rays all miss at once. -/
def missCrew (i : Issue) (c : Crew) (x : CPath) : Crew :=
  pathNext ((lanesOf (guardMask c x i)).foldl (fun d l => putResult d l (da i) missResult) (noted i c x)) i.path

theorem foldl_putResult_only (d : Nat) : ∀ (ls : List Nat) (c : Crew),
    ∃ r, ls.foldl (fun e l => putResult e l d missResult) c = { c with regs := r }
  | [], c => ⟨c.regs, rfl⟩
  | l :: ls, c => by
    obtain ⟨r, h⟩ := foldl_putResult_only d ls (putResult c l d missResult)
    exact ⟨r, by rw [List.foldl_cons, h]; rfl⟩

theorem missCrew_only {i : Issue} {c : Crew} {x : CPath} : missCrew i c x = { c with
    regs := (missCrew i c x).regs, paths := (pathNext (noted i c x) i.path).paths, lastPath := some i.path } := by
  obtain ⟨r, h⟩ := foldl_putResult_only (da i) (lanesOf (guardMask c x i)) (noted i c x)
  unfold missCrew
  rw [h]
  rfl

theorem reg_missCrew {i : Issue} {c : Crew} {x : CPath} {lane q : Nat} (hd : da i % 4 = 0) (hl : lane < 32) (hq : q < 256) :
    reg (missCrew i c x) lane q = if (guardMask c x i).getLsbD lane ∧ da i ≤ q ∧ q < da i + 4 then missResult.getD (q - da i) 0
      else reg c lane q := by
  have hda : da i < 256 := i.da.isLt
  have h := foldl_lane (fun d k => reg d k q) (fun e l => putResult e l (da i) missResult) (fun _ => missResult.getD (q - da i) 0)
    (fun _ => da i ≤ q ∧ q < da i + 4) (fun d l k => reg_putResult_miss d l (da i) k q (by omega) hq) (lanesOf (guardMask c x i)) (noted i c x)
    lane
  simp only [mem_lanesOf, hl, true_and] at h
  exact h

/-! ### Queries -/

/-- The ray of lane `l` (R242). -/
def rayRegs (i : Issue) (c : Crew) (l : Nat) : List Word := (List.range 8).map fun k => reg c l (sa i + k)

/-- The query of lane `l`. -/
def laneQuery (i : Issue) (c : Crew) (id l : Nat) : TravQuery :=
  { id, path := i.path, lane := l, da := da i, ray := rayRegs i c l, root := pair c l (sb i), anyHit := i.x.getLsbD 0
    cullBack := i.x.getLsbD 1, cullFront := i.x.getLsbD 2 }

/-- What of a query its instruction fixes. -/
def queryKey (q : TravQuery) : Nat × Nat × List Word × DWord := (q.lane, q.da, q.ray, q.root)

/-- The unit takes the query of lane `l`. -/
def addQuery (i : Issue) (c : Crew) (s : State) (l : Nat) : State :=
  s.fresh.2.modCrew i.wheel i.slot fun d => { d with queries := d.queries ++ [laneQuery i c s.nextId l] }

theorem foldl_addQuery (i : Issue) (c : Crew) : ∀ (ls : List Nat) (s : State), ∃ qs : List TravQuery,
    (ls.foldl (addQuery i c) s).crew? i.wheel i.slot = (s.crew? i.wheel i.slot).map (fun d => { d with queries := d.queries ++ qs }) ∧
    qs.map queryKey = ls.map (fun l => (l, da i, rayRegs i c l, pair c l (sb i))) ∧
    Elsewhere i s (ls.foldl (addQuery i c) s) := by
  intro ls
  induction ls with
  | nil => exact fun s => ⟨[], by simp, rfl, (Quiet.refl s).elsewhere i⟩
  | cons l ls ih =>
    intro s
    obtain ⟨qs, h1, h2, h3⟩ := ih (addQuery i c s l)
    refine ⟨laneQuery i c s.nextId l :: qs, ?_, ?_, ?_⟩
    · rw [List.foldl_cons, h1]
      unfold addQuery
      rw [State.crew_modCrew_same, (quiet_fresh s).crew]
      cases s.crew? i.wheel i.slot <;> simp
    · rw [List.map_cons, h2]
      rfl
    · exact (((quiet_fresh s).elsewhere i).trans (elsewhere_modCrew i _ _)).trans h3

/-- Two folds are one when their steps agree on the list's elements. -/
theorem foldl_eq_of_mem {α β : Type} {f g : β → α → β} {ls : List α} (h : ∀ b, ∀ a ∈ ls, f b a = g b a) {b : β} :
    ls.foldl f b = ls.foldl g b := by
  induction ls generalizing b with
  | nil => rfl
  | cons a ls ih =>
    rw [List.foldl_cons, List.foldl_cons, h b a List.mem_cons_self]
    exact ih fun b' a' ha => h b' a' (List.mem_cons_of_mem a ha)

section
variable {i : Issue} {s : State} {c : Crew} {x : CPath}

/-- What TRAV makes of lane `l` of a crew `c` (R242). -/
def travLane (i : Issue) (c : Crew) (s : State) (l : Nat) : State :=
  match rayOf (rayRegs i c l) with
  | none =>
    if missAtOnce (rayRegs i c l) then s.modCrew i.wheel i.slot fun d => putResult d l (da i) missResult
    else s.free.2.modCrew i.wheel i.slot fun d => putResult d l (da i) ((List.range 4).map fun k => s.free.1.extractLsb' (32 * k) 32)
  | some _ => addQuery i c s l

section
variable (h : Issues s i isReady { guarded := true, reads := true, legal := i.x.toNat < 8, pairs := [sb i]
                                   regs := ((List.range 8).map (sa i + ·)) ++ ((List.range 4).map (da i + ·)) } c x)
variable (hv : s.fuse.variant ≠ 3) (hq : queriesOn (s.wheel i.wheel) + count (guardMask c x i) ≤ 256)
variable (hsa : sa i % 8 = 0) (hda : da i % 4 = 0) (hr : ∀ l ∈ lanes i c x, (pair c l (sb i)).toNat % 128 = 0)
include h hv hq hsa hda hr

/-- A TRAV that faults on nothing: counters, then each executing lane, then the path goes on. -/
theorem trav_lanes : ∃ u, CountsOnly ((turn s i c x).setCrew i.wheel i.slot (noted i c x)) u ∧
    exec (.trav i) s = commit s (next ((lanesOf (guardMask c x i)).foldl (travLane i c) u) i) := by
  have hx : exec (.trav i) s = execTrav i s := rfl
  unfold execTrav issueStall at hx
  rw [if_neg hv, issueIf_next h (by simp [hq])] at hx
  by_cases hm : guardMask c x i = 0
  · refine ⟨noteIssue s i c x, noteIssue_counts s i c x, hx.trans ?_⟩
    rw [if_pos hm, hm]
    rfl
  · refine ⟨tallyCrew (noteIssue s i c x) i.wheel (noted i c x) 0x0A0 (count (guardMask c x i)),
      (noteIssue_counts s i c x).trans (tallyCrew_counts ..), hx.trans ?_⟩
    have hal : ¬(sa i % 8 ≠ 0 ∨ da i % 4 ≠ 0 ∨
        ((lanesOf (guardMask c x i)).any fun l => (pair (noted i c x) l (sb i)).toNat % 128 != 0) = true) := by
      rintro (h1 | h1 | h1)
      · exact h1 hsa
      · exact h1 hda
      · obtain ⟨l, hl, hp⟩ := List.any_eq_true.mp h1
        exact bne_iff_ne.mp hp (hr l hl)
    rw [if_neg hm, if_neg (by rw [noteIssue_fuse]; exact hv), if_neg hal]
    rfl

/-- TRAV whose rays can all hit adds one query for each executing thread. -/
theorem trav_queries (ho : ∀ l ∈ lanes i c x, (rayOf (rayRegs i c l)).isSome = true) :
    Goes (exec (.trav i) s) fun t => Untouched i c s t ∧ PathPast i x t ∧ issueWait i t = some .ready ∧
      (t.crew? i.wheel i.slot).map (fun d => d.queries.map queryKey) =
        some (c.queries.map queryKey ++ (lanes i c x).map fun l => (l, da i, rayRegs i c l, pair c l (sb i))) := by
  obtain ⟨u, hu, hx⟩ := trav_lanes h hv hq hsa hda hr
  have hf : (lanesOf (guardMask c x i)).foldl (travLane i c) u = (lanesOf (guardMask c x i)).foldl (addQuery i c) u := by
    refine foldl_eq_of_mem fun v l hl => ?_
    obtain ⟨r, hr⟩ := Option.isSome_iff_exists.mp (ho l hl)
    simp only [travLane, hr]
  rw [hf] at hx
  obtain ⟨qs, h1, h2, h3⟩ := foldl_addQuery i c (lanesOf (guardMask c x i)) u
  have hu' : Elsewhere i s u := ((elsewhere_modWheel i s _).trans (elsewhere_modWheel i (turn s i c x) _)).trans (hu.quiet.elsewhere i)
  have hd : (next ((lanesOf (guardMask c x i)).foldl (addQuery i c) u) i).crew? i.wheel i.slot =
      some (pathNext { noted i c x with queries := c.queries ++ qs } i.path) := by
    unfold next
    rw [State.crew_modCrew_same, h1, hu.crew, State.crew_setCrew_same]
    rfl
  have hy := (wentOn_of_paths (d := pathNext { noted i c x with queries := c.queries ++ qs } i.path) (issues_path h).1 rfl rfl).1
  refine ⟨_, hx, ⟨⟨_, hd, rfl⟩, (hu'.trans h3).trans (elsewhere_modCrew i _ _)⟩, pathPast_of_crew hd hy rfl, ?_, ?_⟩
  · exact (issueWait_of_crew hd hy).trans (by rw [issues_ready h])
  · refine (congrArg _ hd).trans (congrArg some ?_)
    show (c.queries ++ qs).map queryKey = _
    rw [List.map_append, h2]
    rfl

/-- TRAV whose rays all miss at once writes their results. -/
theorem trav_misses (ho : ∀ l ∈ lanes i c x, rayOf (rayRegs i c l) = none ∧ missAtOnce (rayRegs i c l) = true) :
    Goes (exec (.trav i) s) (BecomesCrew i c x (missCrew i c x) s) := by
  obtain ⟨u, hu, he⟩ := trav_lanes h hv hq hsa hda hr
  have hf : (lanesOf (guardMask c x i)).foldl (travLane i c) u =
      (lanesOf (guardMask c x i)).foldl (fun t l => t.modCrew i.wheel i.slot fun d => putResult d l (da i) missResult) u := by
    refine foldl_eq_of_mem fun v l hl => ?_
    obtain ⟨h1, h2⟩ := ho l hl
    simp only [travLane, h1, h2, if_true]
  have hc : CountsOnly ((turn s i c x).setCrew i.wheel i.slot (missCrew i c x)) (next ((lanesOf (guardMask c x i)).foldl (travLane i c) u) i) := by
    rw [hf]
    exact (CountsOnly.foldl_modCrew (fun l d => putResult d l (da i) missResult) (lanesOf (guardMask c x i)) hu).modCrew fun d => pathNext d i.path
  refine ⟨_, he.trans (commit_counts (u := (turn s i c x).setCrew i.wheel i.slot (missCrew i c x)) rfl rfl hc), ?_,
    (hc.crew _ _).trans (State.crew_setCrew_same ..), hc⟩
  exact wentOn_of_paths (issues_path h).1 (by rw [missCrew_only]) (by rw [missCrew_only])

end

/-- On C384 TRAV faults whatever its fields hold (00 R10). -/
theorem trav_absent (h : Issues s i isReady { guarded := true, legal := true } c x) (hv : s.fuse.variant = 3) (hm : guardMask c x i ≠ 0) :
    exec (.trav i) s = .next (kept s (crewFault (noteIssue s i c x) i.wheel i.slot fUnitAbsent x.pc)) := by
  have hx : exec (.trav i) s = execTrav i s := rfl
  unfold execTrav issueStall at hx
  rw [if_pos hv, issueIf_next h (by simp [hv]), if_neg hm, if_pos (by rw [noteIssue_fuse]; exact hv)] at hx
  rw [hx]
  unfold faultAt
  rw [pathPc_noteIssue (issues_path h).1]
  rfl

end

end Sys2Proof.Machine

open Sys2Proof Sys2Proof.Machine

/-- Settles O28: each instruction's own lemma gives the state it leaves. -/
theorem vectorsAndRays : Obligations.VectorsAndRays := by
  intro i s c x key vecForm travForm ray chainForm
  refine ⟨fun l raw h hl hr hf hg => vchain_joins h hl hr hf hg, fun f h hm hf => ⟨fun hq hb => ?_, vred_joins h hm hf⟩,
    fun h hv hq hsa hda hr => ⟨trav_queries h hv hq hsa hda hr, fun ho => ?_⟩, trav_absent⟩
  · obtain ⟨t, ht, hd⟩ := vred_idle h hm hf hq hb
    refine ⟨t, ht, vredCrew i c x f, hd, ?_, fun lane hl => ⟨fun q hq => reg_vredCrew hl hq, fun p hp => predOf_vredCrew hl hp⟩⟩
    rw [vredCrew_only]
  · obtain ⟨t, ht, hd⟩ := trav_misses h hv hq hsa hda hr ho
    refine ⟨t, ht, missCrew i c x, hd, ?_, fun lane q hl hq => reg_missCrew hda hl hq⟩
    rw [missCrew_only]

end

section
/-! ## The command at the front of the queue (the model's own queue: DESIGN CHOICE, log entries 2 and 71) -/
namespace Sys2Proof.Machine

/-- Beside `step_idle`: the case of `step_cases` with a command waiting. -/
theorem step_front {s : State} {c : Instr} {rest : List Instr} (h : s.pending = c :: rest) :
    step s = exec c { s with pending := rest } := by
  obtain ⟨hn, -⟩ | ⟨d, tail, hp, hs⟩ := step_cases s
  · exact absurd (hn.symm.trans h) (List.cons_ne_nil c rest).symm
  · obtain ⟨rfl, rfl⟩ := List.cons.inj (hp.symm.trans h)
    exact hs

end Sys2Proof.Machine

open Sys2Proof Sys2Proof.Machine

/-- Settles O1: the queue `c :: rest` has `c` in front, so `step_front` gives the step. -/
theorem frontCommand : Obligations.FrontCommand := fun _ _ _ => step_front rfl

end

section
/-! ## Stamps stay below their caps (02 R46, R47) -/
namespace Sys2Proof.Machine

/-- The highest stamp wheel `w` can give in this cycle: its GTS copy, one tick more when the wheel is stretched, or an earlier stamp that
is higher (02 R46, R47). -/
def stampCap (s : State) (w : Nat) : Nat :=
  max (s.gts + if (s.wheel w).ctl.period ≤ 4 then 0 else 1) (s.wheel w).ctl.lastStamp

/-- `t` is `s` but for counters, and no wheel's latest stamp has passed its cap. -/
structure StampsWithin (s t : State) : Prop where
  counts : CountsOnly s t
  latest : ∀ w, (t.wheel w).ctl.lastStamp ≤ stampCap s w

theorem CountsOnly.gts {s t : State} (h : CountsOnly s t) : t.gts = s.gts := by
  unfold State.gts
  rw [h.time]

theorem WheelCounted.period {x y : Wheel} (h : WheelCounted x y) : y.ctl.period = x.ctl.period := by
  obtain ⟨ts, n, -, rfl⟩ := h
  rfl

theorem StampsWithin.cap_le {s t : State} (h : StampsWithin s t) (w : Nat) : stampCap t w ≤ stampCap s w := by
  have hl : (t.wheel w).ctl.lastStamp ≤ stampCap s w := h.latest w
  unfold stampCap at hl ⊢
  rw [h.counts.gts, (h.counts.2.1 w).period]
  omega

theorem StampsWithin.trans {s t u : State} (h : StampsWithin s t) (g : StampsWithin t u) : StampsWithin s u :=
  ⟨h.counts.trans g.counts, fun w => Nat.le_trans (g.latest w) (h.cap_le w)⟩

/-- Counting that leaves every wheel's latest stamp where it was. -/
theorem CountsOnly.stampsWithin {s t : State} (h : CountsOnly s t) (hs : ∀ w, (t.wheel w).ctl.lastStamp = (s.wheel w).ctl.lastStamp) :
    StampsWithin s t :=
  ⟨h, fun w => by rw [hs w]; exact Nat.le_max_right _ _⟩

theorem StampsWithin.refl (s : State) : StampsWithin s s := (CountsOnly.refl s).stampsWithin fun _ => rfl

theorem foldl_stampsWithin {α : Type} (f : State → α → State) (h : ∀ s a, StampsWithin s (f s a)) :
    ∀ (l : List α) (s : State), StampsWithin s (l.foldl f s) := fun l s =>
  List.foldlRecOn l f (StampsWithin.refl s) fun t ht a _ => ht.trans (h t a)

theorem wheelStamp_latest (s : State) (w : Nat) : ((wheelStamp s w).2.wheel w).ctl.lastStamp = (wheelStamp s w).1 := by
  unfold wheelStamp
  dsimp only
  split <;> rw [State.wheel_setWheel_same]

theorem wheelStamp_other (s : State) {w v : Nat} (h : v ≠ w) : (wheelStamp s w).2.wheel v = s.wheel v := by
  unfold wheelStamp
  dsimp only
  split
  · exact State.wheel_setWheel_other _ _ _ _ h
  · exact State.wheel_setWheel_other s.free.2 _ _ _ h

/-- A stamp lies between the wheel's own clock, or its latest stamp, and its cap. -/
theorem wheelStamp_le_cap (s : State) (w : Nat) : (wheelStamp s w).1 ≤ stampCap s w := by
  obtain ⟨-, -, hle, heq⟩ := wheelStamp_spec s w
  unfold stampCap
  split
  · rw [Nat.add_zero]
    exact Nat.le_of_eq (heq ‹_›)
  · exact hle

theorem wheelStamp_stampsWithin (s : State) (w : Nat) : StampsWithin s (wheelStamp s w).2 := by
  refine ⟨wheelStamp_counts s w, fun v => ?_⟩
  by_cases h : v = w
  · subst h
    rw [wheelStamp_latest]
    exact wheelStamp_le_cap s v
  · rw [wheelStamp_other s h]
    exact Nat.le_max_right _ _

/-! ### Records and tallies -/

theorem loseTo_wheels (s : State) (k : Nat) (r : Rec) : (loseTo s k r).wheels = s.wheels := by
  unfold loseTo
  dsimp only
  split
  · rfl
  · split <;> rfl

/-- A record that is offered reads its stamp from outside: it gives none. -/
theorem offer_wheels (s : State) (r : Rec) : (offer s r).wheels = s.wheels := by
  have hf : (r.dests.foldl (fun s k => loseTo s k r) s).wheels = s.wheels :=
    foldl_ms State.wheels _ (fun s k => loseTo_wheels s k r) r.dests s
  unfold offer
  split
  · rfl
  · dsimp only
    split
    · exact hf
    · exact hf

theorem offer_stampsWithin (s : State) (r : Rec) : StampsWithin s (offer s r) :=
  (offer_counts s r).stampsWithin fun w => by unfold State.wheel; rw [offer_wheels]

theorem record_stampsWithin (s : State) (type source saggar : Nat) (p : BitVec 128) (ds : List Nat) (m : Bool) (ly op : Nat) :
    StampsWithin s (record s type source saggar p ds m ly op) := by
  unfold record
  split
  · exact (wheelStamp_stampsWithin s source).trans (offer_stampsWithin _ _)
  · exact offer_stampsWithin _ _

theorem modWheel_tallies_stampsWithin (s : State) (w : Nat) (f : Tab Tally → Tab Tally) :
    StampsWithin s (s.modWheel w fun x => { x with tallies := f x.tallies }) := by
  have hc : CountsOnly s (s.modWheel w fun x => { x with tallies := f x.tallies }) :=
    CountsOnly.ofWheel s w _ ⟨_, _, Nat.le_refl _, rfl⟩ s.freeCtr (Nat.le_refl _)
  refine hc.stampsWithin fun v => ?_
  by_cases h : v = w
  · subst h; rw [State.wheel_modWheel_same]
  · rw [State.wheel_modWheel_other _ _ _ _ h]

theorem tallyAdd_stampsWithin (s : State) (g : Bool) (w i : Nat) (t : Tally) (n : Nat) : StampsWithin s (tallyAdd s g w i t n) := by
  have added (t' : Tally) : StampsWithin s (if g = true then { s with dbg := { s.dbg with gtallies := Tab.put {} s.dbg.gtallies i t' } }
      else s.modWheel w fun x => { x with tallies := Tab.put {} x.tallies i t' }) := by
    split
    · exact (CountsOnly.ofDebug s _ _ _).stampsWithin fun _ => rfl
    · exact modWheel_tallies_stampsWithin s w fun l => Tab.put {} l i t'
  unfold tallyAdd
  dsimp only
  split
  · exact (added _).trans (record_stampsWithin ..)
  · exact added _

theorem tally_stampsWithin (s : State) (w e k ly op n : Nat) : StampsWithin s (tally s w e k ly op n) := by
  unfold tally
  split
  · exact StampsWithin.refl s
  · refine foldl_stampsWithin _ (fun s p => ?_) _ _
    split
    · exact tallyAdd_stampsWithin ..
    · exact StampsWithin.refl s

theorem tallyCrew_stampsWithin (s : State) (w : Nat) (c : Crew) (e n : Nat) : StampsWithin s (tallyCrew s w c e n) := tally_stampsWithin ..

/-! ### The turn of an issue -/

/-- The turn and the crew's count of the issue leave the wheel's clock alone. -/
theorem turn_setCrew_ctl (s : State) (i : Issue) (c d : Crew) (x : CPath) (w : Nat) :
    (((turn s i c x).setCrew i.wheel i.slot d).wheel w).ctl = (s.wheel w).ctl := by
  unfold State.setCrew turn
  by_cases h : w = i.wheel
  · subst h; simp only [State.wheel_modWheel_same]; rfl
  · simp only [State.wheel_modWheel_other _ _ _ _ h]

theorem noteIssue_stampsWithin (s : State) (i : Issue) (c : Crew) (x : CPath) :
    StampsWithin ((turn s i c x).setCrew i.wheel i.slot (noted i c x)) (noteIssue s i c x) := by
  unfold noteIssue
  have h : StampsWithin _ _ := tallyCrew_stampsWithin ((turn s i c x).setCrew i.wheel i.slot (noted i c x)) i.wheel c (0x001 + 16 * c.part) 1
  dsimp only
  split
  · exact h.trans (tallyCrew_stampsWithin ..)
  · exact h

theorem stampCap_noteIssue (s : State) (i : Issue) (c : Crew) (x : CPath) (w : Nat) : stampCap (noteIssue s i c x) w ≤ stampCap s w := by
  refine Nat.le_trans ((noteIssue_stampsWithin s i c x).cap_le w) (Nat.le_of_eq ?_)
  unfold stampCap
  rw [turn_setCrew_ctl]
  rfl

/-- An issue never takes a wheel's latest stamp back (02 R47). -/
theorem noteIssue_latest (s : State) (i : Issue) (c : Crew) (x : CPath) (w : Nat) :
    (s.wheel w).ctl.lastStamp ≤ ((noteIssue s i c x).wheel w).ctl.lastStamp := by
  obtain ⟨ts, n, hn, h⟩ := (noteIssue_counts s i c x).2.1 w
  rw [turn_setCrew_ctl] at hn
  rw [h]
  exact hn

theorem noteIssue_gts (s : State) (i : Issue) (c : Crew) (x : CPath) : (noteIssue s i c x).gts = s.gts := (noteIssue_counts s i c x).gts

end Sys2Proof.Machine
end

section
/-! ## TMRD (03 R125; 02 R46, R47) -/
namespace Sys2Proof.Machine

theorem reg_setPair (c : Crew) (l r k q : Nat) (v : DWord) (hr : r + 1 < 256) (hq : q < 256) :
    reg (setPair c l r v) k q =
      if k = l ∧ q = r then v.setWidth 32 else if k = l ∧ q = r + 1 then (v >>> 32).setWidth 32 else reg c k q := by
  unfold setPair
  rw [reg_setReg _ _ _ _ _ _ hr hq, reg_setReg _ _ _ _ _ _ (by omega) hq]
  by_cases h : q = r + 1
  · have : q ≠ r := by omega
    simp [h]
  · simp [h]

theorem reg_foldl_setPair (r : Nat) (v : Nat → DWord) (hr : r + 1 < 256) : ∀ (ls : List Nat) (c : Crew) (k q : Nat), q < 256 →
    reg (ls.foldl (fun d l => setPair d l r (v l)) c) k q = if k ∈ ls ∧ q = r then (v k).setWidth 32
      else if k ∈ ls ∧ q = r + 1 then (v k >>> 32).setWidth 32 else reg c k q := by
  intro ls
  induction ls with
  | nil => intro c k q _; simp
  | cons a ls ih =>
    intro c k q hq
    rw [List.foldl_cons, ih _ _ _ hq, reg_setPair _ _ _ _ _ _ hr hq]
    by_cases hm : k ∈ ls <;> by_cases hk : k = a <;> simp_all

/-- Registers are all that a fold of pair writes changes. -/
theorem foldl_setPair_only (r : Nat) (v : Nat → DWord) : ∀ (ls : List Nat) (c : Crew),
    ls.foldl (fun d l => setPair d l r (v l)) c = { c with regs := (ls.foldl (fun d l => setPair d l r (v l)) c).regs } := by
  intro ls
  induction ls with
  | nil => intro c; rfl
  | cons a ls ih => intro c; rw [List.foldl_cons, ih]; rfl

theorem formFault_pair {c : Crew} {f : Form} (h : formFault c f = none) {r : Nat} (hr : r ∈ f.pairs) : r % 2 = 0 := by
  unfold formFault at h
  split at h
  · cases h
  · split at h
    · cases h
    case isFalse hp =>
      simp only [Bool.or_eq_true, List.any_eq_true, beq_iff_eq, not_or, not_exists, not_and] at hp
      have := hp.1 r hr
      omega

/-- The crew after `v` has been written to the pair `r` of each lane of `m`, its path behind the instruction. -/
def pairCrew (i : Issue) (c : Crew) (x : CPath) (r : Nat) (v : DWord) : Crew :=
  pathNext ((lanesOf (guardMask c x i)).foldl (fun d l => setPair d l r v) (noted i c x)) i.path

section
variable {i : Issue} {c : Crew} {x : CPath} {r : Nat} {v : DWord}

theorem pairCrew_pairs (hr : r + 1 < 256) : PairsBecome c (pairCrew i c x r v) (guardMask c x i) r fun _ => v := by
  intro l q hl hq
  refine (reg_foldl_setPair r (fun _ => v) hr _ (noted i c x) l q hq).trans ?_
  simp only [mem_lanesOf, hl, true_and, reg_noted]

theorem pairCrew_form : ∃ rs, pairCrew i c x r v = pathNext { noted i c x with regs := rs } i.path :=
  ⟨_, congrArg (fun d => pathNext d i.path) (foldl_setPair_only r (fun _ => v) _ (noted i c x))⟩

theorem pairCrew_only :
    pairCrew i c x r v = { c with
      regs := (pairCrew i c x r v).regs, paths := (pairCrew i c x r v).paths, lastPath := (pairCrew i c x r v).lastPath } := by
  obtain ⟨rs, h⟩ := pairCrew_form (i := i) (c := c) (x := x) (r := r) (v := v)
  rw [h]
  rfl

theorem pairCrew_wentOn (h : path? c i.path = some x) : WentOn c (pairCrew i c x r v) i.path x := by
  obtain ⟨rs, hd⟩ := pairCrew_form (i := i) (c := c) (x := x) (r := r) (v := v)
  rw [hd]
  exact wentOn_of_paths h rfl rfl

end

/-- TMRD takes a stamp behind the issue's own counting, and writes it. -/
theorem tmrd_next {i : Issue} {s : State} {c : Crew} {x : CPath}
    (h : Issues s i isReady { legal := i.sa == 0 && i.sb == 0 && i.x == 0, pairs := [da i] } c x) :
    ∃ g u, wheelStamp (noteIssue s i c x) i.wheel = (g, u) ∧
      exec (.tmrd i) s = commit s (u.setCrew i.wheel i.slot (pairCrew i c x (da i) (BitVec.ofNat 64 g))) := by
  refine ⟨_, _, rfl, ?_⟩
  show execTmrd i s = _
  unfold execTmrd
  rw [issue_next h]
  rfl

end Sys2Proof.Machine

open Sys2Proof Sys2Proof.Machine

/-- Settles O13: the stamp is taken after the counting of the issue, which may itself have stamped records; counting takes no stamp
beyond the wheel's cap (`stampCap_noteIssue`), nor does the stamp of TMRD (`wheelStamp_le_cap`). -/
theorem timeRead : Obligations.TimeRead := by
  unfold Obligations.TimeRead
  intro i s c x h
  obtain ⟨g, u, hg, hx⟩ := tmrd_next h
  obtain ⟨-, hp, -, -, hf⟩ := h
  have hda : da i + 1 < 256 := by
    have heven : da i % 2 = 0 := formFault_pair (f := { legal := i.sa == 0 && i.sb == 0 && i.x == 0, pairs := [da i] }) hf (by simp)
    have hlt : da i < 256 := i.da.isLt
    omega
  let d := pairCrew i c x (da i) (BitVec.ofNat 64 g)
  have hcounts : CountsOnly ((turn s i c x).setCrew i.wheel i.slot (noted i c x)) u := by
    have := (noteIssue_counts s i c x).trans (wheelStamp_counts _ i.wheel)
    rwa [hg] at this
  have hset : CountsOnly ((turn s i c x).setCrew i.wheel i.slot d) (u.setCrew i.wheel i.slot d) := hcounts.setCrew d
  have hge : max s.gts (s.wheel i.wheel).ctl.lastStamp ≤ g := by
    obtain ⟨-, hlow, -, -⟩ := wheelStamp_spec (noteIssue s i c x) i.wheel
    rw [hg, noteIssue_gts] at hlow
    have := noteIssue_latest s i c x i.wheel
    omega
  have hle : g ≤ stampCap s i.wheel := by
    have := wheelStamp_le_cap (noteIssue s i c x) i.wheel
    rw [hg] at this
    exact Nat.le_trans this (stampCap_noteIssue s i c x i.wheel)
  have hlast : (u.wheel i.wheel).ctl.lastStamp = g := by
    have := wheelStamp_latest (noteIssue s i c x) i.wheel
    rwa [hg] at this
  refine ⟨_, hx.trans (commit_counts (u := (turn s i c x).setCrew i.wheel i.slot d) rfl rfl hset), g, d, hge, ?_, fun hper => ?_, ?_,
    pairCrew_pairs hda, ⟨pairCrew_wentOn (issuer_path hp).1, ?_, hset⟩, pairCrew_only⟩
  · unfold stampCap at hle
    split at hle <;> omega
  · rw [stampCap, if_pos hper] at hle
    omega
  · unfold State.setCrew
    rw [State.wheel_modWheel_same]
    exact hlast
  · exact (hset.crew _ _).trans (by simp)

end

section
/-! ## Tables changed as a whole, or entry by entry -/
namespace Sys2Proof.Tab

variable {α β : Type}

theorem find_mapv (f : Nat → α → β) (k : Nat) : ∀ t : Tab α, find (mapv t f) k = (find t k).map (f k)
  | [] => rfl
  | (j, a) :: t => by
    have hc : mapv ((j, a) :: t) f = (j, f j a) :: mapv t f := rfl
    rw [hc, find_cons, find_cons, find_mapv f k t]
    split
    · subst j; rfl
    · rfl

/-- An entry that the filter keeps is still found. -/
theorem find_filter_of_kept (p : α → Bool) {k : Nat} {a : α} (ha : p a = true) :
    ∀ {t : Tab α}, find t k = some a → find (t.filter fun e => p e.2) k = some a
  | (j, b) :: t, h => by
    rw [find_cons] at h
    split at h
    case isTrue hj =>
      cases h
      rw [List.filter_cons, if_pos ha, find_cons, if_pos hj]
    case isFalse hj =>
      have ih := find_filter_of_kept p ha h
      rw [List.filter_cons]
      split
      · rw [find_cons, if_neg hj]; exact ih
      · exact ih

theorem mem_del {e : Nat × α} {k : Nat} : ∀ {t : Tab α}, e ∈ del t k → e ∈ t ∧ e.1 ≠ k
  | (j, b) :: t, h => by
    unfold del at h
    split at h
    case isTrue => exact ⟨List.mem_cons_of_mem _ (mem_del h).1, (mem_del h).2⟩
    case isFalse hj =>
      rcases List.mem_cons.mp h with rfl | h
      · exact ⟨List.mem_cons_self, hj⟩
      · exact ⟨List.mem_cons_of_mem _ (mem_del h).1, (mem_del h).2⟩

theorem mem_foldl_del {e : Nat × α} : ∀ (l : Tab α) {t : Tab α}, e ∈ (l.foldl (fun t a => del t a.1) t : Tab α) →
    e ∈ t ∧ ∀ a ∈ l, e.1 ≠ a.1
  | [], _, h => ⟨h, fun _ ha => absurd ha List.not_mem_nil⟩
  | _ :: l, _, h =>
    let ⟨hd, hl⟩ := mem_foldl_del l h
    ⟨(mem_del hd).1, List.forall_mem_cons.mpr ⟨(mem_del hd).2, hl⟩⟩

/-- Removing every key that a table lists leaves nothing of it. -/
theorem foldl_del_listed (t : Tab α) : (t.foldl (fun u e => del u e.1) t : Tab α) = [] :=
  List.eq_nil_iff_forall_not_mem.mpr fun e h => (mem_foldl_del t h).2 e (mem_foldl_del t h).1 rfl

end Sys2Proof.Tab
end

section
/-! ## The TIME tick (02 R41, R55, R60, R68; 18 R616) -/
namespace Sys2Proof.Machine

/-- The time unit after a tick; GTS and media time both advance before a pending capture reads them (R68). -/
def tickedTime (s : State) : TimeUnit :=
  let t := { s.time with gts := s.time.gts + 1, mt := s.time.mt + mtStep s, watch := if s.frozen then s.time.watch else s.time.watch + 1 }
  match s.time.pairDue, s.time.capture with
  | some (g, m), _ => { t with pairGts := g, pairMt := m, pairSeq := t.pairSeq + 1, pairDue := none, capture := false }
  | none, true => { t with pairGts := t.gts, pairMt := t.mt, pairSeq := t.pairSeq + 1, capture := false }
  | none, false => t

theorem timeTick_unlocked {s : State} (h : s.time.locked = false) : timeTick s = s := by simp [timeTick, h]

theorem timeTick_locked {s : State} (h : s.time.locked = true) : timeTick s = latchReady { s with time := tickedTime s } := by
  have hl : ¬(!s.time.locked) = true := by simp [h]
  exact if_neg hl

section
variable (s : State)

theorem tickedTime_gts : (tickedTime s).gts = s.time.gts + 1 := by
  unfold tickedTime
  cases s.time.pairDue <;> cases s.time.capture <;> rfl

theorem tickedTime_mt : (tickedTime s).mt = s.time.mt + mtStep s := by
  unfold tickedTime
  cases s.time.pairDue <;> cases s.time.capture <;> rfl

theorem tickedTime_watch : (tickedTime s).watch = if s.frozen then s.time.watch else s.time.watch + 1 := by
  unfold tickedTime
  cases s.time.pairDue <;> cases s.time.capture <;> rfl

/-- A capture of an earlier tick's trigger comes before a capture that software asked for (R68, R69). -/
theorem tickedTime_pair : ((tickedTime s).pairGts, (tickedTime s).pairMt) = (match s.time.pairDue with
    | some p => p
    | none => if s.time.capture then ((tickedTime s).gts, (tickedTime s).mt) else (s.time.pairGts, s.time.pairMt)) := by
  unfold tickedTime
  cases s.time.pairDue <;> cases s.time.capture <;> rfl

theorem tickedTime_pairSeq :
    (tickedTime s).pairSeq = if s.time.pairDue.isSome || s.time.capture then s.time.pairSeq + 1 else s.time.pairSeq := by
  unfold tickedTime
  cases s.time.pairDue <;> cases s.time.capture <;> rfl

theorem tickedTime_pairDue : (tickedTime s).pairDue = none := by
  unfold tickedTime
  cases hd : s.time.pairDue with
  | some p => rfl
  | none => cases s.time.capture <;> exact hd

theorem tickedTime_capture : (tickedTime s).capture = false := by
  unfold tickedTime
  cases s.time.pairDue with
  | some p => rfl
  | none =>
    cases hc : s.time.capture with
    | true => rfl
    | false => exact hc

end

/-- What a flow's edge takes as tick `s` begins, by the flow's binding (R55). -/
def latchEdge (s : State) (bind : Option FlowBind) (e : FEdge) : FEdge :=
  match bind with
  | some b => if e.d = s.gts then { e with ready := some (readyWord s b) } else e
  | none => e

theorem latchReady_flow (s : State) (f : Nat) :
    (latchReady s).flow f = { s.flow f with edges := (s.flow f).edges.map (latchEdge s (s.flow f).bind) } := by
  have latched (x : Flow) : (match x.bind with
      | none => x
      | some b => { x with edges := x.edges.map fun e => if e.d = s.gts then { e with ready := some (readyWord s b) } else e }) =
      { x with edges := x.edges.map (latchEdge s x.bind) } := by
    cases hb : x.bind with
    | none =>
      have hid : latchEdge s none = id := rfl
      simp only [hid, List.map_id]
      cases x
      cases hb
      rfl
    | some b => rfl
  unfold latchReady State.flow Tab.get
  dsimp only
  rw [Tab.find_mapv]
  cases Tab.find s.frm.flows f with
  | none => rfl
  | some x => exact latched x

end Sys2Proof.Machine

open Sys2Proof Sys2Proof.Machine

/-- Settles O2: while GTS does not run a tick changes nothing; else the time unit ticks (`tickedTime`) and the deadlines of the new tick
take their READY_WORD (`latchReady_flow`). -/
theorem idleTick : Obligations.IdleTick := by
  unfold Obligations.IdleTick
  intro s hp
  refine ⟨fun hl => ?_, fun hl => ?_⟩
  · rw [step_idle hp, timeTick_unlocked hl]
  · refine ⟨_, (step_idle hp).trans (by rw [timeTick_locked hl]), tickedTime_gts s, tickedTime_mt s, tickedTime_watch s, tickedTime_pair s,
      tickedTime_pairSeq s, tickedTime_pairDue s, tickedTime_capture s, fun f => ?_, rfl⟩
    exact (latchReady_flow _ f).trans rfl

end

section
/-! ## Events of the time unit (02 R35, R36, R41, R42, R61, R62, R66 to R70) -/
namespace Sys2Proof.Machine

/-- A command whose occasion has come takes its effect. -/
theorem act_occasion {occ : Bool} {f : State → State} {s : State} (h : occ = true) : act true (whenD occ f) s = .next (kept s (f s)) := by
  subst h; rfl

/-- A command whose occasion has not come changes nothing. -/
theorem act_no_occasion {occ : Bool} {f : State → State} {s : State} (h : occ = false) : act true (whenD occ f) s = .next s := by
  subst h; rfl

/-! ### The root PLL and its reference -/

section
variable {s : State}

/-- GTS starts at zero with the lock, in a new epoch, and device memory is what it was (R41). -/
theorem rootPllLock_starts (hh : s.hub.state = .powering) (hl : s.time.locked = false) :
    Goes (exec .rootPllLock s) fun t => t.time.locked = true ∧ t.time.gts = 0 ∧ t.time.epoch = s.time.epoch + 1 ∧ t.time.mt = 0 ∧
      t.time.rate = 0 ∧ SameMemory s t := by
  have hocc : (s.hub.state == .powering && !s.time.locked) = true := by simp [hh, hl]
  exact ⟨_, act_occasion hocc, rfl, rfl, rfl, rfl, rfl, fun _ => rfl⟩

theorem refLoss_holds (hl : s.time.locked = true) (hh : s.time.holdover = false) : exec (.refLoss true) s =
    .next { s with time := { s.time with holdover := true, refPresent := false, lostAt := s.gts } } := by
  have hocc : (true && s.time.locked && !s.time.holdover) = true := by simp [hl, hh]
  exact act_occasion hocc

theorem refReturn_late (hh : s.time.holdover = true) (hg : s.time.lostAt + 400000 < s.gts) : exec .refReturn s = .next s := by
  have hocc : (s.time.locked && !(s.time.holdover && decide (s.time.lostAt + holdTicks < s.gts))) = false := by simp [hh, holdTicks, hg]
  exact act_no_occasion hocc

theorem refReturn_relocks (hl : s.time.locked = true) (hg : s.time.holdover = true → s.gts ≤ s.time.lostAt + 400000) :
    exec .refReturn s = .next { s with time := { s.time with
      holdover := false, refPresent := true, refLoss := if s.time.holdover then min 0xFF (s.time.refLoss + 1) else s.time.refLoss } } := by
  have hocc : (s.time.locked && !(s.time.holdover && decide (s.time.lostAt + holdTicks < s.gts))) = true := by
    cases hh : s.time.holdover with
    | false => simp [hl]
    | true =>
      have hin : decide (s.time.lostAt + holdTicks < s.gts) = false := decide_eq_false (Nat.not_lt.mpr (hg hh))
      simp [hl, hin]
  exact act_occasion hocc

theorem holdoverExpiry_fails (hl : s.time.locked = true) (hh : s.time.holdover = true) (hs : s.serving = true) : exec .holdoverExpiry s =
    .next (if s.time.lostAt + 400000 < s.gts then kept s (enterFailed s 3 12 0 13) else s) := by
  split
  case isTrue hg =>
    have hout : decide (s.time.lostAt + holdTicks < s.gts) = true := decide_eq_true hg
    exact act_occasion (by simp [hl, hh, hs, hout])
  case isFalse hg =>
    have hin : decide (s.time.lostAt + holdTicks < s.gts) = false := decide_eq_false hg
    exact act_no_occasion (by simp [hin])

end

/-! ### PTP: the servo takes an offset (R62, R64) -/

/-- What the servo remembers of the Syncs it has heard: the last one's times, and a two-step Sync that waits. -/
def syncMemory (s : State) : Option (Int × Int) × Option (Nat × Int) := (s.time.servo.lastT, s.time.servo.syncPend)

theorem steer_syncMemory (s : State) (d : Int) : syncMemory (steer s d) = syncMemory s := rfl

theorem record_time (s : State) (type source saggar : Nat) (p : BitVec 128) (ds : List Nat) (m : Bool) (ly op : Nat) :
    (record s type source saggar p ds m ly op).time = s.time := (record_counts s type source saggar p ds m ly op).time

theorem edgeRecord_time (s : State) (f event : Nat) (n : Word) (g : Nat) : (edgeRecord s f event n g).time = s.time := by
  unfold edgeRecord
  split
  · rfl
  · exact record_time ..

theorem reEdge_time (s : State) : (reEdge s).time = s.time := by
  unfold reEdge
  split
  · rfl
  · refine foldl_ms State.time _ (fun s f => ?_) _ s
    dsimp only
    split
    · rfl
    · exact edgeRecord_time ..

theorem stepMedia_syncMemory (s : State) (o : Int) : syncMemory (stepMedia s o) = syncMemory s := by
  unfold stepMedia syncMemory
  dsimp only
  rw [reEdge_time, record_time]
  simp only [modTime, record_time]

/-- An offset changes ρ, media time or the servo's state, never what it remembers of the Syncs. -/
theorem servo_syncMemory (s : State) (o r : Int) : syncMemory (servo s o r) = syncMemory s := by
  have stepped (big : Bool) (u : State) (hu : syncMemory u = syncMemory s) :
      syncMemory (if big then stepMedia u o else steer u r) = syncMemory s := by
    split
    · rw [stepMedia_syncMemory, hu]
    · rw [steer_syncMemory, hu]
  unfold servo
  dsimp only
  split
  case h_1 => exact stepped _ _ rfl
  case h_2 => split <;> rfl
  case h_3 =>
    split
    · rw [stepMedia_syncMemory]; rfl
    · rfl
  case h_4 =>
    split
    · rfl
    · exact stepped _ _ rfl

/-! ### PTP: messages of the selected master (R61) -/

/-- What the frame engine holds of the synchronization metadata after a message. -/
theorem passTlv_eq (s : State) (tlv : List Byte) :
    passTlv s tlv = { s with frm := { s.frm with tlv := if tlv = [] then s.frm.tlv else tlv } } := by
  unfold passTlv
  split <;> rfl

theorem takeSync_syncMemory (s : State) (a b r : Int) : syncMemory (takeSync s a b r) = (some (a, b), none) := by
  unfold takeSync
  dsimp only
  split
  · rfl
  · exact servo_syncMemory _ _ _

/-- Before the path delay is known a Sync gives no offset: its times are noted, and a Delay_Req leaves. -/
theorem takeSync_noDelay {s : State} (h : s.time.servo.delay = none) (a b r : Int) :
    ∃ u m, takeSync s a b r = { s with time := u, outbox := m :: s.outbox } := by
  unfold takeSync
  simp only [h]
  exact ⟨_, _, rfl⟩

section
variable {s : State}

theorem ptpSync_next {m : SyncMsg} (hd : ptpHears s m.domain = true) (hm : ofMaster s m.clock = true) (hl : logOk m.logInterval = true) :
    exec (.ptpSync m) s = .next (kept s (
      let u := { s with frm := { s.frm with tlv := if m.tlv = [] then s.frm.tlv else m.tlv } }
      let received : Int := s.time.mt - s.img.rxLat * 2 ^ 41
      if m.twoStep then
        modTime u fun t => { t with servo := { t.servo with syncPend := some (m.seq, received), lastSync := t.watch } }
      else takeSync u m.origin received m.rateStep)) := by
  have hocc : (ptpHears s m.domain && ofMaster s m.clock && logOk m.logInterval) = true := by simp [hd, hm, hl]
  refine (act_occasion hocc).trans ?_
  rw [passTlv_eq]

theorem ptpFollowUp_next {m : SyncMsg} {r : Int} (hd : ptpHears s m.domain = true) (hm : ofMaster s m.clock = true)
    (hp : s.time.servo.syncPend = some (m.seq, r)) :
    exec (.ptpFollowUp m) s = .next (kept s (
      takeSync { s with frm := { s.frm with tlv := if m.tlv = [] then s.frm.tlv else m.tlv } } m.origin r m.rateStep)) := by
  have hocc : (ptpHears s m.domain && ofMaster s m.clock) = true := by simp [hd, hm]
  refine (act_occasion hocc).trans ?_
  simp [hp, passTlv_eq]

/-- The mean path delay from one Delay_Req and its Delay_Resp (R61; log entry 48). -/
theorem ptpDelayResp_next {m : DelayResp} {a b c : Int} (hd : ptpHears s m.domain = true) (hm : ofMaster s m.clock = true)
    (hq : s.time.servo.delayReq = some (m.seq, a)) (hl : s.time.servo.lastT = some (b, c)) :
    exec (.ptpDelayResp m) s = .next (modTime s fun t => { t with servo := { t.servo with
      delayReq := none, delay := some (((c - b) + ((m.receive : Int) - a)) / 2) } }) := by
  have hocc : (ptpHears s m.domain && ofMaster s m.clock) = true := by simp [hd, hm]
  refine (act_occasion hocc).trans ?_
  simp only [hq, hl, bne_self_eq_false, Bool.false_eq_true, if_false]
  rfl

/-- The only foreign master heard is the best one. -/
theorem ptpAnnounce_first {m : Announce} (hd : ptpHears s m.domain = true) (hf : s.time.servo.foreign = []) :
    Goes (exec (.ptpAnnounce m) s) fun t => t = { s with time := t.time } ∧ t.time.servo.master = some m.clock ∧
      t.time.servo.foreign.length = 1 := by
  refine ⟨_, act_occasion hd, rfl, ?_⟩
  simp only [hf, kept, modTime, List.filter_nil, List.nil_append, List.length_nil, Nat.zero_lt_succ, if_true]
  split <;> exact ⟨rfl, rfl⟩

theorem ptpSyncTimeout_next (hs : s.serving = true) (hv : s.time.servo.state = 1 ∨ s.time.servo.state = 2)
    (hw : s.time.servo.lastSync + tickRate ≤ s.watch) : exec .ptpSyncTimeout s =
      .next { s with time := { s.time with servo := { s.time.servo with state := 3, good := 0, bad := 0 } } } := by
  have hocc : (s.serving && (s.time.servo.state == 1 || s.time.servo.state == 2) &&
      decide (s.time.servo.lastSync + tickRate ≤ s.watch)) = true := by
    rcases hv with hv | hv <;> simp [hs, hv, hw]
  exact act_occasion hocc

end

/-! ### Genlock (R66, R67) -/

theorem spacings_length : ∀ l : List Nat, (spacings l).length = l.length - 1
  | [] => rfl
  | [_] => rfl
  | _ :: b :: l => by
    unfold spacings
    rw [List.length_cons, spacings_length (b :: l)]
    rfl

theorem sum_of_equal {l : List Nat} {d : Nat} (h : ∀ q ∈ l, q = d) : l.sum = l.length * d := by
  rw [List.eq_replicate_of_mem h, List.sum_replicate_nat, List.length_replicate]

/-- Equal spacings are steady. -/
theorem steady_of_equal {l : List Nat} {d : Nat} (h : ∀ q ∈ l, q = d) : steady l = true := by
  unfold steady
  rw [List.all_eq_true]
  intro q hq
  rw [sum_of_equal h, h q hq, Nat.mul_comm d]
  simp

/-- The genlock input after an edge. -/
def edgeGen (s : State) : Genlock :=
  let edges := (s.gts :: s.time.gen.edges).take 16
  let full := edges.length == 16
  { s.time.gen with
    gts := s.time.gts, last := s.watch, edges
    present := s.time.gen.present || (full && steady (spacings edges))
    period := if full then BitVec.ofNat 32 ((spacings edges).sum / 15) else s.time.gen.period }

theorem edgeGen_steady {s : State} {d : Nat} (hn : 15 ≤ s.time.gen.edges.length)
    (hd : ∀ q ∈ spacings ((s.gts :: s.time.gen.edges).take 16), q = d) :
    (edgeGen s).present = true ∧ (edgeGen s).period = BitVec.ofNat 32 d := by
  have hlen : ((s.gts :: s.time.gen.edges).take 16).length = 16 := by
    rw [List.length_take, List.length_cons]
    omega
  have hsum : (spacings ((s.gts :: s.time.gen.edges).take 16)).sum / 15 = d := by
    rw [sum_of_equal hd, spacings_length, hlen]
    omega
  unfold edgeGen
  simp only [hlen, hsum, steady_of_equal hd, beq_self_eq_true, Bool.and_self, Bool.or_true, if_true, and_self]

section
variable {s : State}

theorem genlockEdge_next (hs : s.serving = true) (hl : s.time.locked = true)
    (he : s.time.gen.edges = [] ∨ s.time.gen.edges.headD 0 + 400 ≤ s.gts) : exec .genlockEdge s =
      .next (if s.time.onGenlock then capturePair (modTime s fun t => { t with gen := edgeGen s })
        else modTime s fun t => { t with gen := edgeGen s }) := by
  have hocc : (s.serving && s.time.locked) = true := by simp [hs, hl]
  have hglitch : (s.time.gen.edges != [] && decide (s.gts < s.time.gen.edges.headD 0 + 400)) = false := by
    rcases he with he | he
    · simp [he]
    · rw [decide_eq_false (by omega), Bool.and_false]
  refine (act_occasion hocc).trans ?_
  dsimp only
  rw [hglitch]
  show Host.Outcome.next (kept s (if s.time.onGenlock then _ else _)) = _
  split <;> rfl

theorem genlockTimeout_next (hs : s.serving = true) (hp : s.time.gen.present = true)
    (hw : s.time.gen.last + 2 * s.time.gen.period.toNat < s.watch) : exec .genlockTimeout s =
      .next { s with time := { s.time with gen := { s.time.gen with present := false, edges := [] } } } := by
  have hocc : (s.serving && s.time.gen.present && decide (s.time.gen.last + 2 * s.time.gen.period.toNat < s.watch)) = true := by
    simp [hs, hp, hw]
  exact act_occasion hocc

/-! ### Pairing (R68 to R70) -/

theorem mediaSecondRollover_next (hl : s.time.locked = true) (ho : s.time.onSecond = true)
    (hm : mtSecs (s.time.mt - mtStep s) ≠ mtSecs s.time.mt) : exec .mediaSecondRollover s = .next (capturePair s) := by
  have hocc : (s.time.locked && s.time.onSecond && decide (mtSecs (s.time.mt - mtStep s) ≠ mtSecs s.time.mt)) = true := by
    simp [hl, ho, hm]
  exact act_occasion hocc

theorem timPairCapture_next (h : hostUp s = true) :
    exec .timPairCapture s = .next { s with time := { s.time with capture := true } } := act_occasion h

theorem timMtNsRead_next (h : hostUp s = true) : exec .timMtNsRead s = .next { s with
    time := { s.time with mtSecLatch := BitVec.ofNat 48 (mtSecs s.time.mt) }
    outbox := .readData (BitVec.ofNat 64 (mtNanos s.time.mt)) :: s.outbox } := act_occasion h

end

end Sys2Proof.Machine

open Sys2Proof Sys2Proof.Machine

/-- Settles O45, event by event. The two-step Sync, the delay of one Delay_Req and Delay_Resp pair, and the count of reference losses are
log entry 48. -/
theorem timeEvents : Obligations.TimeEvents := by
  unfold Obligations.TimeEvents
  intro s v
  refine ⟨rootPllLock_starts, refLoss_holds, fun _ => refReturn_late, refReturn_relocks, holdoverExpiry_fails, ?sync, ?followUp, ?delayResp,
    fun m => ptpAnnounce_first, ?syncTimeout, ?genlock, genlockTimeout_next, ?rollover, timPairCapture_next, timMtNsRead_next⟩
  case sync =>
    intro m hd hm hl tlv
    have hx := ptpSync_next hd hm hl
    refine ⟨fun h2 => ?_, fun h2 => ?_⟩
    · rw [h2] at hx
      exact ⟨_, hx, rfl, rfl, rfl⟩
    · rw [h2] at hx
      refine ⟨_, hx, congrArg Prod.fst (takeSync_syncMemory _ _ _ _), fun hv => ?_⟩
      obtain ⟨u, msg, ht⟩ := takeSync_noDelay (s := { s with frm := { s.frm with tlv := tlv } }) hv m.origin
        (s.time.mt - s.img.rxLat * 2 ^ 41) m.rateStep
      simp only [Bool.false_eq_true, if_false]
      rw [ht]
      exact ⟨rfl, rfl⟩
  case followUp =>
    intro m r hd hm hp
    refine ⟨_, ptpFollowUp_next hd hm hp, congrArg Prod.fst (takeSync_syncMemory _ _ _ _),
      congrArg Prod.snd (takeSync_syncMemory _ _ _ _), fun hv => ?_⟩
    obtain ⟨u, msg, ht⟩ := takeSync_noDelay (s := { s with frm := { s.frm with tlv := if m.tlv = [] then s.frm.tlv else m.tlv } }) hv
      m.origin r m.rateStep
    rw [ht]
    rfl
  case delayResp => exact fun m a b c hd hm hq hl => ⟨_, ptpDelayResp_next hd hm hq hl, rfl, rfl⟩
  case syncTimeout => exact fun hs hv hw => ⟨_, ptpSyncTimeout_next hs hv hw, rfl, rfl, rfl⟩
  case rollover => exact fun hl ho hm => ⟨_, mediaSecondRollover_next hl ho hm, rfl, rfl⟩
  case genlock =>
    intro hs hl he
    refine ⟨_, genlockEdge_next hs hl he, ?_⟩
    split
    case isTrue => exact ⟨rfl, rfl, fun _ => Option.some_ne_none _, fun d hn hd => edgeGen_steady hn hd⟩
    case isFalse ho => exact ⟨rfl, rfl, fun h => absurd h ho, fun d hn hd => edgeGen_steady hn hd⟩

end

section
/-! ## What a performed write and a saved context leave of the wheels: all but stamps and tallies (08 R331, 11 R399) -/
namespace Sys2Proof.Machine

/-- Every wheel is as it was but for its tallies and its latest stamp. -/
structure WheelsCounted (s t : State) : Prop where
  wheel : ∀ w, WheelCounted (s.wheel w) (t.wheel w)

theorem WheelsCounted.refl (s : State) : WheelsCounted s s := ⟨fun w => WheelCounted.refl (s.wheel w)⟩

theorem WheelsCounted.trans {s t u : State} (h : WheelsCounted s t) (g : WheelsCounted t u) : WheelsCounted s u :=
  ⟨fun w => (h.wheel w).trans (g.wheel w)⟩

theorem WheelsCounted.of_wheels {s t : State} (h : t.wheels = s.wheels) : WheelsCounted s t := ⟨fun w => by
  have hw : t.wheel w = s.wheel w := by unfold State.wheel; rw [h]
  rw [hw]
  exact WheelCounted.refl _⟩

/-- Counting that sets in once something but the wheels has changed. -/
theorem WheelsCounted.after {s u t : State} (h : WheelsCounted u t) (hu : u.wheels = s.wheels) : WheelsCounted s t :=
  (WheelsCounted.of_wheels hu).trans h

theorem CountsOnly.wheelsCounted {s t : State} (h : CountsOnly s t) : WheelsCounted s t := ⟨h.2.1⟩

theorem foldl_wheelsCounted {α : Type} (f : State → α → State) (h : ∀ s a, WheelsCounted s (f s a)) :
    ∀ (l : List α) (s : State), WheelsCounted s (l.foldl f s) := fun l s =>
  List.foldlRecOn l f (WheelsCounted.refl s) fun t ht a _ => ht.trans (h t a)

theorem WheelCounted.crews {x y : Wheel} (h : WheelCounted x y) : y.crews = x.crews := by
  obtain ⟨ts, n, -, rfl⟩ := h
  rfl

theorem WheelCounted.evict {x y : Wheel} (h : WheelCounted x y) : y.ctl.evict = x.ctl.evict := by
  obtain ⟨ts, n, -, rfl⟩ := h
  rfl

theorem staleWait_wheelsCounted (s : State) (w : Wait) (c : Word) : WheelsCounted s (staleWait s w c) := by
  unfold staleWait
  dsimp only
  split
  · split <;> exact (record_counts ..).wheelsCounted
  · exact (record_counts ..).wheelsCounted
  · exact WheelsCounted.refl s

theorem judgeWord_wheelsCounted (s : State) (pa : Nat) : WheelsCounted s (judgeWord s pa) := by
  refine foldl_wheelsCounted _ (fun s e => ?_) _ s
  split
  · unfold judgeWait
    split
    · exact .of_wheels rfl
    · exact (staleWait_wheelsCounted ..).after rfl
    · exact .of_wheels rfl
  · exact WheelsCounted.refl s

theorem offerTail_wheelsCounted (s : State) (n : Nat) (t : Word) : WheelsCounted s (offerTail s n t) := by
  unfold offerTail
  dsimp only
  split
  · split
    · exact (gtally_counts ..).wheelsCounted.after rfl
    · exact ((record_counts ..).trans (gtally_counts ..)).wheelsCounted
  · exact WheelsCounted.refl s

theorem noteTail_wheelsCounted (s : State) (pa : Nat) : WheelsCounted s (noteTail s pa) := by
  refine foldl_wheelsCounted _ (fun s e => ?_) _ s
  split
  · unfold takeTail
    split
    · exact (offerTail_wheelsCounted ..).after rfl
    · exact WheelsCounted.refl s
  · exact WheelsCounted.refl s

theorem markDirty_wheelsCounted (s : State) (pa : Nat) : WheelsCounted s (markDirty s pa) := by
  unfold markDirty
  dsimp only
  split
  · unfold frozenWritten
    dsimp only
    refine (foldl_wheelsCounted _ (fun s e => ?_) _ _).after rfl
    split
    · exact (record_counts ..).wheelsCounted
    · exact WheelsCounted.refl s
  · exact WheelsCounted.refl s

theorem touchLine_wheelsCounted (s : State) (pa : Nat) (w : Bool) (c : Nat) : WheelsCounted s (touchLine s pa w c) := by
  unfold touchLine
  dsimp only
  split
  · exact (gtally_counts ..).wheelsCounted.trans (.of_wheels rfl)
  · split
    · exact (gtally_counts ..).wheelsCounted
    · exact (gtally_counts ..).wheelsCounted.trans (.of_wheels rfl)

theorem memPut_wheels : ∀ (l : List Byte) (s : State) (pa : Nat), (memPut s pa l).wheels = s.wheels
  | [], _, _ => rfl
  | b :: l, s, pa => memPut_wheels l (memPut1 s pa b) (pa + 1)

/-- A performed write reaches no wheel but by the records it gives rise to. -/
theorem performWrite_wheelsCounted (s : State) (pa : Nat) (bs : List Byte) (c : Nat) : WheelsCounted s (performWrite s pa bs c) := by
  have noticed (u : State) : WheelsCounted u (afterWrite u pa bs.length) :=
    (foldl_wheelsCounted _ (fun s a => (judgeWord_wheelsCounted s a).trans (noteTail_wheelsCounted _ a)) _ u).trans
      (markDirty_wheelsCounted _ pa)
  unfold performWrite
  refine ((touchLine_wheelsCounted _ pa true c).trans (noticed _)).after ?_
  rw [memPut_wheels]
  split <;> rfl

theorem saveContext_wheelsCounted (s : State) (k : Nat) (r : Res) : WheelsCounted s (saveContext s k r) := by
  unfold saveContext
  dsimp only
  refine (foldl_wheelsCounted _ (fun s j => ?_) _ _).after rfl
  split
  · exact WheelsCounted.refl s
  · exact (performWrite_wheelsCounted ..).after rfl

end Sys2Proof.Machine
end

section
/-! ## Tasks go back: what an announcement changes of a wheel (03 R111, R114, R115) -/
namespace Sys2Proof.Machine

/-- The wheel's control tells it from an unlisted wheel, whatever is announced to it: it is not plainly ON. -/
def Marked (x : Wheel) : Prop := x.ctl.state ≠ .on ∨ x.ctl.evict = true

/-- `y` is the wheel `x` after announcements of work: its search for work and its request to wake may have started anew. -/
def Announced (x y : Wheel) : Prop :=
  ∃ r g n p k, y = { x with
    work := { x.work with retry := r, gotEmpty := g, nextProbe := n, probe := p }, ctl := { x.ctl with waking := k } }

theorem Announced.refl (x : Wheel) : Announced x x := ⟨_, _, _, _, _, rfl⟩

theorem Announced.trans {x y z : Wheel} (h : Announced x y) (g : Announced y z) : Announced x z := by
  obtain ⟨_, _, _, _, _, rfl⟩ := h
  obtain ⟨_, _, _, _, _, rfl⟩ := g
  exact ⟨_, _, _, _, _, rfl⟩

theorem Announced.marked {x y : Wheel} (h : Announced x y) (hm : Marked x) : Marked y := by
  obtain ⟨_, _, _, _, _, rfl⟩ := h
  exact hm

theorem Marked.listed {x : Wheel} (h : Marked x) : x ≠ {} := by
  rintro rfl
  rcases h with h | h
  · exact h rfl
  · cases h

/-- A change of every listed wheel, read at a wheel that it leaves different from an unlisted one. -/
theorem wheel_mapWheels {s : State} {f : Nat → Wheel → Wheel} {w : Nat} (hd : f w {} = {}) (hx : f w (s.wheel w) ≠ {}) :
    (s.mapWheels f).wheel w = f w (s.wheel w) := by
  cases hf : Tab.find s.wheels w with
  | none =>
    have h0 : s.wheel w = {} := by unfold State.wheel Tab.get; rw [hf]; rfl
    exact absurd (h0 ▸ hd) hx
  | some x =>
    have h0 : s.wheel w = x := by unfold State.wheel Tab.get; rw [hf]; rfl
    rw [h0] at hx ⊢
    have hmap : Tab.find (Tab.mapv s.wheels f) w = some (f w x) := by rw [Tab.find_mapv, hf]; rfl
    have hkept := Tab.find_filter_of_kept (fun y : Wheel => y != {}) (bne_iff_ne.mpr hx) hmap
    unfold State.wheel State.mapWheels Tab.get
    dsimp only
    rw [hkept]
    rfl

theorem mapWheels_announced {s : State} {f : Nat → Wheel → Wheel} {w : Nat} (hd : f w {} = {}) (hf : ∀ x, Announced x (f w x))
    (hm : Marked (s.wheel w)) : Announced (s.wheel w) ((s.mapWheels f).wheel w) := by
  rw [wheel_mapWheels hd ((hf _).marked hm).listed]
  exact hf _

theorem announceWork_announced {s : State} {w : Nat} (k : Nat) (hm : Marked (s.wheel w)) :
    Announced (s.wheel w) ((announceWork s k).wheel w) := by
  have searching : Announced _ _ := mapWheels_announced (s := s) (w := w) (f := fun w x =>
      if (s.saggar k).cfg.rights.getLsbD w && x.work.retry then
        { x with work := { x.work with retry := false, gotEmpty := false, nextProbe := 0, probe := none } } else x)
    (by simp) (fun x => by dsimp only; split <;> exact ⟨_, _, _, _, _, rfl⟩) hm
  refine searching.trans (mapWheels_announced (by simp) (fun x => ?_) (searching.marked hm))
  dsimp only
  split <;> exact ⟨_, _, _, _, _, rfl⟩

theorem wakePass_wheels (s : State) (k cls : Nat) : (wakePass s k cls).wheels = s.wheels := by
  unfold wakePass
  split
  · rfl
  · dsimp only
    split <;> rfl

/-- A wheel's part in a return of tasks to the market, or to a launch's pins: it hears the announcement. -/
theorem returnRange_announced {s : State} {w : Nat} (v : Nat) (r : TaskRange) (hm : Marked (s.wheel w)) :
    Announced (s.wheel w) ((returnRange s v r).wheel w) := by
  have offered (u : State) (hu : u.wheels = s.wheels) (k : Nat) : Announced (s.wheel w) ((announceWork u k).wheel w) := by
    have hw : u.wheel w = s.wheel w := by unfold State.wheel; rw [hu]
    rw [← hw] at hm ⊢
    exact announceWork_announced k hm
  unfold returnRange
  split
  · exact Announced.refl _
  · split
    · refine offered _ ?_ _
      split
      · rfl
      · exact wakePass_wheels ..
    · split
      · exact Announced.refl _
      · exact offered _ (wakePass_wheels ..) _

theorem foldl_returnRange_announced {w : Nat} (v : Nat) : ∀ (rs : List TaskRange) {s : State}, Marked (s.wheel w) →
    Announced (s.wheel w) ((rs.foldl (fun s r => returnRange s v r) s).wheel w)
  | [], _, _ => Announced.refl _
  | r :: rs, _, hm =>
    let h := returnRange_announced v r hm
    h.trans (foldl_returnRange_announced v rs (h.marked hm))

/-- A wheel that gives all its tasks back holds none. -/
theorem returnAll_announced {s : State} {w : Nat} (hm : Marked (s.wheel w)) :
    Announced { s.wheel w with work := { (s.wheel w).work with deque := [], kept := [] } } ((returnAll s w).wheel w) := by
  have hw : (modWork s w fun k => { k with deque := [], kept := [] }).wheel w =
      { s.wheel w with work := { (s.wheel w).work with deque := [], kept := [] } } := State.wheel_modWheel_same ..
  have h := foldl_returnRange_announced (w := w) w ((s.wheel w).work.deque ++ (s.wheel w).work.kept).reverse
    (s := modWork s w fun k => { k with deque := [], kept := [] }) (by rw [hw]; exact hm)
  rw [hw] at h
  exact h

end Sys2Proof.Machine
end

section
/-! ## Evictions empty the wheel (03 R114, R117) -/
namespace Sys2Proof.Machine

theorem unarrive_wheels (s : State) (c : Crew) : (unarrive s c).wheels = s.wheels := by
  refine foldl_ms State.wheels _ (fun s p => ?_) _ s
  split
  · dsimp only
    split <;> rfl
  · rfl

theorem lingers_crews (x y : Wheel) (now : Nat) : (lingers x y now).crews = y.crews := by
  unfold lingers
  split <;> rfl

theorem lingers_ctl (x y : Wheel) (now : Nat) : (lingers x y now).ctl = y.ctl := by
  unfold lingers
  split <;> rfl

theorem modCtl_ctl (s : State) (w : Nat) (f : WhlCtl → WhlCtl) : ((modCtl s w f).wheel w).ctl = f (s.wheel w).ctl := by
  unfold modCtl
  rw [State.wheel_modWheel_same]

theorem modCtl_crews (s : State) (w : Nat) (f : WhlCtl → WhlCtl) : ((modCtl s w f).wheel w).crews = (s.wheel w).crews := by
  unfold modCtl
  rw [State.wheel_modWheel_same]

/-- A task that returns leaves an evicting wheel its crews and its eviction. -/
theorem returnRange_evicting {s : State} {w : Nat} (v : Nat) (r : TaskRange) (he : (s.wheel w).ctl.evict = true) :
    ((returnRange s v r).wheel w).crews = (s.wheel w).crews ∧ ((returnRange s v r).wheel w).ctl.evict = true := by
  obtain ⟨_, _, _, _, _, h⟩ := returnRange_announced v r (.inr he)
  rw [h]
  exact ⟨rfl, he⟩

/-- The wheel once the crew in `slot` has left it, its queues withdrawn. -/
theorem leave_wheel {s u : State} {w : Nat} (hu : WheelCounted (s.wheel w) (u.wheel w)) (slot uid now : Nat) :
    let t := u.modWheel w fun x => lingers x (entryFrees (withdraw (leaveSlot x slot) uid)) now
    (t.wheel w).crews = Tab.del (s.wheel w).crews slot ∧ (t.wheel w).ctl.evict = (s.wheel w).ctl.evict := by
  dsimp only
  rw [State.wheel_modWheel_same, lingers_crews, lingers_ctl]
  exact ⟨congrArg (Tab.del · slot) hu.crews, hu.evict⟩

/-- An eviction saves the crew's context, lets the crew leave the wheel, and returns its task. -/
theorem evictCrew_stages (s : State) (w slot : Nat) (c : Crew) : ∃ u now cr since r, WheelsCounted s u ∧
    evictCrew s w slot c = returnRange (modCtl { (u.modWheel w fun x => lingers x (entryFrees (withdraw (leaveSlot x slot) c.uid)) now) with
      crier := cr } w fun k => { k with idleSince := since }) w r := by
  unfold evictCrew
  dsimp only
  generalize withdrawn (s.wheel w) c.uid = nb
  obtain ⟨n, back⟩ := nb
  refine ⟨_, _, _, _, _, ((saveContext_wheelsCounted ..).trans (tally_counts ..).wheelsCounted).after ?_, rfl⟩
  split
  · exact unarrive_wheels s c
  · rfl

/-- A crew's eviction takes it out of its slot; the wheel goes on evicting. -/
theorem evictCrew_wheel {s : State} {w : Nat} (slot : Nat) (c : Crew) (he : (s.wheel w).ctl.evict = true) :
    ((evictCrew s w slot c).wheel w).crews = Tab.del (s.wheel w).crews slot ∧ ((evictCrew s w slot c).wheel w).ctl.evict = true := by
  obtain ⟨u, now, cr, since, r, hu, h⟩ := evictCrew_stages s w slot c
  obtain ⟨hleft, hkeeps⟩ := leave_wheel (hu.wheel w) slot c.uid now
  obtain ⟨hc, hv⟩ := returnRange_evicting (s := modCtl { (u.modWheel w fun x =>
    lingers x (entryFrees (withdraw (leaveSlot x slot) c.uid)) now) with crier := cr } w fun k => { k with idleSince := since }) (w := w) w r
    ((congrArg WhlCtl.evict (modCtl_ctl ..)).trans (hkeeps.trans he))
  rw [h]
  exact ⟨hc.trans ((modCtl_crews ..).trans hleft), hv⟩

theorem foldl_evictCrew_wheel {w : Nat} : ∀ (l : Tab Crew) {s : State}, (s.wheel w).ctl.evict = true →
    ((l.foldl (fun s e => evictCrew s w e.1 e.2) s).wheel w).crews = l.foldl (fun u e => Tab.del u e.1) (s.wheel w).crews
  | [], _, _ => rfl
  | e :: l, s, he => by
    obtain ⟨hc, hv⟩ := evictCrew_wheel e.1 e.2 he
    rw [List.foldl_cons, List.foldl_cons, foldl_evictCrew_wheel l hv, hc]

end Sys2Proof.Machine
end

section
/-! ## Commands of a wheel (02 R37 to R39; 03 R111, R115 to R118) -/
namespace Sys2Proof.Machine

@[simp] theorem kept_wheel (s t : State) (w : Nat) : (kept s t).wheel w = t.wheel w := rfl

@[simp] theorem offer_wheel (s : State) (r : Rec) (w : Nat) : (offer s r).wheel w = s.wheel w := by
  unfold State.wheel
  rw [offer_wheels]

@[simp] theorem modWork_ctl (s : State) (w : Nat) (f : WhlWork → WhlWork) : ((modWork s w f).wheel w).ctl = (s.wheel w).ctl := by
  unfold modWork
  rw [State.wheel_modWheel_same]

@[simp] theorem modWork_crews (s : State) (w : Nat) (f : WhlWork → WhlWork) : ((modWork s w f).wheel w).crews = (s.wheel w).crews := by
  unfold modWork
  rw [State.wheel_modWheel_same]

theorem modCtl_work (s : State) (w : Nat) (f : WhlCtl → WhlCtl) : ((modCtl s w f).wheel w).work = (s.wheel w).work := by
  unfold modCtl
  rw [State.wheel_modWheel_same]

theorem preemptRecord_counts (s : State) (w : Nat) (l : Launch) (gone : List Crew) : CountsOnly s (preemptRecord s w l gone) :=
  record_counts ..

/-- The wheel holds no crew, and nothing of it is being evicted. -/
def Emptied (w : Nat) (t : State) : Prop := (t.wheel w).crews = [] ∧ (t.wheel w).ctl.evict = false ∧ (t.wheel w).ctl.preempt = none

theorem Emptied.counted {w : Nat} {t u : State} (h : Emptied w t) (g : WheelsCounted t u) : Emptied w u := by
  obtain ⟨ts, n, -, hu⟩ := g.wheel w
  unfold Emptied
  rw [hu]
  exact h

theorem Emptied.kept {w : Nat} {s t : State} (h : Emptied w t) : Emptied w (kept s t) := h

theorem Emptied.modWork {w : Nat} {t : State} (h : Emptied w t) (f : WhlWork → WhlWork) : Emptied w (modWork t w f) := by
  unfold Emptied
  rw [modWork_crews, modWork_ctl]
  exact h

/-- A wheel that is not plainly ON holds no task once it has given all back; its control is as it was, but for a request to wake. -/
theorem returnAll_empties {s : State} {w : Nat} (hm : Marked (s.wheel w)) : ((returnAll s w).wheel w).work.deque = [] ∧
    ∃ k, ((returnAll s w).wheel w).ctl = { (s.wheel w).ctl with waking := k } := by
  obtain ⟨_, _, _, _, k, h⟩ := returnAll_announced hm
  rw [h]
  exact ⟨rfl, k, rfl⟩

/-- A drain leaves the wheel OFF and gated, without tasks, reservation or permit (R115; 14 R504). -/
theorem wheelOff_spec {s : State} {w : Nat} (wake : Bool) (hm : Marked (s.wheel w)) :
    let t := wheelOff s w wake
    (t.wheel w).ctl.evict = false ∧ (t.wheel w).ctl.state = .off ∧ (t.wheel w).ctl.gated = true ∧ (t.wheel w).ctl.resv = none ∧
      (t.wheel w).ctl.waking = wake ∧ (t.wheel w).work.deque = [] ∧ ∀ p ∈ t.rve.permits, ¬(p.2.kind ≤ 1 ∧ p.2.unit = w) := by
  dsimp only
  unfold wheelOff
  rw [modCtl_ctl, modCtl_work]
  refine ⟨rfl, rfl, rfl, rfl, rfl, (returnAll_empties hm).1, fun p hp ⟨hk, hu⟩ => ?_⟩
  have hleft : (!(decide (p.2.kind ≤ 1) && p.2.unit == w)) = true := (List.mem_filter.mp hp).2
  simp [hk, hu] at hleft

section
variable {w : Nat} {s : State} (hw : w < 192) (hs : s.serving = true) (hp : s.present w = true)
include hw hs hp

/-- A command of a wheel that the part has, in a module that serves, takes its effect. -/
theorem onWheel_next (f : State → State) : onWheel w f s = .next (kept s (f s)) := by
  have hocc : (s.serving && s.present w) = true := by rw [hs, hp]; rfl
  unfold onWheel
  rw [act_next (decide_eq_true hw), hocc, whenD_true]

theorem wheelRestart_runs (hk : (s.wheel w).ctl.waking = true) (hf : (s.wheel w).ctl.state ≠ .fenced) :
    Goes (exec (.wheelRestart w) s) fun t => (t.wheel w).ctl.waking = false ∧ (t.wheel w).ctl.gated = false ∧ (t.wheel w).ctl.stopGts = none ∧
      (t.wheel w).ctl.state = if (s.wheel w).ctl.state = .off then .on else (s.wheel w).ctl.state := by
  have hgo : ¬(!(s.wheel w).ctl.waking || (s.wheel w).ctl.state == .fenced) = true := by simp [hk, hf]
  refine ⟨_, onWheel_next hw hs hp _, ?_⟩
  dsimp only
  rw [if_neg hgo]
  split <;> simp only [kept_wheel, offer_wheel, modWork_ctl, modCtl_ctl, beq_iff_eq, and_self]

/-- The detector engages a stretch at once and releases it by one root period (02 R37). -/
theorem droop_sets {p : Nat} (h4 : 4 ≤ p) (h16 : p ≤ 16) (hc : (s.wheel w).ctl.stopGts = none) (hle : (s.wheel w).ctl.period ≤ p + 1) :
    Goes (exec (.droop w p) s) fun t => ∃ n, (s.wheel w).ctl.lastStamp ≤ n ∧
      (t.wheel w).ctl = { (s.wheel w).ctl with period := p, lastStamp := n } := by
  have hgo : ¬(decide (p < 4) || decide (16 < p) || decide (p + 1 < (s.wheel w).ctl.period) || (s.wheel w).ctl.stopGts.isSome) = true := by
    simp [hc, h4, h16, hle]
  have stretched (u : State) (hu : CountsOnly s u) : ∃ n, (s.wheel w).ctl.lastStamp ≤ n ∧
      ((modCtl u w fun c => { c with period := p }).wheel w).ctl = { (s.wheel w).ctl with period := p, lastStamp := n } := by
    obtain ⟨ts, n, hn, h⟩ := hu.2.1 w
    exact ⟨n, hn, by rw [modCtl_ctl, h]⟩
  refine ⟨_, onWheel_next hw hs hp _, ?_⟩
  dsimp only
  rw [if_neg hgo]
  refine stretched _ ?_
  split
  · exact tally_counts ..
  · exact CountsOnly.refl s

/-- A release of more than one root period does not occur (02 R37; log entry 70). -/
theorem droop_jump {p : Nat} (hlt : p + 1 < (s.wheel w).ctl.period) : exec (.droop w p) s = .next s := by
  have hstop : (decide (p < 4) || decide (16 < p) || decide (p + 1 < (s.wheel w).ctl.period) || (s.wheel w).ctl.stopGts.isSome) = true := by
    simp [hlt]
  refine (onWheel_next hw hs hp _).trans ?_
  dsimp only
  rw [if_pos hstop, kept_self]

theorem whlCtlEnable_sets (hf : (s.wheel w).ctl.state ≠ .fenced) :
    Goes (exec (.whlCtlEnable w) s) fun t => (t.wheel w).ctl.enable = true ∧
      (t.wheel w).ctl.state = (if (s.wheel w).ctl.state = .draining then .pendingOn else (s.wheel w).ctl.state) ∧
      ((s.wheel w).ctl.state = .off → (t.wheel w).ctl.waking = true) := by
  refine ⟨_, onWheel_next hw hs hp _, ?_⟩
  dsimp only
  cases hst : (s.wheel w).ctl.state with
  | fenced => exact absurd hst hf
  | off | on | draining | pendingOn => simp [modCtl_ctl, hst]

theorem whlCtlDisable_sets (hf : (s.wheel w).ctl.state ≠ .fenced) :
    Goes (exec (.whlCtlDisable w) s) fun t => (t.wheel w).ctl.enable = false ∧
      (t.wheel w).ctl.state = (if (s.wheel w).ctl.state = .off then .off else .draining) ∧
      ((s.wheel w).ctl.state = .on → (t.wheel w).work.deque = [] ∧ (t.wheel w).ctl.resv = none) := by
  refine ⟨_, onWheel_next hw hs hp _, ?_⟩
  dsimp only
  cases hst : (s.wheel w).ctl.state with
  | fenced => exact absurd hst hf
  | off | draining | pendingOn => simp [modCtl_ctl, hst]
  | on =>
    have hctl := modCtl_ctl s w fun c => { c with enable := false, state := .draining, resv := none }
    have hm : Marked ((modCtl s w fun c => { c with enable := false, state := .draining, resv := none }).wheel w) :=
      .inl (by rw [hctl]; exact UnitSt.noConfusion)
    obtain ⟨hd, k, hk⟩ := returnAll_empties hm
    simp only [kept_wheel, hk, hctl, hd]
    exact ⟨trivial, rfl, fun _ => ⟨trivial, trivial⟩⟩

theorem whlCtlEvict_sets (hd : (s.wheel w).ctl.state = .draining) :
    Goes (exec (.whlCtlEvict w) s) fun t => (t.wheel w).ctl = { (s.wheel w).ctl with evict := true } := by
  refine ⟨_, onWheel_next hw hs hp _, ?_⟩
  dsimp only
  rw [if_pos (beq_iff_eq.mpr hd), kept_wheel, modCtl_ctl]

theorem wheelDrainEnd_off (hc : (s.wheel w).crews = []) (hst : (s.wheel w).ctl.state = .draining ∨ (s.wheel w).ctl.state = .pendingOn) :
    Goes (exec (.wheelDrainEnd w) s) fun t => (t.wheel w).ctl.evict = false ∧ (t.wheel w).ctl.state = .off ∧
      (t.wheel w).ctl.gated = true ∧ (t.wheel w).ctl.resv = none ∧ (t.wheel w).ctl.waking = decide ((s.wheel w).ctl.state = .pendingOn) ∧
      (t.wheel w).work.deque = [] ∧ ∀ p ∈ t.rve.permits, ¬(p.2.kind ≤ 1 ∧ p.2.unit = w) := by
  have hgo : ¬((s.wheel w).crews != []) = true := by simp [hc]
  refine ⟨_, onWheel_next hw hs hp _, ?_⟩
  dsimp only
  rw [if_neg hgo]
  have hm : Marked (s.wheel w) := .inl (by rcases hst with h | h <;> rw [h] <;> exact UnitSt.noConfusion)
  rcases hst with h | h <;> simp only [h] <;> exact wheelOff_spec _ hm

theorem evictionComplete_empties (hz : s.frozen = false) (he : (s.wheel w).ctl.evict = true)
    (hq : ∀ e ∈ (s.wheel w).crews, quiescent s w e.2 = true) (hv : ∀ e ∈ (s.wheel w).crews, evicting s w e.2 = true) :
    Goes (exec (.evictionComplete w) s) (Emptied w) := by
  have hout : (s.wheel w).crews.filter (fun e => evicting s w e.2) = (s.wheel w).crews := List.filter_eq_self.mpr hv
  have hgo : ¬(s.frozen || (s.wheel w).crews.any (fun e => !quiescent s w e.2) ||
      !(wheelEvicting (s.wheel w) || ((s.wheel w).ctl.resv.isSome && (s.wheel w).crews != []))) = true := by
    simp only [hz, wheelEvicting, he, Bool.true_or, Bool.not_true, Bool.or_false, Bool.false_or, List.any_eq_true, not_exists, not_and]
    intro e hm
    simp [hq e hm]
  refine ⟨_, onWheel_next hw hs hp _, Emptied.kept ?_⟩
  dsimp only
  rw [hout, if_neg hgo]
  -- The evictions are counted first, then the crews go one by one.
  generalize hu : (s.wheel w).crews.foldl (fun u e => tallyCrew u w e.2 (if (s.wheel w).ctl.evict then 0x149 else 0x14A)) s = u
  have hcount : WheelCounted (s.wheel w) (u.wheel w) := by
    rw [← hu]
    exact (foldl_counts _ (fun u e => tallyCrew_counts ..) _ _).2.1 w
  generalize hleft : (s.wheel w).crews.foldl (fun u e => evictCrew u w e.1 e.2) u = v
  have hgone : (v.wheel w).crews = [] := by
    rw [← hleft, foldl_evictCrew_wheel _ (hcount.evict.trans he), hcount.crews]
    exact Tab.foldl_del_listed _
  have ended : Emptied w (modCtl v w fun c => { c with evict := false, preempt := none }) := by
    unfold Emptied
    rw [modCtl_crews, modCtl_ctl]
    exact ⟨hgone, rfl, rfl⟩
  generalize modCtl v w (fun c => { c with evict := false, preempt := none }) = t at ended ⊢
  split
  · exact ended
  · split
    · exact ended
    · next l _ =>
      have hrec : Emptied w (preemptRecord _ w l _) := ended.counted ((preemptRecord_counts
        { t with front := { t.front with preempts := t.front.preempts + 1 } } w l ((s.wheel w).crews.map Prod.snd)).wheelsCounted.after rfl)
      exact Emptied.modWork (t := State.modLaunch _ _ _) (hrec.counted (.of_wheels rfl)) _

theorem idleGate_gates (hi : s.img.idleOff = false) (hz : s.frozen = false) (hon : (s.wheel w).ctl.state = .on)
    (hc : (s.wheel w).ctl.stopGts = none) (hidle : wheelIdle (s.wheel w) = true) (hr : (s.wheel w).ctl.resv = none)
    (hk : (s.wheel w).ctl.waking = false) (hpre : (s.wheel w).ctl.preempt = none) (hask : (s.wheel w).work.asking = false)
    (hprobe : (s.wheel w).work.probe = none) (ht : (s.wheel w).ctl.idleSince.getD 0 + s.img.idleTicks ≤ s.watch) :
    Goes (exec (.idleGate w) s) fun t => (t.wheel w).ctl =
      { (s.wheel w).ctl with gated := true, stopGts := some (stopTick s (s.wheel w).ctl) } := by
  refine ⟨_, onWheel_next hw hs hp _, ?_⟩
  dsimp only
  rw [if_neg (by simp [hi, hz, hon, hc, hidle, hr, hk, hpre, hask, hprobe, ht]), kept_wheel, modCtl_ctl]

end

end Sys2Proof.Machine

open Sys2Proof Sys2Proof.Machine

/-- Settles O41, command by command. That an eviction ends once its crews are quiet is log entry 35, and that a release of more than one
root period leaves the state is log entry 70. -/
theorem wheelControl : Obligations.WheelControl := by
  unfold Obligations.WheelControl
  intro w s hw hs hp x
  exact ⟨wheelRestart_runs hw hs hp, fun p h4 h16 hc => ⟨droop_sets hw hs hp h4 h16 hc, droop_jump hw hs hp⟩, whlCtlEnable_sets hw hs hp,
    whlCtlDisable_sets hw hs hp, whlCtlEvict_sets hw hs hp, wheelDrainEnd_off hw hs hp, evictionComplete_empties hw hs hp,
    idleGate_gates hw hs hp⟩

end

section
/-! ## What reading a command leaves: the streams and the time, and of the saggars all but their ledgers (11 R408, R411; 08 R313) -/
namespace Sys2Proof.Machine

/-- `t` is `s` once a hub engine has looked: caches, counters and records may differ. -/
structure Looked (s t : State) : Prop where
  streams : t.front.streams = s.front.streams
  time : t.time = s.time
  saggar : ∀ k, ∃ l, t.saggar k = { s.saggar k with ledger := l }

theorem Looked.refl (s : State) : Looked s s := ⟨rfl, rfl, fun k => ⟨(s.saggar k).ledger, rfl⟩⟩

theorem Looked.trans {s t u : State} (h : Looked s t) (g : Looked t u) : Looked s u :=
  ⟨g.streams.trans h.streams, g.time.trans h.time, fun k => by
    obtain ⟨l, hl⟩ := h.saggar k
    obtain ⟨m, hm⟩ := g.saggar k
    exact ⟨m, by rw [hm, hl]⟩⟩

/-- A change of neither streams, saggars nor time. -/
theorem Looked.of_eq {s t : State} (hs : t.front.streams = s.front.streams) (hk : t.front.saggars = s.front.saggars)
    (ht : t.time = s.time) : Looked s t :=
  ⟨hs, ht, fun k => ⟨(s.saggar k).ledger, by unfold State.saggar; rw [hk]⟩⟩

/-- A look that sets in once something but the streams, the saggars and the time has changed. -/
theorem Looked.after {s u t : State} (h : Looked u t) (hs : u.front.streams = s.front.streams)
    (hk : u.front.saggars = s.front.saggars) (ht : u.time = s.time) : Looked s t := (Looked.of_eq hs hk ht).trans h

theorem CountsOnly.streams {s t : State} (h : CountsOnly s t) : t.front.streams = s.front.streams := by
  obtain ⟨⟨_, _, _, _, _, _, -, rfl⟩, -, -⟩ := h
  rfl

theorem CountsOnly.looked {s t : State} (h : CountsOnly s t) : Looked s t := ⟨h.streams, h.time, h.2.2⟩

theorem hubXlat_looked (s : State) (k : Nat) (va : DWord) : Looked s (hubXlat s k va) := by
  unfold hubXlat
  split
  · exact Looked.refl s
  · exact .of_eq rfl rfl rfl

theorem armByHit_looked (s : State) (t : Nat) : Looked s (armByHit s t) := by
  unfold armByHit
  split
  · exact .of_eq rfl rfl rfl
  · exact Looked.refl s

theorem watchOne_looked (s : State) (i : Nat) (x : Watchpoint) (kind k stream source va len : Nat) :
    Looked s (watchOne s i x kind k stream source va len) := by
  -- A hit is noted in the watchpoint, recorded, counted, and may arm a stop.
  have counted (p : Bool) {u v : State} (h : CountsOnly u v) : Looked u (if p then v else u) := by
    cases p
    · exact Looked.refl u
    · exact h.looked
  have armed (p : Bool) (u : State) (t : Nat) : Looked u (if p then armByHit u t else u) := by
    cases p
    · exact Looked.refl u
    · exact armByHit_looked ..
  unfold watchOne
  split
  · dsimp only
    refine .trans ?_ (armed ..)
    split
    · exact ((counted _ (record_counts ..)).trans (tally_counts ..).looked).after rfl rfl rfl
    · exact (counted _ (record_counts ..)).after rfl rfl rfl
  · exact Looked.refl s

theorem watchAccess_looked (s : State) (kind k stream source : Nat) (va : DWord) (len : Nat) :
    Looked s (watchAccess s kind k stream source va len) :=
  List.foldlRecOn _ _ (Looked.refl s) fun _ ht _ _ => ht.trans (watchOne_looked ..)

theorem touchLine_looked (s : State) (pa : Nat) (w : Bool) (c : Nat) : Looked s (touchLine s pa w c) := by
  have counted (e : Nat) (o : Option Nat) (j : Nat) (x : Sys2Proof.Slice) : Looked s ((gtally s e o).setSlice j x) :=
    (gtally_counts ..).looked.trans (.of_eq rfl rfl rfl)
  unfold touchLine
  dsimp only
  split
  · exact counted ..
  · split
    · exact (gtally_counts ..).looked
    · exact counted ..

section
variable {a : Who} (h : 192 ≤ a.source)
include h

theorem engXlat_looked (s : State) (va : DWord) : Looked s (engXlat s a va) := by
  unfold engXlat
  rw [if_neg (by omega)]
  exact hubXlat_looked ..

theorem engRead_looked (s : State) (va : DWord) (n : Nat) : Looked s (engRead s a va n).2 := by
  have watched (u : State) : Looked u (if a.own then u else watchAccess u 4 a.saggar a.stream a.source va n) := by
    split
    · exact Looked.refl u
    · exact watchAccess_looked ..
  have hx := (engXlat_looked h s va).trans (watched _)
  unfold engRead
  dsimp only
  generalize (if a.own then _ else _) = u at hx ⊢
  split
  · exact hx
  · split
    · exact hx
    · split
      · exact hx
      · exact hx.trans (touchLine_looked ..)

theorem engReadN_looked (fuel : Nat) : ∀ (s : State) (va : DWord) (n : Nat), Looked s (engReadN s a va n fuel).2 := by
  induction fuel with
  | zero => exact fun s _ _ => Looked.refl s
  | succ fuel ih =>
    intro s va n
    unfold engReadN
    split
    · exact Looked.refl s
    · dsimp only
      have h1 := engRead_looked h s va (min n (32 - va.toNat % 32))
      split <;> rename_i e
      · rwa [e] at h1
      · rw [e] at h1
        have h2 := h1.trans (ih _ (va + BitVec.ofNat 64 (min n (32 - va.toNat % 32))) (n - min n (32 - va.toNat % 32)))
        split <;> rename_i e' <;> rwa [e'] at h2

end

theorem readUnits_looked (n : Nat) (x : Stream) (m : Nat) : ∀ (s : State) (pos : Word), Looked s (readUnits s n x pos m).2 := by
  induction m with
  | zero => exact fun s _ => Looked.refl s
  | succ m ih =>
    intro s pos
    unfold readUnits
    split
    · have h1 := engReadN_looked (a := { saggar := x.saggar, stream := n, source := 518 }) (show 192 ≤ 518 by decide) 4 s (unitAddr x pos) 64
      split <;> rename_i e <;> rw [e] at h1
      · exact h1
      · exact h1
      · exact h1
      · have h2 := h1.trans (ih _ (pos + 1))
        split
        · rename_i e'
          rwa [e'] at h2
        · exact h2
    · split
      · exact Looked.refl s
      · have h1 := ih s (pos + 1)
        split
        · rename_i e
          rwa [e] at h1
        · exact h1

end Sys2Proof.Machine
end

section
/-! ## What performing a write, a fault of a stream and a completed command leave of a stream's layer block (05 R197, R201; 11 R406, R409) -/
namespace Sys2Proof.Machine

/-- The fields of a stream that its layer commands govern. -/
def layerPart (x : Stream) : Option Block × Bool × Bool × Nat × Word × Word :=
  (x.block, x.layerOpen, x.overflow, x.level, x.replayPos, x.beginPos)

/-- No stream's layer block differs. -/
structure LayersKept (s t : State) : Prop where
  stream : ∀ n, layerPart (t.stream n) = layerPart (s.stream n)

theorem LayersKept.refl (s : State) : LayersKept s s := ⟨fun _ => rfl⟩

theorem LayersKept.trans {s t u : State} (h : LayersKept s t) (g : LayersKept t u) : LayersKept s u :=
  ⟨fun n => (g.stream n).trans (h.stream n)⟩

theorem stream_of_streams {s t : State} (h : t.front.streams = s.front.streams) (n : Nat) : t.stream n = s.stream n :=
  congrArg (fun l => Tab.get ({} : Stream) l n) h

theorem LayersKept.of_streams {s t : State} (h : t.front.streams = s.front.streams) : LayersKept s t :=
  ⟨fun n => congrArg layerPart (stream_of_streams h n)⟩

theorem LayersKept.setStream {s : State} {n : Nat} {x : Stream} (h : layerPart x = layerPart (s.stream n)) : LayersKept s (s.setStream n x) :=
  ⟨fun m => by
    by_cases hm : m = n
    · subst hm
      rw [State.stream_setStream_same, h]
    · rw [State.stream_setStream_other _ _ _ _ hm]⟩

/-- What sets in once something but the streams has changed. -/
theorem LayersKept.after {s u t : State} (h : LayersKept u t) (hu : u.front.streams = s.front.streams) : LayersKept s t :=
  (LayersKept.of_streams hu).trans h

theorem CountsOnly.layersKept {s t : State} (h : CountsOnly s t) : LayersKept s t := .of_streams h.streams

theorem foldl_layersKept {α : Type} (f : State → α → State) (h : ∀ s a, LayersKept s (f s a)) (l : List α) (s : State) :
    LayersKept s (l.foldl f s) := List.foldlRecOn l f (LayersKept.refl s) fun t ht a _ => ht.trans (h t a)

/-! ### A performed write -/

theorem memPut_front : ∀ (l : List Byte) (s : State) (pa : Nat), (memPut s pa l).front = s.front
  | [], _, _ => rfl
  | b :: l, s, pa => memPut_front l (memPut1 s pa b) (pa + 1)

theorem staleWait_layersKept (s : State) (w : Wait) (c : Word) : LayersKept s (staleWait s w c) := by
  unfold staleWait
  dsimp only
  split
  · split <;> exact (record_counts ..).layersKept
  · exact (record_counts ..).layersKept
  · exact LayersKept.refl s

theorem judgeWord_layersKept (s : State) (pa : Nat) : LayersKept s (judgeWord s pa) := by
  refine foldl_layersKept _ (fun s e => ?_) _ s
  split
  · unfold judgeWait
    split
    · exact .of_streams rfl
    · exact (staleWait_layersKept ..).after rfl
    · exact .of_streams rfl
  · exact LayersKept.refl s

/-- A tail offered to a stream moves its TAIL alone. -/
theorem offerTail_layersKept (s : State) (n : Nat) (t : Word) : LayersKept s (offerTail s n t) := by
  unfold offerTail
  dsimp only
  split
  · split
    · refine .trans (.setStream ?_) (gtally_counts ..).layersKept
      rfl
    · exact ((record_counts ..).trans (gtally_counts ..)).layersKept
  · exact LayersKept.refl s

theorem noteTail_layersKept (s : State) (pa : Nat) : LayersKept s (noteTail s pa) := by
  refine foldl_layersKept _ (fun s e => ?_) _ s
  split
  · unfold takeTail
    split
    · exact (offerTail_layersKept ..).after rfl
    · exact LayersKept.refl s
  · exact LayersKept.refl s

theorem markDirty_layersKept (s : State) (pa : Nat) : LayersKept s (markDirty s pa) := by
  unfold markDirty
  dsimp only
  split
  · unfold frozenWritten
    dsimp only
    refine (foldl_layersKept _ (fun s e => ?_) _ _).after rfl
    split
    · exact (record_counts ..).layersKept
    · exact LayersKept.refl s
  · exact LayersKept.refl s

theorem performWrite_layersKept (s : State) (pa : Nat) (bs : List Byte) (c : Nat) : LayersKept s (performWrite s pa bs c) := by
  have noticed (u : State) : LayersKept u (afterWrite u pa bs.length) :=
    (foldl_layersKept _ (fun s a => (judgeWord_layersKept s a).trans (noteTail_layersKept _ a)) _ u).trans (markDirty_layersKept _ pa)
  unfold performWrite
  refine .trans (.of_streams ?_) (.trans (.of_streams (touchLine_looked _ pa true c).streams) (noticed _))
  rw [memPut_front]
  split <;> rfl

theorem engSignal_layersKept {a : Who} (h : 192 ≤ a.source) (s : State) (va : DWord) (op : Nat) (v : Word) :
    LayersKept s (engSignal s a va op v).2 := by
  have hw := (engXlat_looked h s va).trans (watchAccess_looked (engXlat s a va) 3 a.saggar a.stream a.source va 4)
  have hl : LayersKept s _ := .of_streams hw.streams
  unfold engSignal
  dsimp only
  split
  · exact hl
  · split
    · exact hl
    · split
      · exact hl
      · exact hl.trans (performWrite_layersKept ..)

/-! ### A fault of a stream: its crews and tasks go -/

theorem addGWakes_streams (s : State) (l : List GWake) : (addGWakes s l).front.streams = s.front.streams := by
  refine foldl_ms (fun s => s.front.streams) _ (fun s g => ?_) l s
  split <;> rfl

theorem gRelease_streams (s : State) (k h : Nat) : (gRelease s k h).front.streams = s.front.streams := by
  unfold gRelease
  dsimp only
  split
  · exact addGWakes_streams ..
  · rfl

theorem leaveBells_streams (s : State) (k uid : Nat) : (leaveBells s k uid).front.streams = s.front.streams := by
  refine foldl_ms (fun s => s.front.streams) _ (fun s e => ?_) _ { s with crier := _ }
  split
  · exact gRelease_streams ..
  · rfl

theorem dropCrew_streams (s : State) (w slot : Nat) (d : Bool) : (dropCrew s w slot d).front.streams = s.front.streams := by
  unfold dropCrew
  split
  · rfl
  · exact leaveBells_streams ..

theorem releaseSaves_streams (s : State) (p : Nat → Launch → Bool) : (releaseSaves s p).front.streams = s.front.streams := by
  refine foldl_ms (fun s => s.front.streams) _ (fun s e => ?_) _ s
  exact foldl_ms (fun s => s.front.streams) _ (fun s r => leaveBells_streams s _ _) _ s

theorem dropTasks_streams (s : State) (p : Nat → Launch → Bool) : (dropTasks s p).front.streams = s.front.streams := rfl

theorem stopStream_streams (s : State) (n : Nat) : (stopStream s n).front.streams = s.front.streams := by
  unfold stopStream
  rw [dropTasks_streams, releaseSaves_streams]
  exact foldl_ms (fun s => s.front.streams) _ (fun s e => dropCrew_streams s _ _ _) _ s

theorem sendMsix_front (s : State) (v : Nat) : (sendMsix s v).front = s.front := by
  unfold sendMsix
  dsimp only
  split <;> rfl

theorem pushCpl_front (fn fuel : Nat) : ∀ s : State, (pushCpl s fn fuel).front = s.front := by
  induction fuel with
  | zero => exact fun _ => rfl
  | succ fuel ih =>
    intro s
    unfold pushCpl
    dsimp only
    split
    · split
      · rw [ih, sendMsix_front]; rfl
      · rw [ih, sendMsix_front]; rfl
      · rfl
    · rfl

theorem postEvent_front (s : State) (fn kind : Nat) (r : List Byte) : (postEvent s fn kind r).front = s.front := by
  unfold postEvent
  dsimp only
  split
  · exact pushCpl_front ..
  · rfl

/-- A faulted stream keeps its block. -/
theorem streamFault_layersKept (s : State) (n code : Nat) : LayersKept s (streamFault s n code) := by
  unfold streamFault
  dsimp only
  split
  · refine .trans (.of_streams (stopStream_streams s n)) (.trans (.setStream ?_) (.of_streams (congrArg Front.streams (postEvent_front ..))))
    rfl
  · exact LayersKept.refl s

theorem frontFault_layersKept (s : State) (n code layer op : Nat) : LayersKept s (frontFault s n code layer op) :=
  (record_counts ..).layersKept.trans (streamFault_layersKept ..)

/-! ### A command completes -/

theorem reportWork_layersKept {a : Who} (h : 192 ≤ a.source) (s : State) (va : DWord) (op : Nat) (v : Word) (layer oper : Nat) :
    LayersKept s (reportWork s a va op v layer oper) := by
  have hs := engSignal_layersKept h s va op v
  unfold reportWork
  split <;> rename_i e <;> rw [e] at hs
  · exact hs
  · exact hs.trans (frontFault_layersKept ..)

theorem layerPart_popDone (l : List Sys2Proof.Begun) : ∀ x : Stream, layerPart (popDone x l) = layerPart x := by
  induction l with
  | nil => exact fun _ => rfl
  | cons b l ih =>
    intro x
    unfold popDone
    split
    · exact ih _
    · rfl

theorem hostWrite_front (s : State) (fn : Nat) (addr : DWord) (bs : List Byte) : (hostWrite s fn addr bs).front = s.front := by
  unfold hostWrite
  split <;> rfl

theorem advanceHead_layersKept (s : State) (n : Nat) : LayersKept s (advanceHead s n) := by
  have popped : LayersKept s (s.setStream n (popDone (s.stream n) (s.stream n).begun)) := .setStream (layerPart_popDone ..)
  unfold advanceHead
  dsimp only
  split
  · exact popped
  · split
    · exact popped.trans (.of_streams (congrArg Front.streams (hostWrite_front ..)))
    · exact popped.trans (reportWork_layersKept (show 192 ≤ 518 by decide) ..)

theorem offerRec_front (s : State) (c : Nat) (r : CRec) : (offerRec s c r).front = s.front := by
  unfold offerRec
  dsimp only
  split <;> rfl

theorem sendBehind_front (s : State) : (sendBehind s).front = s.front := by
  refine foldl_ms State.front _ (fun s e => ?_) _ { s with crier := _ }
  split
  · exact offerRec_front ..
  · rfl

theorem hubRec_front (s : State) (c : Nat) (r : CRec) : (hubRec s c r).front = s.front := by
  unfold hubRec
  split
  · exact sendBehind_front _
  · rfl

/-- A command's completion moves HEAD, and may fault the stream, but touches no layer block. -/
theorem completeCmd_layersKept (s : State) (n : Nat) (pos : Word) (source : Nat) : LayersKept s (completeCmd s n pos source) := by
  unfold completeCmd
  dsimp only
  split
  · exact LayersKept.refl s
  · split
    · exact LayersKept.refl s
    · refine .trans ?_ (advanceHead_layersKept ..)
      split
      · exact .setStream rfl
      · refine .trans (.setStream ?_) (.of_streams (congrArg Front.streams (hubRec_front ..)))
        rfl

end Sys2Proof.Machine
end

section
/-! ## A command of a stream begins (11 R408, R412, R415) -/
namespace Sys2Proof.Machine

/-- A command that begins takes its opcode's effect from the state that its beginning leaves. -/
theorem runCmd_begins {s s1 : State} {n op : Nat} {c : List Byte} {wait : State → Stream → List Byte → Bool}
    {bad : State → Stream → List Byte → Option Nat} (go : State → Nat → Word → List Byte → State) (h : CmdBegins s s1 n op c wait bad) :
    runCmd op n wait bad go s = .next (kept s (go (openCmd s1 n c) n (posOf s n) c)) := by
  obtain ⟨hn, hs, hz, hm, ⟨u, t, hread, rfl, hop, hsize, havail, hwhole⟩, hhead, hdone, hwait, hbad⟩ := h
  have hlen : ¬((decide (11 < cmdOp u) || (cmdOp u == cmdOp u && cmdSize u != ownSize u)) = true) := by simp [hsize]; omega
  have hfits : ¬((cmdOp u != cmdOp u || decide (availUnits (s.stream n) < cmdSize u)) = true) := by simp; omega
  have hturn : ¬(((cmdBarrier c || cmdOp u == 2 || cmdOp u == 4 || cmdOp u == 5 || cmdOp u == 11) && !allDone (s.stream n)) = true) := by
    rw [Bool.and_eq_true, Bool.not_eq_true', not_and, Bool.not_eq_false]
    exact hdone
  unfold runCmd
  rw [act_next (decide_eq_true hn), hs, hz, hm]
  simp only [Bool.not_false, Bool.and_self, whenD_true, hread, hwhole, hhead, hbad, hwait, hlen, hfits, hturn, if_false, Bool.false_eq_true,
    posOf]

theorem CmdBegins.looked {s s1 : State} {n op : Nat} {c : List Byte} {wait : State → Stream → List Byte → Bool}
    {bad : State → Stream → List Byte → Option Nat} (h : CmdBegins s s1 n op c wait bad) : Looked s s1 := by
  obtain ⟨-, -, -, -, ⟨u, t, -, -, -, -, -, hwhole⟩, -⟩ := h
  have hread := readUnits_looked n (s.stream n) (cmdSize u) s (s.stream n).beginPos
  rwa [hwhole] at hread

theorem cacheCtx_looked (s : State) (n : Nat) : Looked s (cacheCtx s n) := .of_eq rfl rfl rfl

theorem useContext_looked (s : State) (n : Nat) : Looked s (useContext s n) := by
  unfold useContext
  dsimp only
  refine .trans ?_ (cacheCtx_looked ..)
  split <;> exact (gtally_counts ..).looked.after rfl rfl rfl

/-- The stream once its command `c` has begun. -/
def openedStream (x : Stream) (c : List Byte) : Stream :=
  { x with
    begun := x.begun ++ [{ pos := x.beginPos, size := cmdSize c, opcode := cmdOp c, collect := cmdCollect c, tag := cmdTag c
                           layer := cmdLayer c, op := cmdOper c }]
    beginPos := x.beginPos + BitVec.ofNat 32 (cmdSize c)
    lastBar := if cmdOp c = 6 ∨ cmdOp c = 3 ∨ cmdOp c = 4 then cmdOp c else x.lastBar
    ordered := x.ordered || cmdBarrier c || [2, 3, 4, 5, 11].contains (cmdOp c)
    fetched := (List.range (cmdSize c)).foldl
      (fun t i => Tab.keep t fun key _ => key / 64 != (x.beginPos + BitVec.ofNat 32 i).toNat) x.fetched }

section
variable {s s1 : State} {n op : Nat} {c : List Byte} {wait : State → Stream → List Byte → Bool}
  {bad : State → Stream → List Byte → Option Nat} (h : CmdBegins s s1 n op c wait bad)
include h

theorem openCmd_stream : (openCmd s1 n c).stream n = openedStream (s.stream n) c := by
  have hx : (useContext s1 n).stream n = s.stream n :=
    stream_of_streams (h.looked.trans (useContext_looked s1 n)).streams n
  unfold openCmd
  dsimp only
  rw [State.stream_setStream_same, hx]
  rfl

theorem openCmd_time : (openCmd s1 n c).time = s.time := (h.looked.trans (useContext_looked s1 n)).time

theorem openCmd_saggar (k : Nat) : ∃ l, (openCmd s1 n c).saggar k = { s.saggar k with ledger := l } :=
  (h.looked.trans (useContext_looked s1 n)).saggar k

end

end Sys2Proof.Machine
end

section
/-! ## LAYER_BEGIN, LAYER_COMMIT and STEP (05 R197, R201, R202, R205; 17 R587) -/
namespace Sys2Proof.Machine

theorem modBlock_stream (s : State) (n : Nat) (f : Block → Block) :
    (modBlock s n f).stream n = { s.stream n with block := (s.stream n).block.map f } := State.stream_modStream_same ..

theorem askLeave_front (s : State) (kind unit key cls saggar : Nat) : (askLeave s kind unit key cls saggar).front = s.front := by
  unfold askLeave
  split
  · split <;> rfl
  · rfl

theorem startTier_streams (s : State) (j : TierJob) : (startTier s j).2.front.streams = s.front.streams :=
  foldl_ms (fun s => s.front.streams) _ (fun _ _ => congrArg Front.streams (askLeave_front ..)) _ _

/-- `y` is `x` but for the restore that its block waits for. -/
def SameButRestore (x y : Stream) : Prop := ∃ f : Block → Option Nat, y = { x with block := x.block.map fun b => { b with restore := f b } }

theorem SameButRestore.refl (x : Stream) : SameButRestore x x := ⟨Block.restore, by simp⟩

theorem ownRestore_stream (s : State) (n : Nat) (pos : Word) (layer : Nat) : SameButRestore (s.stream n) ((ownRestore s n pos layer).stream n) := by
  unfold ownRestore
  dsimp only
  split
  · exact .refl _
  · exact ⟨_, by rw [modBlock_stream, stream_of_streams (startTier_streams ..)]⟩

theorem startRestore_stream (s : State) (n : Nat) (pos : Word) (layer : Nat) :
    SameButRestore (s.stream n) ((startRestore s n pos layer).stream n) := by
  unfold startRestore
  dsimp only
  split
  · split
    · exact .refl _
    · exact ⟨_, modBlock_stream ..⟩
  · exact ownRestore_stream ..

/-- The state keeps the stream's layer block, read field by field. -/
theorem LayersKept.fields {s t : State} (h : LayersKept s t) (n : Nat) :
    (t.stream n).block = (s.stream n).block ∧ (t.stream n).layerOpen = (s.stream n).layerOpen ∧
      (t.stream n).overflow = (s.stream n).overflow ∧ (t.stream n).level = (s.stream n).level ∧
      (t.stream n).replayPos = (s.stream n).replayPos ∧ (t.stream n).beginPos = (s.stream n).beginPos := by
  simpa only [layerPart, Prod.mk.injEq] using h.stream n

section
variable {s s1 : State} {n : Nat} {c : List Byte}

theorem layerBegin_opens (h : CmdBegins s s1 n 2 c noWait layerBeginBad)
    (hfit : offFull (openCmd s1 n c) ((openCmd s1 n c).stream n) c = false) :
    Goes (exec (.layerBegin n) s) fun t => ∃ b, (t.stream n).block = some b ∧ b.layer = cmdLayer c ∧ b.ranges = rangesOf c ∧
      b.base = cf c 16 30 2 ∧ (t.stream n).level = cf c 16 30 2 ∧ (t.stream n).overflow = false ∧
      (t.stream n).replayPos = (t.stream n).beginPos := by
  show Goes (execLayerBegin n s) _
  unfold execLayerBegin
  rw [runCmd_begins _ h]
  refine ⟨_, rfl, ?_⟩
  dsimp only
  rw [if_neg (by rw [hfit]; exact Bool.false_ne_true)]
  -- The block is opened, its restore starts where it is a gradient block, and the command completes.
  generalize hopened : (openCmd s1 n c).setStream n _ = u
  have restored (gradient : Bool) : SameButRestore (u.stream n)
      ((if gradient then startRestore u n (posOf s n) (cmdLayer c) else u).stream n) := by
    cases gradient
    · exact .refl _
    · exact startRestore_stream ..
  obtain ⟨f, hv⟩ := restored (cf c 16 28 1 == 1)
  generalize (if (cf c 16 28 1 == 1) = true then _ else u) = v at hv ⊢
  obtain ⟨hblock, -, hover, hlevel, hreplay, hbegin⟩ := (completeCmd_layersKept v n (posOf s n) 518).fields n
  rw [hv, ← hopened, State.stream_setStream_same] at hblock hover hlevel hreplay hbegin
  exact ⟨_, hblock, rfl, rfl, rfl, hlevel, hover, hreplay.trans hbegin.symm⟩

theorem layerCommit_ends {b : Block} (h : CmdBegins s s1 n 3 c (fun u _ _ => blockBusy u n) commitBad)
    (hb : (s.stream n).block = some b) (hover : (s.stream n).overflow = false)
    (hfit : (handsOver (openCmd s1 n c) b && decide (offLeft (openCmd s1 n c) (s.stream n).saggar < unitsOf (savesOf b.ranges))) = false) :
    Goes (exec (.layerCommit n) s) fun t => (t.stream n).block = none ∧ (t.stream n).layerOpen = false ∧ (t.stream n).level = 0 := by
  show Goes (execLayerCommit n s) _
  unfold execLayerCommit
  rw [runCmd_begins _ h]
  refine ⟨_, rfl, ?_⟩
  dsimp only
  rw [openCmd_stream h]
  simp only [openedStream, hb, hover, hfit, Bool.false_eq_true, if_false]
  generalize (if handsOver _ b = true then handOver _ n _ b _ else _) = u
  obtain ⟨hblock, hopen, -, hlevel, -, -⟩ := (completeCmd_layersKept (u.modStream n fun x =>
    { x with block := none, layerOpen := false, overflow := false, level := 0 }) n (posOf s n) 518).fields n
  rw [State.stream_modStream_same] at hblock hopen hlevel
  exact ⟨hblock, hopen, hlevel⟩

theorem startReplay_stream (s : State) (n : Nat) (b : Block) :
    let t := startReplay s n b
    (t.stream n).level = min ((s.stream n).level + 1) 2 ∧ (t.stream n).beginPos = (s.stream n).replayPos ∧
      (t.stream n).overflow = false ∧ (t.stream n).block.map Block.replays = some (b.replays + 1) := by
  unfold startReplay
  dsimp only
  rw [State.stream_setStream_same]
  exact ⟨rfl, rfl, rfl, rfl⟩

theorem layerCommit_replays {b : Block} (h : CmdBegins s s1 n 3 c (fun u _ _ => blockBusy u n) commitBad)
    (hb : (s.stream n).block = some b) (hover : (s.stream n).overflow = true) :
    Goes (exec (.layerCommit n) s) fun t => (t.stream n).level = min ((s.stream n).level + 1) 2 ∧
      (t.stream n).beginPos = (s.stream n).replayPos ∧ (t.stream n).overflow = false ∧
      (t.stream n).block.map Block.replays = some (b.replays + 1) := by
  show Goes (execLayerCommit n s) _
  unfold execLayerCommit
  rw [runCmd_begins _ h]
  refine ⟨_, rfl, ?_⟩
  have replay := startReplay_stream (openCmd s1 n c) n b
  dsimp only at replay ⊢
  rw [openCmd_stream h] at replay ⊢
  simp only [openedStream, hb, hover, if_true] at replay ⊢
  exact replay

@[simp] theorem kept_saggar (s t : State) (k : Nat) : (kept s t).saggar k = t.saggar k := rfl

theorem modSec_saggar (s : State) (k : Nat) (f : Securing → Securing) :
    (modSec s k f).saggar k = { s.saggar k with sec := f (s.saggar k).sec } := State.saggar_modSaggar_same ..

theorem latchSec_time (s : State) (k : Nat) : (latchSec s k).time = s.time := by
  unfold latchSec
  split <;> rfl

theorem latchSec_step (s : State) (k : Nat) : ((latchSec s k).saggar k).step = (s.saggar k).step := by
  unfold latchSec
  split
  · rfl
  · rw [modSec_saggar]

theorem step_processes (h : CmdBegins s s1 n 4 c (fun u y _ => decide (3 ≤ (u.saggar y.saggar).sec.state)) stepBad)
    (hc : cf c 16 0 1 = 0) : exec (.step n) s =
      .next (kept s (processStep (latchSec (openCmd s1 n c) (s.stream n).saggar) n (posOf s n))) := by
  show execStep n s = _
  unfold execStep
  rw [runCmd_begins _ h]
  dsimp only
  rw [if_neg (by omega), openCmd_stream h]
  rfl

theorem step_snapshots (h : CmdBegins s s1 n 4 c (fun u y _ => decide (3 ≤ (u.saggar y.saggar).sec.state)) stepBad)
    (hc : cf c 16 0 1 = 1) : Goes (exec (.step n) s) fun t => (t.saggar (s.stream n).saggar).sec.dunob =
      some { stream := n, pos := posOf s n, n := (s.saggar (s.stream n).saggar).step + 1, since := s.time.gts } := by
  show Goes (execStep n s) _
  unfold execStep
  rw [runCmd_begins _ h]
  refine ⟨_, rfl, ?_⟩
  obtain ⟨l, hl⟩ := openCmd_saggar h (s.stream n).saggar
  have hk : ((openCmd s1 n c).stream n).saggar = (s.stream n).saggar := by rw [openCmd_stream h]; rfl
  dsimp only
  rw [if_pos hc, hk, kept_saggar, modSec_saggar, latchSec_step, latchSec_time, openCmd_time h, hl]

end

end Sys2Proof.Machine

open Sys2Proof Sys2Proof.Machine

/-- Settles O37, command by command: a LAYER_COMMIT by the overflow flag, a STEP by its SNAPSHOT bit. That HEAD_WORD takes its HEAD at a
LAYER_BEGIN is not needed: a stream that faults there keeps its block (`streamFault_layersKept`). -/
theorem layerCommandsBegin : Obligations.LayerCommandsBegin := by
  unfold Obligations.LayerCommandsBegin
  intro n s s1 c
  exact ⟨fun h hfit _ => layerBegin_opens h hfit, fun b h hb => ⟨layerCommit_ends h hb, layerCommit_replays h hb⟩,
    fun h => ⟨step_processes h, step_snapshots h⟩⟩

end

section
/-! ## What reading a command leaves: memory (11 R408, R411) -/
namespace Sys2Proof.Machine

theorem hubXlat_mem (s : State) (k : Nat) (va : DWord) : (hubXlat s k va).ms.mem = s.ms.mem := by
  unfold hubXlat
  split <;> rfl

theorem armByHit_ms (s : State) (t : Nat) : (armByHit s t).ms = s.ms := by
  unfold armByHit
  split <;> rfl

/-- A hit of a watchpoint is recorded, counted and may arm a stop. -/
theorem watchOne_ms (s : State) (i : Nat) (x : Watchpoint) (kind k stream source va len : Nat) :
    (watchOne s i x kind k stream source va len).ms = s.ms := by
  unfold watchOne
  split
  · simp only [apply_ite State.ms, armByHit_ms, (tally_counts ..).ms, record_ms, ite_self]
  · rfl

theorem watchAccess_ms (s : State) (kind k stream source : Nat) (va : DWord) (len : Nat) :
    (watchAccess s kind k stream source va len).ms = s.ms := foldl_ms State.ms _ (fun _ _ => watchOne_ms ..) _ s

/-- A hub engine's read stores nothing. -/
theorem engRead_mem {a : Who} (h : 192 ≤ a.source) (s : State) (va : DWord) (n : Nat) : (engRead s a va n).2.ms.mem = s.ms.mem := by
  have watched (u : State) : (if a.own then u else watchAccess u 4 a.saggar a.stream a.source va n).ms = u.ms := by
    rw [apply_ite State.ms, watchAccess_ms, ite_self]
  have looked : (if a.own then engXlat s a va else watchAccess (engXlat s a va) 4 a.saggar a.stream a.source va n).ms.mem = s.ms.mem := by
    rw [watched]
    unfold engXlat
    rw [if_neg (by omega), hubXlat_mem]
  unfold engRead
  dsimp only
  generalize (if a.own then _ else _) = u at looked ⊢
  split
  · exact looked
  · split
    · exact looked
    · split
      · exact looked
      · exact (touchLine_mem ..).trans looked

section
variable {β : Type} {g : State → β} {a : Who}

/-- What one read of an engine leaves as it was, reading on leaves too. -/
theorem engReadN_keeps (hg : ∀ s va n, g (engRead s a va n).2 = g s) (fuel : Nat) :
    ∀ (s : State) (va : DWord) (n : Nat), g (engReadN s a va n fuel).2 = g s := by
  induction fuel with
  | zero => exact fun _ _ _ => rfl
  | succ fuel ih =>
    intro s va n
    unfold engReadN
    split
    · rfl
    · dsimp only
      have h1 := hg s va (min n (32 - va.toNat % 32))
      split <;> rename_i e <;> rw [e] at h1
      · exact h1
      · have h2 := (ih _ (va + BitVec.ofNat 64 (min n (32 - va.toNat % 32))) (n - min n (32 - va.toNat % 32))).trans h1
        split <;> rename_i e' <;> rwa [e'] at h2

/-- What one read for the ring leaves as it was, reading its units leaves too. -/
theorem readUnits_keeps {n : Nat} {x : Stream}
    (hg : ∀ s va m, g (engRead s { saggar := x.saggar, stream := n, source := 518 } va m).2 = g s) (m : Nat) :
    ∀ (s : State) (pos : Word), g (readUnits s n x pos m).2 = g s := by
  induction m with
  | zero => exact fun _ _ => rfl
  | succ m ih =>
    intro s pos
    unfold readUnits
    split
    · have h1 := engReadN_keeps hg 4 s (unitAddr x pos) 64
      split <;> rename_i e <;> rw [e] at h1
      · exact h1
      · exact h1
      · exact h1
      · have h2 := (ih _ (pos + 1)).trans h1
        split
        · rename_i e'
          rwa [e'] at h2
        · exact h2
    · split
      · rfl
      · have h1 := ih s (pos + 1)
        split
        · rename_i e
          rwa [e] at h1
        · exact h1

end

theorem useContext_ms (s : State) (n : Nat) : (useContext s n).ms = s.ms := by
  unfold useContext
  dsimp only
  split <;> exact gtally_ms ..

/-- A command that begins has stored nothing yet. -/
theorem openCmd_mem {s s1 : State} {n op : Nat} {c : List Byte} {wait : State → Stream → List Byte → Bool}
    {bad : State → Stream → List Byte → Option Nat} (h : CmdBegins s s1 n op c wait bad) : (openCmd s1 n c).ms.mem = s.ms.mem := by
  obtain ⟨-, -, -, -, ⟨u, -, -, -, -, -, -, hwhole⟩, -⟩ := h
  have hread : (readUnits s n (s.stream n) (s.stream n).beginPos (cmdSize u)).2.ms.mem = s.ms.mem :=
    readUnits_keeps (g := fun s => s.ms.mem) (fun _ _ _ => engRead_mem (show 192 ≤ 518 by decide) ..) ..
  rw [hwhole] at hread
  unfold openCmd
  dsimp only
  rw [State.setStream_ms, useContext_ms, hread]

end Sys2Proof.Machine
end

section
/-! ## GATHER and GATHER_RELEASE (07 R273, R275, R276) -/
namespace Sys2Proof.Machine

theorem sameMemory_of_mem {s t : State} (h : t.ms.mem = s.ms.mem) : SameMemory s t := fun a => congrArg (Tab.get unlistedByte · a) h

theorem latchWeight_ms (s : State) (k wid : Nat) : (latchWeight s k wid).ms = s.ms := by
  unfold latchWeight
  dsimp only
  split <;> rfl

theorem stallGather_ms (s : State) (n slot : Nat) : (stallGather s n slot).ms = s.ms := by
  unfold stallGather
  dsimp only
  split
  · rfl
  · split
    · rfl
    · split
      · rfl
      · exact record_ms ..

/-- A gather that looks for its members keeps its slot: only the note that it stalls can change. -/
theorem stallGather_slot {s : State} {n slot : Nat} {g : GSlot} (h : Tab.find (s.stream n).gslots slot = some g) :
    ∃ b, Tab.find ((stallGather s n slot).stream n).gslots slot = some { g with stalled := b } := by
  have noted (b : Bool) : Tab.find ((s.setStream n { s.stream n with
      gslots := Tab.ins (s.stream n).gslots slot { g with stalled := b } }).stream n).gslots slot = some { g with stalled := b } := by
    rw [State.stream_setStream_same]
    exact Tab.find_ins_same ..
  unfold stallGather
  simp only [h]
  split
  · exact ⟨_, noted false⟩
  · split
    · exact ⟨g.stalled, h⟩
    · exact ⟨true, by rw [stream_of_streams (record_counts ..).streams]; exact noted true⟩

section
variable {s s1 : State} {n : Nat} {c : List Byte}

/-- GATHER puts its fields in the slot; the look for its members that follows can but note that it stalls. -/
theorem gather_takesSlot (h : CmdBegins s s1 n 7 c gatherWait gatherBad) :
    Goes (exec (.gather n) s) fun t => SameMemory s t ∧ ∃ g, Tab.find (t.stream n).gslots (cf c 18 0 3) = some g ∧
      g.weight = cf c 16 0 16 ∧ g.dest = cAddr c 24 ∧ g.word = cAddr c 32 ∧ g.pos = posOf s n ∧ g.complete = false := by
  show Goes (execGather n s) _
  unfold execGather
  rw [runCmd_begins _ h]
  refine ⟨_, rfl, sameMemory_of_mem ?_, ?_⟩
  · refine (congrArg MemSys.mem (stallGather_ms ..)).trans (.trans (congrArg MemSys.mem (latchWeight_ms ..)) (openCmd_mem h))
  · dsimp only
    generalize hu : State.modStream _ n _ = u
    have taken := congrArg (fun u => Tab.find (State.stream u n).gslots (cf c 18 0 3)) hu
    simp only [State.stream_modStream_same, Tab.find_ins_same] at taken
    obtain ⟨b, hb⟩ := stallGather_slot taken.symm
    exact ⟨_, hb, rfl, rfl, rfl, rfl, rfl⟩

/-- Once the command has begun, its stream's gather slots are those it had. -/
theorem openCmd_gslots {op : Nat} {wait : State → Stream → List Byte → Bool} {bad : State → Stream → List Byte → Option Nat}
    (h : CmdBegins s s1 n op c wait bad) : ((openCmd s1 n c).stream n).gslots = (s.stream n).gslots := by
  rw [openCmd_stream h]
  rfl

theorem gatherRelease_marks {g : GSlot} (h : CmdBegins s s1 n 8 c gatherWait releaseBad)
    (hg : Tab.find (s.stream n).gslots (cf c 18 0 3) = some g) :
    Goes (exec (.gatherRelease n) s) fun t => SameMemory s t ∧ ∃ id,
      Tab.find (t.stream n).gslots (cf c 18 0 3) = some { g with releasing := some (posOf s n, id) } := by
  show Goes (execGatherRelease n s) _
  unfold execGatherRelease
  rw [runCmd_begins _ h]
  simp only [openCmd_gslots h, hg]
  refine ⟨_, rfl, sameMemory_of_mem (openCmd_mem h), (openCmd s1 n c).nextId, ?_⟩
  show Tab.find ((State.setStream _ n _).stream n).gslots _ = _
  rw [State.stream_setStream_same]
  exact Tab.find_ins_same ..

theorem gatherRelease_completes (h : CmdBegins s s1 n 8 c gatherWait releaseBad)
    (hg : Tab.find (s.stream n).gslots (cf c 18 0 3) = none) :
    exec (.gatherRelease n) s = .next (kept s (completeCmd (openCmd s1 n c) n (posOf s n))) := by
  show execGatherRelease n s = _
  unfold execGatherRelease
  rw [runCmd_begins _ h]
  simp only [openCmd_gslots h, hg]

end

end Sys2Proof.Machine
end

section
/-! ## What sending a control packet leaves of the guilds and their commands (13 R467, R470, R473, R488) -/
namespace Sys2Proof.Machine

/-- What names a guild command and what it contributes: a command that stalls keeps it. -/
def jobPart (j : GJob) : Nat × Word × Nat × Word × Tab (List Byte) := (j.guild, j.seq, j.stream, j.pos, j.outs)

/-- The guilds are as they were, and so is of every guild command what names it. -/
structure GuildsKept (s t : State) : Prop where
  guilds : t.link.guilds = s.link.guilds
  jobs : ∀ id, (Tab.find t.link.jobs id).map jobPart = (Tab.find s.link.jobs id).map jobPart

theorem GuildsKept.refl (s : State) : GuildsKept s s := ⟨rfl, fun _ => rfl⟩

theorem GuildsKept.trans {s t u : State} (h : GuildsKept s t) (g : GuildsKept t u) : GuildsKept s u :=
  ⟨g.guilds.trans h.guilds, fun id => (g.jobs id).trans (h.jobs id)⟩

theorem GuildsKept.of_eq {s t : State} (hg : t.link.guilds = s.link.guilds) (hj : t.link.jobs = s.link.jobs) : GuildsKept s t :=
  ⟨hg, fun id => by rw [hj]⟩

/-- What sets in once something but the guilds and their commands has changed. -/
theorem GuildsKept.after {s u t : State} (h : GuildsKept u t) (hg : u.link.guilds = s.link.guilds) (hj : u.link.jobs = s.link.jobs) :
    GuildsKept s t := (GuildsKept.of_eq hg hj).trans h

theorem CountsOnly.link {s t : State} (h : CountsOnly s t) : t.link = s.link := by
  obtain ⟨⟨_, _, _, _, _, _, -, rfl⟩, -, -⟩ := h
  rfl

theorem GuildsKept.of_link {s t : State} (h : t.link = s.link) : GuildsKept s t := .of_eq (congrArg _ h) (congrArg _ h)

/-- A command that stalls notes it, and what it has to send again; it keeps its number and its contribution (13 R488). -/
theorem stallJob_guildsKept (s : State) (id : Nat) (j : GJob) (q : Nat) (p : Option Packet) : GuildsKept s (stallJob s id j q p) := by
  have recorded (t : State) (h : CountsOnly s t) : (if j.stalled then s else t).link = s.link := by
    split
    · rfl
    · exact h.link
  unfold stallJob
  dsimp only
  rw [recorded _ (record_counts ..)]
  refine ⟨rfl, fun i => ?_⟩
  by_cases hi : i = id
  · subst hi
    rw [Tab.find_modify_same, Option.map_map]
    congr 1
    funext j
    cases p <;> rfl
  · rw [Tab.find_modify_other _ _ _ _ hi]

theorem noteLost_link (s : State) (gid : Nat) (g : Guild) (q : Nat) : (noteLost s gid g q).link = s.link := by
  unfold noteLost memberLost
  dsimp only
  split
  · split
    · rfl
    · show (ite _ _ s).link = _
      split
      · exact (record_counts ..).link
      · rfl
  · rfl

/-- A control packet of a guild that is not delivered costs a member at most, and stalls its command (R470, R488). -/
theorem undeliver_guildsKept {p : Packet} (h : p.kind = 5) (s : State) (n : Nat) : GuildsKept s (undeliver s n p) := by
  have counted : GuildsKept s (s.setPort n { s.port n with undelivered := (s.port n).undelivered + 1 }) := .of_eq rfl rfl
  unfold undeliver
  simp only [h]
  split
  · exact counted
  · split
    · exact counted
    · rename_i g _
      have lost := counted.trans (.of_link (noteLost_link _ p.guild g (rankOf g p.dest)))
      rw [if_neg (by decide)]
      split
      · exact lost.trans (stallJob_guildsKept ..)
      · exact lost

theorem sendFlit_guildsKept (s : State) (n : Nat) (x : Port) (p : Packet) : GuildsKept s (sendFlit s n x p) := by
  have tallied : (if p.kind = 6 then gtally s (0x043 + 6 * n) none ((32 + p.data.length + 63) / 64) else s).link = s.link := by
    split
    · exact (gtally_counts ..).link
    · rfl
  have counted := GuildsKept.of_link ((gtally_counts _ (0x040 + 6 * n) none 1).link.trans tallied)
  exact ⟨counted.guilds, counted.jobs⟩

theorem sendDatagram_guildsKept (s : State) (m seq : Nat) (p : Option Packet) (notice : Bool) :
    GuildsKept s (sendDatagram s m seq p notice) := by
  unfold sendDatagram
  dsimp only
  split
  · exact .refl s
  · split
    · exact .refl s
    · exact .of_eq rfl rfl

theorem sendOnConn_guildsKept (s : State) (n : Nat) (x : Port) (p : Packet) : GuildsKept s (sendOnConn s n x p) := by
  unfold sendOnConn
  exact (sendDatagram_guildsKept ..).after rfl rfl

theorem pump_guildsKept (n fuel : Nat) : ∀ s : State, GuildsKept s (pump s n fuel) := by
  induction fuel with
  | zero => exact .refl
  | succ fuel ih =>
    intro s
    unfold pump
    dsimp only
    split
    · exact .refl s
    · split
      · exact .refl s
      · refine .trans ?_ (ih _)
        split
        · exact sendFlit_guildsKept ..
        · exact sendOnConn_guildsKept ..

theorem enqueue_guildsKept (s : State) (n : Nat) (p : Packet) : GuildsKept s (enqueue s n p) := by
  have noted : GuildsKept s (noteSigPort s n p) := by
    unfold noteSigPort
    split <;> exact .of_eq rfl rfl
  unfold enqueue pumpAll
  exact noted.trans ((pump_guildsKept ..).after rfl rfl)

theorem sendRouted_guildsKept {p : Packet} (h : p.kind = 5) (s : State) : GuildsKept s (sendRouted s p) := by
  unfold sendRouted
  split
  · exact enqueue_guildsKept ..
  · exact undeliver_guildsKept h ..

theorem sendEth_guildsKept {p : Packet} (h : p.kind = 5) (s : State) (ip : Word) : GuildsKept s (sendEth s ip p) := by
  unfold sendEth
  split
  · exact undeliver_guildsKept h ..
  · split
    · exact undeliver_guildsKept h ..
    · exact (enqueue_guildsKept ..).after rfl rfl

theorem sendCtl_guildsKept (s : State) (gid : Nat) (g : Guild) (q what : Nat) (v : Word) (check amount : Nat) :
    GuildsKept s (sendCtl s gid g q what v check amount) := by
  unfold sendCtl
  dsimp only
  split
  · exact sendEth_guildsKept rfl ..
  · exact sendRouted_guildsKept rfl ..

theorem sendAll_guildsKept (s : State) (gid : Nat) (g : Guild) (what : Nat) (v : Word) (check amount : Nat) :
    GuildsKept s (sendAll s gid g what v check amount) :=
  List.foldlRecOn _ _ (GuildsKept.refl s) fun _ ht _ _ => ht.trans (sendCtl_guildsKept ..)

end Sys2Proof.Machine
end

section
/-! ## GUILD (13 R482, R487) -/
namespace Sys2Proof.Machine

theorem guildsKept_kept (s t : State) : GuildsKept t (kept s t) := .of_eq rfl rfl

/-- A guild keeps its next number, and a command in the table what names it, read field by field. -/
theorem GuildsKept.command {s t : State} (h : GuildsKept s t) {gid id a n : Nat} {next v pos : Word} {outs : Tab (List Byte)}
    (hg : (s.guild? gid).map Guild.seq = some next) (hj : (Tab.find s.link.jobs id).map jobPart = some (a, v, n, pos, outs)) :
    (t.guild? gid).map Guild.seq = some next ∧ ∃ id j, Tab.find t.link.jobs id = some j ∧ j.guild = a ∧ j.seq = v ∧ j.stream = n ∧
      j.pos = pos ∧ j.outs = outs := by
  obtain ⟨j, hfound, hpart⟩ := Option.map_eq_some_iff.1 ((h.jobs id).trans hj)
  refine ⟨?_, id, j, hfound, by simpa only [jobPart, Prod.mk.injEq] using hpart⟩
  unfold State.guild? at hg ⊢
  rw [h.guilds, hg]

/-- GUILD gives its command the guild's number and its contribution before it announces it; announcing keeps both, and a guild from which
nothing of this number has been heard has no more to do. -/
theorem guild_takesNumber {s s1 : State} {n : Nat} {c : List Byte} {g : Guild} {outs : Tab (List Byte)}
    (h : CmdBegins s s1 n 11 c guildWait guildBad) (hg : (openCmd s1 n c).guild? (gcmd c).gid = some g) (hheard : g.heard = [])
    (hearly : g.early = [])
    (hformed : (formOuts (openCmd s1 n c) { saggar := (s.stream n).saggar, stream := n, source := 520 } (gcmd c).gid g (gcmd c)
      (cmdLayer c) (cmdOper c)).1 = .ok outs) :
    Goes (exec (.guild n) s) fun t => (t.guild? (gcmd c).gid).map Guild.seq = some (g.seq + 1) ∧
      ∃ id j, Tab.find t.link.jobs id = some j ∧ j.guild = (gcmd c).gid ∧ j.seq = g.seq ∧ j.stream = n ∧ j.pos = posOf s n ∧
        j.outs = outs := by
  show Goes (execGuild n s) _
  unfold execGuild
  rw [runCmd_begins _ h]
  refine ⟨_, rfl, ?_⟩
  have hk : ((openCmd s1 n c).stream n).saggar = (s.stream n).saggar := by rw [openCmd_stream h]; rfl
  rcases hr : formOuts (openCmd s1 n c) { saggar := (s.stream n).saggar, stream := n, source := 520 } (gcmd c).gid g (gcmd c)
    (cmdLayer c) (cmdOper c) with ⟨r, u⟩
  rw [hr] at hformed
  subst hformed
  simp only [hg, hk, hr, hheard, hearly, List.filter_nil, List.foldl_nil]
  -- The command stands in its table under a fresh identity when it announces itself.
  refine ((sendAll_guildsKept ..).trans (guildsKept_kept s _)).command (id := u.fresh.1) ?_ ?_
  · exact congrArg (Option.map Guild.seq) (Tab.find_ins_same ..)
  · exact congrArg (Option.map jobPart) (Tab.find_ins_same ..)

end Sys2Proof.Machine

open Sys2Proof Sys2Proof.Machine

/-- Settles O38, command by command: a GATHER_RELEASE by what its slot holds; a GUILD by what sending to a member can do to the table of
guild commands (`sendAll_guildsKept`). -/
theorem gatherAndGuildBegin : Obligations.GatherAndGuildBegin := by
  unfold Obligations.GatherAndGuildBegin
  intro n s s1 c
  exact ⟨gather_takesSlot, fun g h hg => gatherRelease_marks h hg, gatherRelease_completes,
    fun g outs h hg hheard hearly hformed => guild_takesNumber h hg hheard hearly hformed⟩

end

section
/-! ## What a command that begins finds: memory, translations and offloaded ranges as the state had them (08 R310; 11 R408) -/
namespace Sys2Proof.Machine

theorem translate_of_maps {s t : State} {k : Nat} (h : (t.saggar k).maps = (s.saggar k).maps) (va : DWord) :
    translate t k va = translate s k va := by
  unfold translate
  rw [h]

theorem memBytes_of_mem {s t : State} (h : t.ms.mem = s.ms.mem) (n : Nat) : ∀ pa : Nat, memBytes t pa n = memBytes s pa n := by
  induction n with
  | zero => exact fun _ => rfl
  | succ n ih =>
    intro pa
    show memByte t pa :: memBytes t (pa + 1) n = memByte s pa :: memBytes s (pa + 1) n
    rw [sameMemory_of_mem h pa, ih (pa + 1)]

theorem memWord_of_mem {s t : State} (h : t.ms.mem = s.ms.mem) (pa : Nat) : memWord t pa = memWord s pa :=
  congrArg (fun l => BitVec.ofNat 32 (leNat l)) (memBytes_of_mem h 4 pa)

theorem homeCopies_of_saggar {s t : State} {k : Nat} (ho : (t.saggar k).offs = (s.saggar k).offs) (hc : (t.saggar k).cfg = (s.saggar k).cfg)
    (layer : Nat) : homeCopies t k layer = homeCopies s k layer := by
  unfold homeCopies
  dsimp only
  rw [ho, hc]

/-- What comes home early is no part of what stands in the granary. -/
theorem homeCopies_early (s : State) (k layer : Nat) (f : Saggar → List (Nat × Bool)) :
    homeCopies (s.modSaggar k fun g => { g with early := f g }) k layer = homeCopies s k layer :=
  homeCopies_of_saggar (by rw [State.saggar_modSaggar_same]) (by rw [State.saggar_modSaggar_same]) layer

section
variable {s s1 : State} {n op : Nat} {c : List Byte} {wait : State → Stream → List Byte → Bool}
  {bad : State → Stream → List Byte → Option Nat} (h : CmdBegins s s1 n op c wait bad)
include h

theorem openCmd_streamSaggar : ((openCmd s1 n c).stream n).saggar = (s.stream n).saggar := by
  rw [openCmd_stream h]
  rfl

theorem openCmd_translate (k : Nat) (va : DWord) : translate (openCmd s1 n c) k va = translate s k va := by
  obtain ⟨l, hl⟩ := openCmd_saggar h k
  exact translate_of_maps (by rw [hl]) va

theorem openCmd_homeCopies (k layer : Nat) : homeCopies (openCmd s1 n c) k layer = homeCopies s k layer := by
  obtain ⟨l, hl⟩ := openCmd_saggar h k
  exact homeCopies_of_saggar (by rw [hl]) (by rw [hl]) layer

end

end Sys2Proof.Machine
end

section
/-! ## A launch enters the market (03 R112; 11 R413, R420) -/
namespace Sys2Proof.Machine

/-- What a LAUNCH gives its launch: handing tasks over or placing them changes none of it. -/
def launchPart (l : Launch) : Nat × Nat × Nat × DWord × Res × Word := (l.stream, l.saggar, l.total, l.prog, l.res, l.pos)

/-- The launch that stands under `id`, as its LAUNCH gave it. -/
def launchPart? (s : State) (id : Nat) : Option (Nat × Nat × Nat × DWord × Res × Word) :=
  (Tab.find s.front.launches id).map launchPart

theorem launchPart?_of_front {s t : State} (h : t.front = s.front) (id : Nat) : launchPart? t id = launchPart? s id := by
  unfold launchPart?
  rw [h]

theorem modLaunch_launchPart? (s : State) {i : Nat} {f : Launch → Launch} (hf : ∀ l, launchPart (f l) = launchPart l) (id : Nat) :
    launchPart? (s.modLaunch i f) id = launchPart? s id := by
  show (Tab.find (Tab.modify s.front.launches i f) id).map launchPart = (Tab.find s.front.launches id).map launchPart
  by_cases h : id = i
  · subst h
    rw [Tab.find_modify_same, Option.map_map]
    exact congrArg (Option.map · _) (funext hf)
  · rw [Tab.find_modify_other _ _ _ _ h]

/-- Placing pinned tasks takes from a launch's pins and resumable tasks alone. -/
theorem placePinned_launchPart? (w id fuel : Nat) : ∀ s : State, launchPart? (placePinned s w fuel) id = launchPart? s id := by
  induction fuel with
  | zero => exact fun _ => rfl
  | succ fuel ih =>
    intro s
    unfold placePinned
    dsimp only
    split
    · rfl
    · split
      · rfl
      · split <;> (refine (ih _).trans ((modLaunch_launchPart? _ ?_ id).trans (launchPart?_of_front rfl id)); exact fun _ => rfl)

/-- A launch that enters the market stands there, pinned or not, under a fresh identity. -/
theorem enterMarket_launchPart? (s : State) (l : Launch) : launchPart? (enterMarket s l) s.fresh.1 = some (launchPart l) := by
  have entered (t : State) (m : Launch) :
      launchPart? { t with front := { t.front with launches := Tab.ins t.front.launches s.fresh.1 m } } s.fresh.1 = some (launchPart m) :=
    congrArg (Option.map launchPart) (Tab.find_ins_same ..)
  unfold enterMarket
  dsimp only
  split
  · refine (foldl_ms (launchPart? · s.fresh.1) _ (fun _ _ => placePinned_launchPart? ..) _ _).trans
      ((foldl_ms (launchPart? · s.fresh.1) _ ?_ _ _).trans (entered _ _))
    exact fun _ _ => launchPart?_of_front rfl _
  · exact (launchPart?_of_front rfl _).trans (entered _ _)

end Sys2Proof.Machine
end

section
/-! ## A wait is judged against its word (10 R365, R368) -/
namespace Sys2Proof.Machine

theorem CountsOnly.crier {s t : State} (h : CountsOnly s t) : t.crier = s.crier := by
  obtain ⟨⟨_, _, _, _, _, _, -, rfl⟩, -, -⟩ := h
  rfl

theorem staleWait_crier (s : State) (w : Wait) (c : Word) : (staleWait s w c).crier = s.crier := by
  unfold staleWait
  dsimp only
  split
  · split <;> exact (record_counts ..).crier
  · exact (record_counts ..).crier
  · rfl

/-- A wait that has been judged: on its way to its wake, or waiting on as `otherwise` says. -/
theorem judgeWait_wait (s : State) (id : Nat) (w : Wait) (c : Word) (otherwise : WaitSt) :
    Tab.find (judgeWait s id w c otherwise).crier.waits id =
      some (if judge c w.target w.reach = .waits then { w with st := otherwise, read := s.watch } else { w with st := .woken }) := by
  unfold judgeWait
  cases judge c w.target w.reach with
  | satisfied => exact Tab.find_ins_same ..
  | waits => exact Tab.find_ins_same ..
  | stale =>
    dsimp only
    rw [staleWait_crier]
    exact Tab.find_ins_same ..

theorem placeOf_ne_woken (s : State) (pa : Nat) : placeOf s pa ≠ .woken := by
  unfold placeOf
  split <;> decide

end Sys2Proof.Machine
end

section
/-! ## NOP, LAUNCH, SIGNAL, WAIT, TIER_MOVE and PREFETCH (07 R284, R285; 10 R366; 11 R408, R412, R413, R415, R416) -/
namespace Sys2Proof.Machine

/-- A transfer that starts stands in the table as its command gave it, but for the channels that its units are dealt to. -/
theorem startTier_job (s : State) (j : TierJob) :
    ∃ chans, Tab.find (startTier s j).2.front.tier (startTier s j).1 = some { j with chans } :=
  ⟨_, (congrArg (Tab.find ·.tier _) (foldl_ms State.front _ (fun _ _ => askLeave_front ..) _ _)).trans (Tab.find_ins_same ..)⟩

section
variable {s s1 : State} {n : Nat} {c : List Byte}

theorem nop_completes (h : CmdBegins s s1 n 0 c noWait noBad) :
    exec (.nopCommand n) s = .next (kept s (completeCmd (openCmd s1 n c) n (posOf s n))) := by
  show execNopCommand n s = _
  exact runCmd_begins _ h

theorem launch_entersMarket (h : CmdBegins s s1 n 1 c launchWait launchBad)
    (hruns : launchRuns (openCmd s1 n c) ((openCmd s1 n c).stream n) c = true)
    (hover : (((openCmd s1 n c).stream n).block.isSome && ((openCmd s1 n c).stream n).overflow) = false) :
    Goes (exec (.launch n) s) fun t => ∃ id l, Tab.find t.front.launches id = some l ∧
      (l.stream, l.saggar, l.total, l.prog, l.res, l.pos) =
        (n, (s.stream n).saggar, cf c 44 8 24 + 1, launchProg ((openCmd s1 n c).stream n) c, launchRes c, posOf s n) := by
  show Goes (execLaunch n s) _
  unfold execLaunch
  rw [runCmd_begins _ h]
  refine ⟨_, rfl, ?_⟩
  dsimp only
  rw [if_neg (by rw [hruns, hover]; decide)]
  generalize hl : enterMarket _ _ = t
  obtain ⟨l, hfound, hpart⟩ := Option.map_eq_some_iff.1 (hl ▸ enterMarket_launchPart? _ _)
  exact ⟨_, l, hfound, hpart.trans (by rw [← openCmd_streamSaggar h]; rfl)⟩

theorem signal_applies (h : CmdBegins s s1 n 5 c wordWait signalBad) :
    exec (.signal n) s = .next (kept s (completeCmd (engSignal (openCmd s1 n c)
      { saggar := (s.stream n).saggar, stream := n, source := 518 } (cAddr c 16) (cf c 28 0 2) (BitVec.ofNat 32 (cf c 24 0 32))).2
      n (posOf s n))) := by
  show execSignal n s = _
  unfold execSignal
  rw [runCmd_begins _ h]
  dsimp only
  rw [openCmd_streamSaggar h]

/-- WAIT stands at its word under a fresh identity; it is judged by the word that the state held. -/
theorem wait_registers {pa : Nat} {m : Mapping} (h : CmdBegins s s1 n 6 c wordWait waitBad)
    (hpa : translate s (s.stream n).saggar (cAddr c 16) = some (pa, m)) :
    Goes (exec (.wait n) s) fun t => SameMemory s t ∧ ∃ id w, Tab.find t.crier.waits id = some w ∧
      w.who = .command n (posOf s n).toNat ∧ w.pa = pa ∧ w.target = BitVec.ofNat 32 (cf c 24 0 32) ∧
      (w.st = .woken ↔ judge (memWord s pa) w.target w.reach ≠ .waits) := by
  show Goes (execWait n s) _
  unfold execWait
  rw [runCmd_begins _ h]
  refine ⟨_, rfl, ?_⟩
  simp only [openCmd_streamSaggar h, openCmd_translate h, hpa]
  have hmem : (openCmd s1 n c).fresh.2.ms.mem = s.ms.mem := openCmd_mem h
  rw [memWord_of_mem hmem]
  constructor
  · exact sameMemory_of_mem ((congrArg MemSys.mem (judgeWait_ms ..)).trans ((touchLine_mem ..).trans hmem))
  · refine ⟨_, _, judgeWait_wait .., ?_⟩
    split <;> rename_i hj
    · exact ⟨rfl, rfl, rfl, iff_of_false (placeOf_ne_woken _ _) (not_not_intro hj)⟩
    · exact ⟨rfl, rfl, rfl, iff_of_true rfl hj⟩

theorem tierMove_starts (h : CmdBegins s s1 n 10 c noWait moveBad) :
    Goes (exec (.tierMove n) s) fun t => ∃ id j, Tab.find t.front.tier id = some j ∧ j.kind = 3 ∧ j.stream = n ∧ j.pos = posOf s n ∧
      j.ranges = [(cAddr c 16, cAddr c 24, cf c 32 0 64)] ∧ j.sig = cAddr c 40 ∧ j.orphan = false := by
  show Goes (execTierMove n s) _
  unfold execTierMove
  rw [runCmd_begins _ h]
  obtain ⟨chans, hj⟩ := startTier_job (openCmd s1 n c) _
  exact ⟨_, rfl, _, _, hj, rfl, rfl, rfl, rfl, rfl, rfl⟩

/-- PREFETCH notes that its layer comes home early, and starts the copies home. -/
theorem prefetch_starts (h : CmdBegins s s1 n 9 c (prefetchWait n) prefetchBad)
    (hstarts : prefetchStarts (openCmd s1 n c) (s.stream n).saggar (cf c 16 12 20) = true) :
    Goes (exec (.prefetch n) s) fun t => ∃ id j, Tab.find t.front.tier id = some j ∧ j.kind = 2 ∧ j.stream = n ∧
      j.layer = cf c 16 12 20 ∧ j.ranges = homeCopies s (s.stream n).saggar (cf c 16 12 20) := by
  show Goes (execPrefetch n s) _
  unfold execPrefetch
  change Goes (runCmd 9 n (prefetchWait n) prefetchBad _ s) _
  rw [runCmd_begins _ h]
  refine ⟨_, rfl, ?_⟩
  dsimp only
  rw [openCmd_streamSaggar h, if_neg (by rw [hstarts]; decide), homeCopies_early, openCmd_homeCopies h]
  generalize State.modSaggar _ _ _ = u
  obtain ⟨chans, hj⟩ := startTier_job u _
  exact ⟨_, _, hj, rfl, rfl, rfl, rfl⟩

end

end Sys2Proof.Machine

open Sys2Proof Sys2Proof.Machine

/-- Settles O36, command by command: a LAUNCH by what entering the market can do to its launch (`enterMarket_launchPart?`), a WAIT by how its
word judges it (`judgeWait_wait`), a TIER_MOVE and a PREFETCH by the transfer that starts (`startTier_job`). -/
theorem streamCommandsBegin : Obligations.StreamCommandsBegin := by
  unfold Obligations.StreamCommandsBegin
  intro n s s1 c
  exact ⟨nop_completes, launch_entersMarket, signal_applies, fun pa m => wait_registers, tierMove_starts, prefetch_starts⟩

end
